-- ==== Sys2Proof/Config.lean ====
section
/-!
DEFINITION. The fixed sizes of the ZR-384 (the numbers of its tables and pools). The manual leaves no value free after
a command that goes on, so there is no opaque constant here.
-/
namespace Sys2Proof

/-- Circuits 1..384 (0.6, R1). -/
@[simp] abbrev Config.circuits : Nat := 384
/-- Binding slots 0..1023 (R35). -/
@[simp] abbrev Config.slots : Nat := 1024
/-- Groups 1..64 (R72). -/
@[simp] abbrev Config.groups : Nat := 64
/-- Scenes 1..32 (R77). -/
@[simp] abbrev Config.scenes : Nat := 32
/-- The member pool (R71). -/
@[simp] abbrev Config.memberPool : Nat := 1536
/-- The entry pool (R71). -/
@[simp] abbrev Config.entryPool : Nat := 2048
/-- Bindings of one (source key, event kind) (R40). -/
@[simp] abbrev Config.perKey : Nat := 8
/-- Stations of one poll list (R100). -/
@[simp] abbrev Config.stations : Nat := 40
/-- The highest station address (R100). -/
@[simp] abbrev Config.maxAddress : Nat := 62
/-- Contact inputs 1..24 (R115). -/
@[simp] abbrev Config.contacts : Nat := 24
/-- Contact, safety and cue inputs together, numbered as R165 numbers them. -/
@[simp] abbrev Config.inputs : Nat := 28
/-- Pairs or entries that one list request may carry (R73, R78, R79, R80). -/
@[simp] abbrev Config.listItems : Nat := 60
/-- The fixed debounce of SAFE1 and SAFE2 (R123). -/
@[simp] abbrev Config.safeDebounce : Nat := 20
/-- The fixed debounce of CUE1 and CUE2 (R127). -/
@[simp] abbrev Config.cueDebounce : Nat := 5
/-- The last sample of step 4 of start-up (R122). -/
@[simp] abbrev Config.settleSamples : Nat := 250
/-- Collisions in a row that put a line in Fault (R99, R104). -/
@[simp] abbrev Config.collisionLimit : Nat := 8
/-- Misses in a row that make a station Silent (R107). -/
@[simp] abbrev Config.missLimit : Nat := 3
/-- Where a saturating count stays (0.6). -/
@[simp] abbrev Config.countMax : Nat := 255
/-- Where the elapsed count of a Moving claim stays (R26). -/
@[simp] abbrev Config.movingMax : Nat := 65535
/-- Where the closed count stays (R117). -/
@[simp] abbrev Config.closedMax : Nat := 600000
/-- Pages of the settings store's memory (R156). -/
@[simp] abbrev Config.storePages : Nat := 48
/-- Bytes of a page of the settings store's memory (R156). -/
@[simp] abbrev Config.pageBytes : Nat := 1024

end Sys2Proof
end

