-- ==== Sys2Proof/Word.lean ====
section
/-!
DEFINITION. The one word type of the wire: a byte. Levels, counts and numbers of the manual are plain `Nat`s
(0.6: "all quantities in this manual are whole numbers"); only what travels as bits is a bit vector.
-/
namespace Sys2Proof

/-- One byte of a management frame, or the eight data bits of a station or rack link character (R140, R162). -/
abbrev Byte := BitVec 8

end Sys2Proof
end

