-- ==== Sys2Proof/Syntax.lean ====
section
/-!
DEFINITION. The commands of the ZR-384, one constructor of `Instr` for each row of spec/opcode_table.json, and the
named values that commands and state share.

A request row carries the items of its request as the payload carries them: numbers that nothing has checked yet
(R165), so that the request itself refuses a value outside its range with the result its rule names. An event row names
the thing it happens to and carries what it brings.
-/
namespace Sys2Proof

/-- The two station lines (chapter 7). -/
inductive Line where
  | a | b
  deriving DecidableEq, Repr

/-- The five house modes (R85). -/
inductive Mode where
  | closed | cleaning | work | rehearsal | performance
  deriving DecidableEq, Repr

/-- The five event kinds (R36). -/
inductive EventKind where
  | press | release | hold | close | open'
  deriving DecidableEq, Repr

/-- The four layers of a circuit, in rising authority (1.2). -/
inductive Layer where
  | base | local' | show' | safe
  deriving DecidableEq, Repr

/-- The two safety inputs (R123). -/
inductive SafeInput where
  | safe1 | safe2
  deriving DecidableEq, Repr

/-- The two cue lines (R127). -/
inductive CueLine where
  | cue1 | cue2
  deriving DecidableEq, Repr

/-- The three start causes (R154). -/
inductive StartCause where
  | powerOn | pin | restart
  deriving DecidableEq, Repr

/-- A source key as a payload carries it (R165): origin 0 for Line A, 1 for Line B, 2 for a contact; the address (0 for
a contact); the button or the input number. -/
structure RawKey where
  origin  : Nat
  address : Nat
  number  : Nat
  deriving DecidableEq, Repr

/-- A binding record as a payload carries it: the fields of R36 in their order, coded by R165. -/
structure RawBinding where
  key        : RawKey
  kind       : Nat
  mask       : Nat
  action     : Nat
  targetKind : Nat
  targetNo   : Nat
  level      : Option Nat
  fade       : Option Nat
  rate       : Option Nat
  feedback   : Nat
  deriving DecidableEq, Repr

/-- One level for each house mode (R1). -/
structure BaseLevels where
  closed      : Nat
  cleaning    : Nat
  work        : Nat
  rehearsal   : Nat
  performance : Nat
  deriving DecidableEq, Repr

/-- The fields SET CIRCUIT CONFIG may give (R1, R2): `none` is a field not given; a safe level may be given as absent. -/
structure CircuitFields where
  kind       : Option Nat
  floor      : Option Nat
  cap        : Option Nat
  threshold  : Option Nat
  inverted   : Option Nat
  base       : Option BaseLevels
  safe1      : Option (Option Nat)
  safe2      : Option (Option Nat)
  localClear : Option Nat
  deriving DecidableEq, Repr

/-- The fields SET MODE OPTIONS may give (R86, R94). -/
structure OptionFields where
  modeFade        : Option Nat
  defaultFade     : Option Nat
  defaultRate     : Option Nat
  safeReleaseFade : Option Nat
  startMode       : Option Nat
  deriving DecidableEq, Repr

/-- The fields SET LINE CONFIG may give (R96, R97). -/
structure LineFields where
  enabled : Option Nat
  divisor : Option Nat
  window  : Option Nat
  deriving DecidableEq, Repr

/-- The fields SET INPUT CONFIG may give (R115, R120, R127): the six of a contact input, and the edge of a cue line. -/
structure InputFields where
  kind      : Option Nat
  pullUp    : Option Nat
  polarity  : Option Nat
  debounce  : Option Nat
  holdTime  : Option Nat
  stuckTime : Option Nat
  edge      : Option Nat
  deriving DecidableEq, Repr

/-- A stage entry (R128): a Claim with its level and fade, or a Release with its fade. -/
inductive StageForm where
  | claim (level fade : Nat)
  | release (fade : Nat)
  deriving DecidableEq, Repr

/-- A character received on a station line (R105, R162): its data bits, its mark bit, whether its framing was wrong, and
whether it began too late (the first after the end of the reply window, a later one more than one character time after
the character before it). -/
structure RxChar where
  data    : Byte
  mark    : Bool
  framing : Bool
  late    : Bool
  deriving DecidableEq, Repr

/-- A transaction, or a piece of one (R146; log 31): bytes clocked in, after the fall of SEL where it was high, most significant bit first; then
single bits, as of a byte that is not complete; and whether SEL rises after them. Where it does not, the transaction goes on, and what arrives
before its next piece falls within it. -/
structure RequestPiece where
  bytes : List Byte
  bits  : List Bool
  rises : Bool
  deriving DecidableEq, Repr

/-- A fetch transaction, or a piece of one (R150; log 31): how many bytes, and then how many single bits, are clocked out after the selector, or
further, and whether SEL rises after them. -/
structure FetchPiece where
  count : Nat
  bits  : Nat
  rises : Bool
  deriving DecidableEq, Repr

/-- The commands, in the order of spec/opcode_table.json. -/
inductive Instr where
  /-- POWER_ON (R160). -/
  | powerOn
  /-- RESET_PIN_LOW (R160). -/
  | resetPinLow
  /-- RESET_PIN_RELEASE (R160). -/
  | resetPinRelease
  /-- INPUT_SETTLING_END (R122, R160). -/
  | inputSettlingEnd
  /-- REQUEST_TRANSACTION (R146 to R149), whole or in pieces. -/
  | requestTransaction (piece : RequestPiece)
  /-- FETCH (R150), whole or in pieces. -/
  | fetch (piece : FetchPiece)
  /-- READ_IDENTITY (R154). -/
  | readIdentity
  /-- READ_ATTENTION (R153). -/
  | readAttention
  /-- CLEAR_ATTENTION (R153): the two-byte set of R164. -/
  | clearAttention (flags : Nat)
  /-- SET_ATTENTION_MASK (R153): the two-byte mask of R164. -/
  | setAttentionMask (mask : Nat)
  /-- RESTART (R155). -/
  | restart
  /-- SET_CIRCUIT_CONFIG (R2). -/
  | setCircuitConfig (first last : Nat) (fields : CircuitFields)
  /-- READ_CIRCUIT_CONFIG (R3). -/
  | readCircuitConfig (first count : Nat)
  /-- CLAIM_LEVEL (R17): the layer coded by R165. -/
  | claimLevel (circuit layer level fade : Nat)
  /-- RELEASE_LAYER (R18): the layer coded by R165. -/
  | releaseLayer (circuit layer fade : Nat)
  /-- READ_CIRCUIT_STATE (R19). -/
  | readCircuitState (first count : Nat)
  /-- ADD_BINDING (R43). -/
  | addBinding (record : RawBinding)
  /-- REPLACE_BINDING (R44). -/
  | replaceBinding (slot : Nat) (record : RawBinding)
  /-- RETIRE_BINDING (R45). -/
  | retireBinding (slot : Nat)
  /-- RETIRE_SOURCE (R46). -/
  | retireSource (key : RawKey)
  /-- DISABLE (R47). -/
  | disable (slot : Nat)
  /-- ENABLE (R48). -/
  | enable (slot : Nat)
  /-- READ_BINDING (R49). -/
  | readBinding (slot : Nat)
  /-- FIND_BINDINGS (R50): the event kind coded by R165. -/
  | findBindings (key : RawKey) (kind : Nat)
  /-- INJECT_EVENT (R69): the event kind coded by R165. -/
  | injectEvent (key : RawKey) (kind : Nat)
  /-- WRITE_GROUP (R73). -/
  | writeGroup (group : Nat) (ranges : List (Nat × Nat))
  /-- DELETE_GROUP (R74). -/
  | deleteGroup (group : Nat)
  /-- READ_GROUP (R75). -/
  | readGroup (group first count : Nat)
  /-- WRITE_SCENE (R78). -/
  | writeScene (scene : Nat) (fade : Option Nat) (entries : List (Nat × Nat))
  /-- EXTEND_SCENE (R79). -/
  | extendScene (scene : Nat) (entries : List (Nat × Nat))
  /-- CAPTURE_SCENE (R80). -/
  | captureScene (scene : Nat) (fade : Option Nat) (ranges : List (Nat × Nat))
  /-- DELETE_SCENE (R81). -/
  | deleteScene (scene : Nat)
  /-- READ_SCENE (R82). -/
  | readScene (scene first count : Nat)
  /-- SET_MODE (R87): the mode coded by R162. -/
  | setMode (mode : Nat) (fade : Option Nat)
  /-- READ_MODE (R88). -/
  | readMode
  /-- SET_MODE_OPTIONS (R94). -/
  | setModeOptions (fields : OptionFields)
  /-- SET_LINE_CONFIG (R97): the line coded by R165. -/
  | setLineConfig (line : Nat) (fields : LineFields)
  /-- ENROL_STATION (R109). -/
  | enrolStation (line address buttons indicators : Nat)
  /-- UNENROL_STATION (R110). -/
  | unenrolStation (line address : Nat)
  /-- READ_STATION (R111). -/
  | readStation (line address : Nat)
  /-- READ_LINE (R111). -/
  | readLine (line : Nat)
  /-- CENSUS_START (R112). -/
  | censusStart (line : Nat)
  /-- CENSUS_READ (R114). -/
  | censusRead (line : Nat)
  /-- SET_INPUT_CONFIG (R120): the input numbered by R165. -/
  | setInputConfig (input : Nat) (fields : InputFields)
  /-- READ_INPUT (R121): the input numbered by R165. -/
  | readInput (input : Nat)
  /-- STAGE_ENTRY (R129). -/
  | stageEntry (stage circuit : Nat) (entry : StageForm)
  /-- STAGE_CLEAR (R130). -/
  | stageClear (stage : Nat)
  /-- SET_STAGE_TRIGGER (R131): the trigger coded by R165. -/
  | setStageTrigger (stage trigger : Nat)
  /-- STANDBY (R132). -/
  | standby (stage : Nat)
  /-- UNSTANDBY (R132). -/
  | unstandby (stage : Nat)
  /-- GO (R133). -/
  | go (stage : Nat)
  /-- READ_STAGE (R138). -/
  | readStage (stage first count : Nat)
  /-- SET_LINK_CONFIG (R144). -/
  | setLinkConfig (period : Nat)
  /-- READ_RACK_LINK (R145). -/
  | readRackLink
  /-- SAVE (R157). -/
  | save
  /-- ERASE_STORE (R158). -/
  | eraseStore
  /-- READ_STORE_STATE (R159). -/
  | readStoreState
  /-- SAVE_OPERATION_END (R157): whether verification succeeded. -/
  | saveOperationEnd (verified : Bool)
  /-- ERASE_OPERATION_END (R158). -/
  | eraseOperationEnd
  /-- FADE_TICK (R16). -/
  | fadeTick
  /-- FADE_COMPLETE (R22): the circuit and the layer whose claim's count has reached its duration. -/
  | fadeComplete (circuit : Nat) (layer : Layer)
  /-- HANDOVER_END (R32): the circuit whose handover's count has reached its duration. -/
  | handoverEnd (circuit : Nat)
  /-- NEXT_EXCHANGE (R101). -/
  | nextExchange (line : Line)
  /-- EXCHANGE_SENT (R104). -/
  | exchangeSent (line : Line)
  /-- COLLISION (R104). -/
  | collision (line : Line)
  /-- REPLY (R105, R163): the characters received. -/
  | reply (line : Line) (chars : List RxChar)
  /-- REPLY_WINDOW_END (R105). -/
  | replyWindowEnd (line : Line)
  /-- LINE_BREAK (R99). -/
  | lineBreak (line : Line)
  /-- FAULT_RECOVERY (R99). -/
  | faultRecovery (line : Line)
  /-- ACCEPTED_CLOSE (R117). -/
  | acceptedClose (input : Nat)
  /-- HOLD_TIME_REACHED (R117). -/
  | holdTimeReached (input : Nat)
  /-- STUCK_TIME_REACHED (R118). -/
  | stuckTimeReached (input : Nat)
  /-- ACCEPTED_OPEN (R118). -/
  | acceptedOpen (input : Nat)
  /-- MAINTAINED_CHANGE (R119): the position accepted. -/
  | maintainedChange (input : Nat) (closed : Bool)
  /-- SAFE_ASSERT (R124). -/
  | safeAssert (input : SafeInput)
  /-- SAFE_DEASSERT (R125). -/
  | safeDeassert (input : SafeInput)
  /-- CUE_EVENT (R127, R134). -/
  | cueEvent (line : CueLine)
  /-- FRAME_START (R141, R143): the next-start time is reached. -/
  | frameStart
  /-- FRAME_END (R143). -/
  | frameEnd
  /-- CONTACT_SAMPLE (R116, R122): the level of each pin, bit n - 1 for the input R165 numbers n, 1 for high; and the order in
  which the inputs' products reach the rest of the part, which R116 leaves open. -/
  | contactSample (pins : BitVec 28) (order : List Nat)
  /-- SUPPLY_LOST (R159). -/
  | supplyLost
  /-- ROUND_WAIT_END (R101). -/
  | roundWaitEnd (line : Line)
  deriving DecidableEq, Repr

end Sys2Proof
end

