-- ==== Sys2Proof/Decode.lean ====
section
/-!
DEFINITION. No row of spec/opcode_table.json gives bits, so no word spells a command. A request reaches the port as the bytes of a
transaction: their reading is `judgeFrame` and `parseRequest` of Machine/Requests.lean (R146, R147, R164, R165).
-/
namespace Sys2Proof

/-- The command that a word spells by the table's bits: none, since no row of the table gives any. -/
def decodeTableWord (_nbits _w : Nat) : Option Instr := none

end Sys2Proof
end

