-- ==== Sys2Proof/Machine/State.lean ====
section
/-!
DEFINITION. The state of the ZR-384 as plain data: every piece of state the manual gives the part, with its value right
after reset. INVENTORY.md lists each field with its rule and reset value.
-/
namespace Sys2Proof.Machine

/-! ## Named values -/

/-- Dimmed or Switched (R1). -/
inductive CircuitKind where
  | dimmed | switched
  deriving DecidableEq, Repr

/-- A set of house modes (R1, R36). -/
structure ModeSet where
  closed      : Bool
  cleaning    : Bool
  work        : Bool
  rehearsal   : Bool
  performance : Bool
  deriving DecidableEq, Repr

/-- The name of where an event came from (R36). -/
inductive SourceKey where
  | station (line : Line) (address button : Nat)
  | contact (input : Nat)
  deriving DecidableEq, Repr

/-- The eight actions, in the order of R36. -/
inductive Action where
  | on | off | toggle | raise | lower | recall | release | mode
  deriving DecidableEq, Repr

/-- What a binding acts on (R36). -/
inductive Target where
  | circuit (n : Nat)
  | group (n : Nat)
  | scene (n : Nat)
  | mode (m : Mode)
  deriving DecidableEq, Repr

/-- The result codes, in the order of the result code table of chapter 11 (R164 numbers them so). -/
inductive ResultCode where
  | ok | starting | checkFail | frameFail | unknownRequest | length | range | mismatch | duplicate | keyFull | tableFull
  | poolFull | notFound | occupied | storeBusy | stageArmed | stageEmpty | notReady | lineOff | censusBusy | enrolled
  deriving DecidableEq, Repr

/-- The thirteen attention flags, in the order of the attention table of chapter 11 (R164 numbers their bits so). -/
inductive Flag where
  | started | storeBlank | storeDone | storeFail | modeChanged | safeChange | cueIgnored | stationSilent | stationBack
  | eventsLost | lineFault | inputStuck | censusDone
  deriving DecidableEq, Repr

/-! ## Circuits (chapters 1 and 2) -/

/-- The configuration fields of a circuit (R1). -/
structure CircuitConfig where
  kind       : CircuitKind
  floor      : Nat
  cap        : Nat
  threshold  : Nat
  inverted   : Bool
  base       : BaseLevels
  safe1      : Option Nat
  safe2      : Option Nat
  localClear : ModeSet
  deriving DecidableEq, Repr

/-- The direction of a Moving claim (R5). -/
inductive Direction where
  | up | down
  deriving DecidableEq, Repr

/-- The form of a claim (R5). A Moving claim holds the value the level engine last computed for it (R27). -/
inductive Form where
  | steady (level : Nat)
  | fading (start target duration count : Nat)
  | moving (start : Nat) (dir : Direction) (rate count value : Nat)
  deriving DecidableEq, Repr

/-- Who made a Show claim (R6). -/
inductive Maker where
  | stage1 | stage2 | port
  deriving DecidableEq, Repr

/-- A set of safety inputs (R6). -/
structure SafeSet where
  safe1 : Bool
  safe2 : Bool
  deriving DecidableEq, Repr

/-- A claim with an owner of its layer's kind (R5, R6). -/
structure Claim (Owner : Type) where
  form  : Form
  owner : Owner
  deriving DecidableEq, Repr

/-- The owner of a Local claim: slot and source key, both present or both absent (R6). -/
abbrev LocalOwner := Option (Nat × SourceKey)

/-- A handover (R7). -/
structure Handover where
  fromLevel : Nat
  duration  : Nat
  count     : Nat
  deriving DecidableEq, Repr

/-- One circuit record: configuration and live state (R1, R4, R7). -/
structure Circuit where
  cfg      : CircuitConfig
  base     : Option (Claim Mode)
  local'   : Option (Claim LocalOwner)
  show'    : Option (Claim Maker)
  safe     : Option (Claim SafeSet)
  handover : Option Handover
  raw      : Nat
  output   : Nat
  deriving DecidableEq, Repr

/-! ## The binding table (chapter 3) -/

/-- A binding record (R36). -/
structure Binding where
  key      : SourceKey
  kind     : EventKind
  mask     : ModeSet
  action   : Action
  target   : Target
  level    : Option Nat
  fade     : Option Nat
  rate     : Option Nat
  feedback : Bool
  deriving DecidableEq, Repr

/-- A binding slot (R35). -/
inductive Slot where
  | free
  | live (record : Binding)
  | disabled (record : Binding)
  deriving DecidableEq, Repr

/-- One list of the key index (R41). -/
structure IndexEntry where
  key   : SourceKey
  kind  : EventKind
  slots : List Nat
  deriving DecidableEq, Repr

/-! ## Scenes and mode options (chapters 5 and 6) -/

/-- A Defined scene (R77): entries are (circuit, level). -/
structure Scene where
  fade    : Option Nat
  entries : List (Nat × Nat)
  deriving DecidableEq, Repr

/-- The five mode options (R86). -/
structure ModeOptions where
  modeFade        : Nat
  defaultFade     : Nat
  defaultRate     : Nat
  safeReleaseFade : Nat
  startMode       : Mode
  deriving DecidableEq, Repr

/-! ## Station lines (chapter 7) -/

/-- The configuration of a line (R96). -/
structure LineConfig where
  enabled : Bool
  divisor : Nat
  window  : Nat
  deriving DecidableEq, Repr

/-- The state of a line (R98). -/
inductive LineState where
  | off | running | fault
  deriving DecidableEq, Repr

/-- The state of a station (R100). -/
inductive StationState where
  | absent | online | silent
  deriving DecidableEq, Repr

/-- The fields of a station record that the image stores (R156). -/
structure StationIdent where
  address    : Nat
  buttons    : Nat
  indicators : Bool
  deriving DecidableEq, Repr

/-- A station record (R100). -/
structure Station where
  ident      : StationIdent
  state      : StationState
  misses     : Nat
  lastBit    : Option Bool
  eventsLost : Nat
  deriving DecidableEq, Repr

/-- A character the controller sends: its mark bit and its data bits (R162). -/
structure TxChar where
  mark : Bool
  data : Byte
  deriving DecidableEq, Repr

/-- What an exchange is (R96). -/
inductive ExchangeKind where
  | poll (address : Nat)
  | census (address : Nat)
  | announce (mode : Mode)
  deriving DecidableEq, Repr

/-- The exchange in flight: its characters, the divisor and reply window it took at its start (R96), whether its
characters have all been sent (R104, R105), and whether its reply is to be discarded (R110). -/
structure Exchange where
  kind    : ExchangeKind
  chars   : List TxChar
  divisor : Nat
  window  : Nat
  sent    : Bool
  discard : Bool
  deriving DecidableEq, Repr

/-- A collision repeat (R104). An announce that collided needs none: it stays pending (R108). -/
inductive Repeat where
  | station (address : Nat)
  | census (address : Nat)
  deriving DecidableEq, Repr

/-- The state of a census (R112). -/
inductive CensusState where
  | idle | running | done | abandoned
  deriving DecidableEq, Repr

/-- One station line controller (R96 to R113). -/
structure LineCtl where
  config     : LineConfig
  state      : LineState
  stations   : List Station
  round      : Nat
  collisions : Nat
  lastPolled : Option Nat
  waiting    : Bool
  announce   : Option Mode
  again      : Option Repeat
  exchange   : Option Exchange
  census     : CensusState
  censusList : List StationIdent
  censusAddr : Nat
  deriving DecidableEq, Repr

/-! ## Inputs (chapter 8) -/

/-- The kind of a contact input (R115). -/
inductive InputKind where
  | unused | momentary | maintained
  deriving DecidableEq, Repr

/-- The configuration of a contact input (R115). `closedHigh` is the polarity. -/
structure InputConfig where
  kind       : InputKind
  pullUp     : Bool
  closedHigh : Bool
  debounce   : Nat
  holdTime   : Nat
  stuckTime  : Nat
  deriving DecidableEq, Repr

/-- The state of a contact input (R115). -/
inductive InputState where
  | unused | open' | closed | held | stuck
  deriving DecidableEq, Repr

/-- What the unit keeps of one pin: accepted level (true for high) and disagree count (R115). In step 4 of start-up
`level` is the level last sampled, `run` the length of its run of agreeing samples and `settled` whether it is settled (R122). -/
structure Pin where
  level    : Bool
  disagree : Nat
  run      : Nat
  settled  : Bool
  deriving DecidableEq, Repr

/-- A contact input record (R115). -/
structure ContactInput where
  config      : InputConfig
  pin         : Pin
  state       : InputState
  closedCount : Nat
  deriving DecidableEq, Repr

/-- The edge of a cue line (R127). -/
inductive Edge where
  | rising | falling
  deriving DecidableEq, Repr

/-- A cue line (R127). -/
structure CueInput where
  edge : Edge
  pin  : Pin
  deriving DecidableEq, Repr

/-! ## Stages (chapter 9) -/

/-- The state of a stage (R128). -/
inductive StageState where
  | empty | loading | standby
  deriving DecidableEq, Repr

/-- The trigger of a stage (R128). -/
inductive Trigger where
  | cue1 | cue2 | go | linked
  deriving DecidableEq, Repr

/-- A staging bank (R128): entries are (circuit, form). -/
structure Stage where
  state   : StageState
  trigger : Trigger
  entries : List (Nat × StageForm)
  deriving DecidableEq, Repr

/-! ## Rack link (chapter 10) -/

/-- The rack link transmitter (R139, R143). `nextStart` is the next-start time, in milliseconds after the frame start
that set it; it is absent while a start is owed and before the first frame start. `frame` holds the characters of the frame in
flight. -/
structure Link where
  sending   : Bool
  period    : Nat
  inUse     : Nat
  nextStart : Option Nat
  frame     : Option (List Byte)
  owed      : Bool
  late      : Nat
  deriving DecidableEq, Repr

/-! ## Management port (chapter 11) -/

/-- The port state (R148). -/
inductive PortState where
  | starting | idle | working | done
  deriving DecidableEq, Repr

/-- A reply (R149): the echo of the request code, the result code and the payload. -/
structure Reply where
  echo    : Byte
  result  : ResultCode
  payload : List Byte
  deriving DecidableEq, Repr

/-- The management port (11). `request` is the request being carried out while Working. A set bit of `mask` marks its flag
masked. -/
structure Port where
  state   : PortState
  slot    : Option Reply
  request : Option Instr
  overrun : Bool
  flags   : BitVec 13
  mask    : BitVec 13
  deriving DecidableEq, Repr

/-- A byte of a transaction that has begun and is not complete (R146): the byte that SDO shifts out, fixed at its start (R151), and the bits
that SDI has brought so far. -/
structure ByteInProgress where
  out  : Byte
  bits : List Bool
  deriving DecidableEq, Repr

/-- A transaction between the fall and the rise of SEL (R146): the whole bytes clocked in so far; what a fetch took at the start of its
status byte, the reply frame that was due and whether the overrun flag was set (R150); and the byte that is not complete, if one has begun. -/
structure Transfer where
  received : List Byte
  due      : Option (List Byte)
  showed   : Bool
  current  : Option ByteInProgress
  deriving DecidableEq, Repr

/-! ## Settings store (chapter 12) -/

/-- What the image stores of one line (R156). -/
structure StoredLine where
  config   : LineConfig
  stations : List StationIdent
  deriving DecidableEq, Repr

/-- The stored configuration of the part, and nothing else (R156). -/
structure Stored where
  circuits : List CircuitConfig
  slots    : List Slot
  groups   : List (Option (List Nat))
  scenes   : List (Option Scene)
  options  : ModeOptions
  lineA    : StoredLine
  lineB    : StoredLine
  inputs   : List InputConfig
  edge1    : Edge
  edge2    : Edge
  period   : Nat
  mask     : BitVec 13
  deriving DecidableEq, Repr

/-- The store state (R156). -/
inductive StoreState where
  | ready | saving | erasing
  deriving DecidableEq, Repr

/-- The settings store (R156, R157). `memory` holds the bytes programmed into its 48 pages of 1 KiB, from the first byte of the first page
on; every byte after them is erased (log 14). `copy` is the copy of the tables that SAVE took. -/
structure Store where
  state  : StoreState
  valid  : Bool
  memory : List Byte
  copy   : Option Stored
  deriving DecidableEq, Repr

/-! ## The part -/

/-- Where the part stands: without supply (R159), held by the RESET pin, in step 4 of start-up (steps 1 to 3 are taken on the
arrival that begins it), or running from the end of start-up (R160). -/
inductive Phase where
  | unpowered | held | settling | running
  deriving DecidableEq, Repr

/-- The state of the ZR-384. `resetLow` is the level of the RESET pin. `spi` is the transaction in progress, absent while SEL is high; `sdo`
holds the bits SDO has carried in it, or in the last one (R146). -/
structure State where
  phase         : Phase
  resetLow      : Bool
  startCause    : StartCause
  circuits      : List Circuit
  slots         : List Slot
  index         : List IndexEntry
  groups        : List (Option (List Nat))
  scenes        : List (Option Scene)
  mode          : Mode
  options       : ModeOptions
  lineA         : LineCtl
  lineB         : LineCtl
  inputs        : List ContactInput
  safe1         : Pin
  safe2         : Pin
  cue1          : CueInput
  cue2          : CueInput
  settleSamples : Nat
  stage1        : Stage
  stage2        : Stage
  ignored1      : Nat
  ignored2      : Nat
  link          : Link
  port          : Port
  store         : Store
  spi           : Option Transfer
  sdo           : List Bool
  pending       : List Instr
  deriving DecidableEq, Repr

/-- The ZR-384 has no fault that stops it: what the manual calls a fault is a line state (R99). No command raises one. -/
inductive Fault where
  deriving DecidableEq, Repr

/-- Why a command has no meaning here. -/
inductive Refusal where
  /-- The row of the opcode table is not modelled; raised by an arm of `exec` alone, and safe: nothing is said about it. No arm
  raises it now. -/
  | notModelled (mnemonic : String)
  deriving DecidableEq, Repr

/-! ## Blank defaults and reset -/

/-- The blank default of a circuit's configuration (R1). -/
def CircuitConfig.blank : CircuitConfig where
  kind := .dimmed
  floor := 0
  cap := 1000
  threshold := 500
  inverted := false
  base := ⟨0, 0, 0, 0, 0⟩
  safe1 := none
  safe2 := none
  localClear := ⟨false, false, false, false, false⟩

/-- The blank defaults of the mode options (R86). -/
def ModeOptions.blank : ModeOptions where
  modeFade := 30
  defaultFade := 20
  defaultRate := 50
  safeReleaseFade := 50
  startMode := .closed

/-- The blank default of a line configuration (R96). -/
def LineConfig.blank : LineConfig := ⟨true, 24, 4⟩

/-- The blank default of a contact input configuration (R115). -/
def InputConfig.blank : InputConfig where
  kind := .unused
  pullUp := true
  closedHigh := false
  debounce := 10
  holdTime := 600
  stuckTime := 60

/-- Every table at its blank default (R160 step 2). -/
def Stored.blank : Stored where
  circuits := List.replicate Config.circuits CircuitConfig.blank
  slots := List.replicate Config.slots Slot.free
  groups := List.replicate Config.groups none
  scenes := List.replicate Config.scenes none
  options := ModeOptions.blank
  lineA := ⟨LineConfig.blank, []⟩
  lineB := ⟨LineConfig.blank, []⟩
  inputs := List.replicate Config.contacts InputConfig.blank
  edge1 := .falling
  edge2 := .falling
  period := 25
  mask := 0

/-- A blank circuit after start-up in the blank start mode: Base Steady at 0, owner Closed (R85). -/
def Circuit.reset : Circuit where
  cfg := CircuitConfig.blank
  base := some ⟨.steady 0, .closed⟩
  local' := none
  show' := none
  safe := none
  handover := none
  raw := 0
  output := 0

/-- A line right after it has become Running with an empty poll list (R98, R112). -/
def LineCtl.reset : LineCtl where
  config := LineConfig.blank
  state := .running
  stations := []
  round := 0
  collisions := 0
  lastPolled := none
  waiting := false
  announce := none
  again := none
  exchange := none
  census := .idle
  censusList := []
  censusAddr := 1

/-- A pin after settling, at the given level (R122). -/
def Pin.at (level : Bool) : Pin := ⟨level, 0, 0, false⟩

/-- An Unused contact input whose pin is high (R115, R122; DESIGN CHOICE, log 2: the level). -/
def ContactInput.reset : ContactInput := ⟨InputConfig.blank, Pin.at true, .unused, 0⟩

/-- A stage after start-up (R128). -/
def Stage.reset : Stage := ⟨.empty, .go, []⟩

/-- The rack link as its first frame starts, every drive byte 0 (R139, R143): 5Ah, 384 zeros and their check (R140). -/
def Link.reset : Link where
  sending := true
  period := 25
  inUse := 25
  nextStart := some 25
  frame := some ([0x5A] ++ List.replicate 384 0 ++ [0x1C, 0x68])
  owed := false
  late := 0

/-- The port at the end of start-up (R148, R160): STARTED and STORE_BLANK are set. -/
def Port.reset : Port where
  state := .idle
  slot := none
  request := none
  overrun := false
  flags := 0b11
  mask := 0

/-- The machine right after reset: the end of a start-up with cause Power-on that found no valid image (R160), with the pins
at rest (DESIGN CHOICE, log 1, 2 and 15: which start-up it was, the pins and the image; every other value is the one its rule gives
after start-up). -/
def State.reset : State where
  phase := .running
  resetLow := false
  startCause := .powerOn
  circuits := List.replicate Config.circuits Circuit.reset
  slots := List.replicate Config.slots Slot.free
  index := []
  groups := List.replicate Config.groups none
  scenes := List.replicate Config.scenes none
  mode := .closed
  options := ModeOptions.blank
  lineA := LineCtl.reset
  lineB := LineCtl.reset
  inputs := List.replicate Config.contacts ContactInput.reset
  safe1 := Pin.at false
  safe2 := Pin.at false
  cue1 := ⟨.falling, Pin.at true⟩
  cue2 := ⟨.falling, Pin.at true⟩
  settleSamples := 0
  stage1 := Stage.reset
  stage2 := Stage.reset
  ignored1 := 0
  ignored2 := 0
  link := Link.reset
  port := Port.reset
  store := ⟨.ready, false, [], none⟩
  spi := none
  sdo := []
  pending := []

end Sys2Proof.Machine
end

