-- ==== Sys2Proof/Machine/Levels.lean ====
section
/-!
DEFINITION. Level arithmetic (chapter 2) and the two clamps (R8, R9): what a claim's value is at its count, and what a circuit's
limits make of a level.
-/
namespace Sys2Proof

/-- The base level of a mode (R1, R90). -/
def BaseLevels.at (b : BaseLevels) : Mode → Nat
  | .closed => b.closed
  | .cleaning => b.cleaning
  | .work => b.work
  | .rehearsal => b.rehearsal
  | .performance => b.performance

namespace Machine

/-- The fade formula of R20: `start + trunc((target - start) * k / d)`, formed exactly and truncated toward zero (R21). -/
def fadeValue (start target d k : Nat) : Nat :=
  ((start : Int) + Int.tdiv (((target : Int) - (start : Int)) * (k : Int)) (d : Int)).toNat

/-- `step(k)` of R25. -/
def moveStep (rate k : Nat) : Nat := (1000 * k) / (10 * rate)

/-- Within floor and cap (R8, R9, R24, R25). -/
def CircuitConfig.limit (cfg : CircuitConfig) (level : Nat) : Nat := max cfg.floor (min cfg.cap level)

/-- The value of a Moving claim, from the floor and cap as they stand (R25). Subtraction that would pass below 0 meets the floor
either way. -/
def moveValue (cfg : CircuitConfig) (start : Nat) (dir : Direction) (rate k : Nat) : Nat :=
  match dir with
  | .up => cfg.limit (start + moveStep rate k)
  | .down => cfg.limit (start - moveStep rate k)

/-- The claim-time clamp (R8). -/
def CircuitConfig.clamp (cfg : CircuitConfig) (level : Nat) : Nat :=
  match cfg.kind with
  | .dimmed => if level = 0 then 0 else cfg.limit level
  | .switched => if cfg.threshold ≤ level then 1000 else 0

/-- The output clamp (R9). -/
def CircuitConfig.outputOf (cfg : CircuitConfig) (raw : Nat) : Nat :=
  match cfg.kind with
  | .dimmed => if raw = 0 then 0 else cfg.limit raw
  | .switched => if cfg.threshold ≤ raw then 1000 else 0

/-- The present value of a claim (R5, R20, R27). -/
def Form.value : Form → Nat
  | .steady level => level
  | .fading start target d k => fadeValue start target d k
  | .moving _ _ _ _ value => value

/-- The target of a claim; a Moving claim has none (R5). -/
def Form.target : Form → Option Nat
  | .steady level => some level
  | .fading _ target _ _ => some target
  | .moving .. => none

/-- The form of a claim made with a fade of `fade` tenths (R5, R22). -/
def Form.ofFade (start target fade : Nat) : Form :=
  if fade = 0 then .steady target else .fading start target (10 * fade) 0

/-- A Fading claim whose count has reached its duration is Steady at its target (R16 step 2). -/
def Form.complete : Form → Form
  | .fading start target d k => if d ≤ k then .steady target else .fading start target d k
  | f => f

/-- One fade tick on one claim: its count is advanced, and a Fading claim that reaches its duration is completed (R16 steps 1
and 2, R26, R33). -/
def Form.tick (cfg : CircuitConfig) : Form → Form
  | .steady level => .steady level
  | .fading start target d k => Form.complete (.fading start target d (min (k + 1) d))
  | .moving start dir rate k _ =>
    let k' := min (k + 1) Config.movingMax
    .moving start dir rate k' (moveValue cfg start dir rate k')

/-- Movement ended (R28): a Moving claim is Steady at its held value. -/
def Form.stop : Form → Form
  | .moving _ _ _ _ value => .steady value
  | f => f

/-- Whether a claim is Moving (R5). -/
def Form.isMoving : Form → Bool
  | .moving .. => true
  | _ => false

/-- The form a raise or lower takes on a Dimmed circuit, from the start level of R10 (R24). -/
def Form.ofMove (cfg : CircuitConfig) (start : Nat) (dir : Direction) (rate : Nat) : Form :=
  if dir = .down ∧ start = 0 then .steady 0
  else .moving (cfg.limit start) dir rate 0 (cfg.limit start)

/-- Whether a set of modes holds a mode (R36). -/
def ModeSet.has (m : ModeSet) : Mode → Bool
  | .closed => m.closed
  | .cleaning => m.cleaning
  | .work => m.work
  | .rehearsal => m.rehearsal
  | .performance => m.performance

/-- Whether a set of safety inputs holds one (R6). -/
def SafeSet.has (m : SafeSet) : SafeInput → Bool
  | .safe1 => m.safe1
  | .safe2 => m.safe2

/-- Whether a set of safety inputs is empty. -/
def SafeSet.isEmpty (m : SafeSet) : Bool := !m.safe1 && !m.safe2

end Machine

end Sys2Proof
end

