-- ==== Sys2Proof/Machine/Arbiter.lean ====
section
/-!
DEFINITION. The circuit arbiter on one circuit record (chapter 1): what the circuit shows, making a claim, releasing a layer,
ending movement, the fade tick, configuration writes and the Safe layer.
-/
namespace Sys2Proof

/-- The rank of a layer, in rising authority (1.2). -/
def Layer.rank : Layer → Nat
  | .base => 0
  | .local' => 1
  | .show' => 2
  | .safe => 3

namespace Machine

/-- The owner of a claim, which names its layer (R6). -/
inductive Stake where
  | base (m : Mode)
  | local' (o : LocalOwner)
  | show' (m : Maker)
  | safe (inputs : SafeSet)
  deriving DecidableEq, Repr

/-- The layer of an owner (R6). -/
def Stake.layer : Stake → Layer
  | .base _ => .base
  | .local' _ => .local'
  | .show' _ => .show'
  | .safe _ => .safe

/-- The form of the claim a layer holds (R4). -/
def Circuit.form? (c : Circuit) : Layer → Option Form
  | .base => c.base.map (·.form)
  | .local' => c.local'.map (·.form)
  | .show' => c.show'.map (·.form)
  | .safe => c.safe.map (·.form)

/-- The deciding layer: the highest that holds a claim (R7). -/
def Circuit.deciding (c : Circuit) : Option Layer :=
  if c.safe.isSome then some .safe
  else if c.show'.isSome then some .show'
  else if c.local'.isSome then some .local'
  else if c.base.isSome then some .base
  else none

/-- The present value of the deciding claim; 0 where no layer decides (R4, R7). -/
def Circuit.decidingValue (c : Circuit) : Nat :=
  match c.deciding with
  | none => 0
  | some l => ((c.form? l).map Form.value).getD 0

/-- The value of a handover toward a level (R7, R20, R32). -/
def Handover.value (h : Handover) (goal : Nat) : Nat := fadeValue h.fromLevel goal h.duration h.count

/-- The raw level that follows from the claims and the handover (R7); 0 where no layer decides (R4). -/
def Circuit.rawOf (c : Circuit) : Nat :=
  match c.deciding, c.handover with
  | none, _ => 0
  | some _, none => c.decidingValue
  | some _, some h => h.value c.decidingValue

/-- The arbiter recomputes the raw and output levels (R7, R9). -/
def Circuit.recompute (c : Circuit) : Circuit :=
  { c with raw := c.rawOf, output := c.cfg.outputOf c.rawOf }

/-- Layer `l` is at or above the deciding layer, so a claim on it decides (R10). -/
def Circuit.decides (c : Circuit) (l : Layer) : Bool :=
  match c.deciding with
  | none => true
  | some d => decide (d.rank ≤ l.rank)

/-- The start level of a new claim on a layer (R10). -/
def Circuit.startLevel (c : Circuit) (l : Layer) : Nat :=
  if c.decides l then c.raw else ((c.form? l).map Form.value).getD 0

/-- A layer's claim is replaced (R10). -/
def Circuit.put (c : Circuit) (w : Stake) (f : Form) : Circuit :=
  match w with
  | .base m => { c with base := some ⟨f, m⟩ }
  | .local' o => { c with local' := some ⟨f, o⟩ }
  | .show' m => { c with show' := some ⟨f, m⟩ }
  | .safe i => { c with safe := some ⟨f, i⟩ }

/-- A claim of a given form arrives (R10): a claim that decides removes a running handover, the layer's claim is replaced and the
levels are recomputed. -/
def Circuit.place (w : Stake) (f : Form) (c : Circuit) : Circuit :=
  let c1 := if c.decides w.layer then { c with handover := none } else c
  (c1.put w f).recompute

/-- A claim at a level with a fade arrives (R5, R8, R10). -/
def Circuit.claim (w : Stake) (level fade : Nat) (c : Circuit) : Circuit :=
  c.place w (Form.ofFade (c.startLevel w.layer) (c.cfg.clamp level) fade)

/-- A raise or lower arrives on the Local layer (R24, R31). -/
def Circuit.move (o : LocalOwner) (dir : Direction) (rate : Nat) (c : Circuit) : Circuit :=
  match c.cfg.kind with
  | .dimmed => c.place (.local' o) (Form.ofMove c.cfg (c.startLevel .local') dir rate)
  | .switched => c.place (.local' o) (.steady (if dir = .up then 1000 else 0))

/-- A layer's claim is removed (R11). Base cannot be. -/
def Circuit.drop (c : Circuit) : Layer → Circuit
  | .base => c
  | .local' => { c with local' := none }
  | .show' => { c with show' := none }
  | .safe => { c with safe := none }

/-- A release of a layer with a release fade arrives (R11). -/
def Circuit.release (l : Layer) (fade : Nat) (c : Circuit) : Circuit :=
  if l = .base ∨ (c.form? l).isNone then c
  else if c.deciding = some l then
    let h : Option Handover := if fade = 0 then none else some ⟨c.raw, 10 * fade, 0⟩
    ({ c.drop l with handover := h }).recompute
  else (c.drop l).recompute

/-- Movement is ended on a Local claim that a selection picks by its owner (R28, R66); the owner is kept. -/
def Circuit.endMovement (pick : LocalOwner → Bool) (c : Circuit) : Circuit :=
  match c.local' with
  | none => c
  | some cl => if pick cl.owner && cl.form.isMoving then ({ c with local' := some ⟨cl.form.stop, cl.owner⟩ }).recompute else c

/-- Whether a Local owner names a slot (R42). -/
def LocalOwner.hasSlot (n : Nat) (o : LocalOwner) : Bool :=
  match o with
  | none => false
  | some (m, _) => m == n

/-- Slot `n`'s claim is cleared: its movement is ended and its owner becomes absent (R42). -/
def Circuit.clearSlot (n : Nat) (c : Circuit) : Circuit :=
  let c1 := c.endMovement (LocalOwner.hasSlot n)
  match c1.local' with
  | none => c1
  | some cl => if LocalOwner.hasSlot n cl.owner then { c1 with local' := some ⟨cl.form, none⟩ } else c1

/-- A claim with its form ticked (R16). -/
def Claim.tick {o : Type} (cfg : CircuitConfig) (cl : Claim o) : Claim o := { cl with form := cl.form.tick cfg }

/-- One fade tick on a handover: advanced, and removed when its count reaches its duration (R16 steps 1 and 3). -/
def Handover.tick (h : Handover) : Option Handover :=
  let k := min (h.count + 1) h.duration
  if h.duration ≤ k then none else some { h with count := k }

/-- The fade tick on one circuit (R16, R33). -/
def Circuit.tick (c : Circuit) : Circuit :=
  ({ c with
      base := c.base.map (Claim.tick c.cfg)
      local' := c.local'.map (Claim.tick c.cfg)
      show' := c.show'.map (Claim.tick c.cfg)
      safe := c.safe.map (Claim.tick c.cfg)
      handover := c.handover.bind Handover.tick }).recompute

/-- A Fading claim becomes Steady at its target (R22). -/
def Form.finish : Form → Form
  | .fading _ target _ _ => .steady target
  | f => f

/-- A claim with its form finished (R22). -/
def Claim.finish {o : Type} (cl : Claim o) : Claim o := { cl with form := cl.form.finish }

/-- The claim of a layer is finished (R22), and the levels recomputed. -/
def Circuit.finish (l : Layer) (c : Circuit) : Circuit :=
  match l with
  | .base => ({ c with base := c.base.map Claim.finish }).recompute
  | .local' => ({ c with local' := c.local'.map Claim.finish }).recompute
  | .show' => ({ c with show' := c.show'.map Claim.finish }).recompute
  | .safe => ({ c with safe := c.safe.map Claim.finish }).recompute

/-- The handover is removed, so that the raw level is the deciding claim's value (R32). -/
def Circuit.endHandover (c : Circuit) : Circuit :=
  match c.handover with
  | none => c
  | some _ => ({ c with handover := none }).recompute

/-- A circuit with every layer empty and no handover, as from step 1 of start-up (R4). -/
def Circuit.bare (cfg : CircuitConfig) : Circuit where
  cfg := cfg
  base := none
  local' := none
  show' := none
  safe := none
  handover := none
  raw := 0
  output := 0

/-! ## The Safe layer -/

/-- The safe level for an input (R1). -/
def CircuitConfig.safeLevel (cfg : CircuitConfig) : SafeInput → Option Nat
  | .safe1 => cfg.safe1
  | .safe2 => cfg.safe2

/-- A safety input's clamped safe level where the set holds the input and the circuit has a level for it; 0 otherwise (R15). -/
def CircuitConfig.safeTarget (cfg : CircuitConfig) (inputs : SafeSet) (i : SafeInput) : Nat :=
  if inputs.has i then ((cfg.safeLevel i).map cfg.clamp).getD 0 else 0

/-- The inputs of a set for which the circuit has a safe level: the wanted owner set (R15). -/
def CircuitConfig.wantedSet (cfg : CircuitConfig) (inputs : SafeSet) : SafeSet :=
  ⟨inputs.safe1 && cfg.safe1.isSome, inputs.safe2 && cfg.safe2.isSome⟩

/-- The largest of the clamped safe levels of a set's inputs: the wanted level (R15, R125). -/
def CircuitConfig.wantedLevel (cfg : CircuitConfig) (inputs : SafeSet) : Nat :=
  max (cfg.safeTarget inputs .safe1) (cfg.safeTarget inputs .safe2)

/-- A Safe claim at a level that is already clamped (R14, R15, R124, R125): its target is that level. -/
def Circuit.safeClaim (inputs : SafeSet) (target fade : Nat) (c : Circuit) : Circuit :=
  c.place (.safe inputs) (Form.ofFade (c.startLevel .safe) target fade)

/-- The Safe claims of step 6 of start-up and of a kind change (R14 step 4, R160 step 6). -/
def Circuit.makeSafe (asserted : SafeSet) (c : Circuit) : Circuit :=
  if (c.cfg.wantedSet asserted).isEmpty then c
  else c.safeClaim (c.cfg.wantedSet asserted) (c.cfg.wantedLevel asserted) 0

/-- The Safe layer is brought into agreement with the safety inputs after a configuration write (R15). -/
def Circuit.agreeSafe (asserted : SafeSet) (releaseFade : Nat) (c : Circuit) : Circuit :=
  let want := c.cfg.wantedSet asserted
  let level := c.cfg.wantedLevel asserted
  match c.safe with
  | none => if want.isEmpty then c else c.safeClaim want level 0
  | some cl =>
    if want.isEmpty then c.release .safe releaseFade
    else if cl.owner = want ∧ cl.form.target = some level then c
    else c.safeClaim want level 0

/-- A set with an input added (R124). -/
def SafeSet.insert (m : SafeSet) : SafeInput → SafeSet
  | .safe1 => { m with safe1 := true }
  | .safe2 => { m with safe2 := true }

/-- A set with an input removed (R125). -/
def SafeSet.erase (m : SafeSet) : SafeInput → SafeSet
  | .safe1 => { m with safe1 := false }
  | .safe2 => { m with safe2 := false }

/-- A safety input asserts (R124). -/
def Circuit.assertSafe (i : SafeInput) (c : Circuit) : Circuit :=
  match c.cfg.safeLevel i with
  | none => c
  | some level =>
    match c.safe with
    | none => c.safeClaim ((SafeSet.mk false false).insert i) (c.cfg.clamp level) 0
    | some cl => c.safeClaim (cl.owner.insert i) (max (cl.form.target.getD 0) (c.cfg.clamp level)) 0

/-- A safety input deasserts (R125). -/
def Circuit.deassertSafe (i : SafeInput) (releaseFade : Nat) (c : Circuit) : Circuit :=
  match c.safe with
  | none => c
  | some cl =>
    if cl.owner.has i then
      let rest := cl.owner.erase i
      if rest.isEmpty then c.release .safe releaseFade
      else c.safeClaim rest (c.cfg.wantedLevel rest) releaseFade
    else c

/-- A configuration write that changes the circuit's kind (R14). -/
def Circuit.changeKind (cfg : CircuitConfig) (mode : Mode) (asserted : SafeSet) (c : Circuit) : Circuit :=
  let c1 := { c with cfg := cfg }
  let c2 := ((c1.release .local' 0).release .show' 0).release .safe 0
  let c3 := c2.claim (.base mode) (cfg.base.at mode) 0
  c3.makeSafe asserted

/-- A configuration write to one circuit (R13, R14, R15). -/
def Circuit.write (cfg : CircuitConfig) (mode : Mode) (asserted : SafeSet) (releaseFade : Nat) (c : Circuit) : Circuit :=
  if cfg.kind = c.cfg.kind then ({ c with cfg := cfg }).recompute.agreeSafe asserted releaseFade
  else c.changeKind cfg mode asserted

end Machine

end Sys2Proof
end

