-- ==== Sys2Proof/Machine/Operands.lean ====
section
/-!
DEFINITION. Operand forms: the codes of named values (R162, R164, R165), the range checks of the owning rules, and the checks of a
binding record (R37, R38). A named value is coded by its position, from 0, in the list where its owning rule names it.
-/
namespace Sys2Proof.Machine

/-! ## Codes of named values -/

/-- House mode codes (R162). -/
def modeCode : Mode → Nat
  | .closed => 0
  | .cleaning => 1
  | .work => 2
  | .rehearsal => 3
  | .performance => 4

/-- The mode of a code; none of the five otherwise (R162). -/
def modeOf : Nat → Option Mode
  | 0 => some .closed
  | 1 => some .cleaning
  | 2 => some .work
  | 3 => some .rehearsal
  | 4 => some .performance
  | _ => none

/-- Line codes (R165). -/
def lineCode : Line → Nat
  | .a => 0
  | .b => 1

/-- The line of a code (R165). -/
def lineOf : Nat → Option Line
  | 0 => some .a
  | 1 => some .b
  | _ => none

/-- Event kind codes (R165). -/
def kindCode : EventKind → Nat
  | .press => 0
  | .release => 1
  | .hold => 2
  | .close => 3
  | .open' => 4

/-- The event kind of a code (R165). -/
def kindOf : Nat → Option EventKind
  | 0 => some .press
  | 1 => some .release
  | 2 => some .hold
  | 3 => some .close
  | 4 => some .open'
  | _ => none

/-- Action codes, ON 0 to MODE 7 (R165). -/
def actionCode : Action → Nat
  | .on => 0
  | .off => 1
  | .toggle => 2
  | .raise => 3
  | .lower => 4
  | .recall => 5
  | .release => 6
  | .mode => 7

/-- The action of a code (R165). -/
def actionOf : Nat → Option Action
  | 0 => some .on
  | 1 => some .off
  | 2 => some .toggle
  | 3 => some .raise
  | 4 => some .lower
  | 5 => some .recall
  | 6 => some .release
  | 7 => some .mode
  | _ => none

/-- Layer codes (R165). -/
def layerCode : Layer → Nat
  | .base => 0
  | .local' => 1
  | .show' => 2
  | .safe => 3

/-- Yes and no: yes stands first where the rules name them (R1, R36, R96, R100; DEDUCED, log 17). -/
def yesNoCode (b : Bool) : Nat := if b then 0 else 1

/-- The value of a yes/no code (R165). -/
def yesNoOf : Nat → Option Bool
  | 0 => some true
  | 1 => some false
  | _ => none

/-- Circuit kinds: Dimmed, Switched (R1). -/
def circuitKindCode : CircuitKind → Nat
  | .dimmed => 0
  | .switched => 1

/-- The circuit kind of a code (R1). -/
def circuitKindOf : Nat → Option CircuitKind
  | 0 => some .dimmed
  | 1 => some .switched
  | _ => none

/-- Input kinds: Unused, Momentary, Maintained (R115). -/
def inputKindCode : InputKind → Nat
  | .unused => 0
  | .momentary => 1
  | .maintained => 2

/-- The input kind of a code (R115). -/
def inputKindOf : Nat → Option InputKind
  | 0 => some .unused
  | 1 => some .momentary
  | 2 => some .maintained
  | _ => none

/-- Input states: Unused, Open, Closed, Held, Stuck (R115). -/
def inputStateCode : InputState → Nat
  | .unused => 0
  | .open' => 1
  | .closed => 2
  | .held => 3
  | .stuck => 4

/-- Edges: Rising, Falling (R127). -/
def edgeCode : Edge → Nat
  | .rising => 0
  | .falling => 1

/-- The edge of a code (R127). -/
def edgeOf : Nat → Option Edge
  | 0 => some .rising
  | 1 => some .falling
  | _ => none

/-- Triggers: CUE1, CUE2, GO, LINKED (R128). -/
def triggerCode : Trigger → Nat
  | .cue1 => 0
  | .cue2 => 1
  | .go => 2
  | .linked => 3

/-- The trigger of a code (R128). -/
def triggerOf : Nat → Option Trigger
  | 0 => some .cue1
  | 1 => some .cue2
  | 2 => some .go
  | 3 => some .linked
  | _ => none

/-- Stage states: Empty, Loading, Standby (R128). -/
def stageStateCode : StageState → Nat
  | .empty => 0
  | .loading => 1
  | .standby => 2

/-- Line states: Off, Running, Fault (R98). -/
def lineStateCode : LineState → Nat
  | .off => 0
  | .running => 1
  | .fault => 2

/-- Station states: Absent, Online, Silent (R100). -/
def stationStateCode : StationState → Nat
  | .absent => 0
  | .online => 1
  | .silent => 2

/-- Census states: Idle, Running, Done, Abandoned (R112). -/
def censusStateCode : CensusState → Nat
  | .idle => 0
  | .running => 1
  | .done => 2
  | .abandoned => 3

/-- Start causes: Power-on, Pin, Restart (R154). -/
def startCauseCode : StartCause → Nat
  | .powerOn => 0
  | .pin => 1
  | .restart => 2

/-- Store states: Ready, Saving, Erasing (R156). -/
def storeStateCode : StoreState → Nat
  | .ready => 0
  | .saving => 1
  | .erasing => 2

/-- Result codes, numbered in the order of their table (R164). -/
def ResultCode.code : ResultCode → Nat
  | .ok => 0
  | .starting => 1
  | .checkFail => 2
  | .frameFail => 3
  | .unknownRequest => 4
  | .length => 5
  | .range => 6
  | .mismatch => 7
  | .duplicate => 8
  | .keyFull => 9
  | .tableFull => 10
  | .poolFull => 11
  | .notFound => 12
  | .occupied => 13
  | .storeBusy => 14
  | .stageArmed => 15
  | .stageEmpty => 16
  | .notReady => 17
  | .lineOff => 18
  | .censusBusy => 19
  | .enrolled => 20

/-- A set of modes as a byte, bit i for mode code i (R165). -/
def modeSetCode (m : ModeSet) : Nat :=
  m.closed.toNat + 2 * m.cleaning.toNat + 4 * m.work.toNat + 8 * m.rehearsal.toNat + 16 * m.performance.toNat

/-- The set of modes a byte names; a byte that names a mode outside the five is out of range (R37; DEDUCED, log 19). -/
def modeSetOf (b : Nat) : Option ModeSet :=
  if b < 32 then some ⟨b.testBit 0, b.testBit 1, b.testBit 2, b.testBit 3, b.testBit 4⟩ else none

/-! ## Ranges -/

/-- `lo..hi`, both ends included (0.6). -/
def within (lo hi n : Nat) : Bool := decide (lo ≤ n) && decide (n ≤ hi)

/-- An optional item is absent or within its range (R165). -/
def optWithin (lo hi : Nat) (o : Option Nat) : Bool := o.all (within lo hi)

/-- The window of R3 and R19: first 1..384, count 1..16, first + count - 1 at most 384. -/
def circuitWindow (first count : Nat) : Bool :=
  within 1 Config.circuits first && within 1 16 count && decide (first + count - 1 ≤ Config.circuits)

/-- A source key in range (R37). The address item of a contact key is 0 and ignored (R165; log 19). -/
def keyOf (k : RawKey) : Option SourceKey :=
  match k.origin with
  | 0 => if within 1 Config.maxAddress k.address && within 1 10 k.number then some (.station .a k.address k.number) else none
  | 1 => if within 1 Config.maxAddress k.address && within 1 10 k.number then some (.station .b k.address k.number) else none
  | 2 => if within 1 Config.contacts k.number then some (.contact k.number) else none
  | _ => none

/-- A target in range for its kind (R36, R37). -/
def targetOf (kind no : Nat) : Option Target :=
  match kind with
  | 0 => if within 1 Config.circuits no then some (.circuit no) else none
  | 1 => if within 1 Config.groups no then some (.group no) else none
  | 2 => if within 1 Config.scenes no then some (.scene no) else none
  | 3 => (modeOf no).map .mode
  | _ => none

/-- The record, where every field is in its range (R37). -/
def bindingOf (r : RawBinding) : Option Binding :=
  match keyOf r.key, kindOf r.kind, modeSetOf r.mask, actionOf r.action, targetOf r.targetKind r.targetNo, yesNoOf r.feedback with
  | some key, some kind, some mask, some action, some target, some feedback =>
    if r.mask ≠ 0 ∧ optWithin 0 1000 r.level ∧ optWithin 0 6000 r.fade ∧ optWithin 1 600 r.rate then
      some { key, kind, mask, action, target, level := r.level, fade := r.fade, rate := r.rate, feedback }
    else none
  | _, _, _, _, _, _ => none

/-- Whether a target is of a kind the action allows (R38, first check). -/
def Action.allowsTarget (a : Action) (t : Target) : Bool :=
  match a, t with
  | .recall, .scene _ => true
  | .mode, .mode _ => true
  | .recall, _ => false
  | .mode, _ => false
  | _, .circuit _ => true
  | _, .group _ => true
  | _, _ => false

/-- Whether an event kind suits a source key (R38, second check; R69). -/
def kindSuits (k : SourceKey) (e : EventKind) : Bool :=
  match k, e with
  | .station .., .close => false
  | .station .., .open' => false
  | _, _ => true

/-- Whether an event kind suits an action (R38, third check). -/
def Action.allowsKind (a : Action) (e : EventKind) : Bool :=
  match a, e with
  | .raise, .release => false
  | .raise, .open' => false
  | .lower, .release => false
  | .lower, .open' => false
  | _, _ => true

/-- Whether a level belongs to an action (R38, fourth check). -/
def Action.takesLevel : Action → Bool
  | .on => true
  | .toggle => true
  | _ => false

/-- Whether a fade belongs to an action (R38, fourth check). -/
def Action.takesFade : Action → Bool
  | .raise => false
  | .lower => false
  | _ => true

/-- Whether a rate belongs to an action (R38, fourth check). -/
def Action.takesRate : Action → Bool
  | .raise => true
  | .lower => true
  | _ => false

/-- Whether the fields of a record agree with one another (R38). -/
def Binding.agrees (b : Binding) : Bool :=
  b.action.allowsTarget b.target && kindSuits b.key b.kind && b.action.allowsKind b.kind
    && (b.level.isNone || b.action.takesLevel) && (b.fade.isNone || b.action.takesFade) && (b.rate.isNone || b.action.takesRate)

/-- The record checks of a binding write: RANGE, then MISMATCH (R37, R38). -/
def checkBinding (r : RawBinding) : Except ResultCode Binding :=
  match bindingOf r with
  | none => .error .range
  | some b => if b.agrees then .ok b else .error .mismatch

/-! ## Circuit configuration fields -/

/-- Every base level in range (R1). -/
def baseInRange (b : BaseLevels) : Bool :=
  within 0 1000 b.closed && within 0 1000 b.cleaning && within 0 1000 b.work && within 0 1000 b.rehearsal
    && within 0 1000 b.performance

/-- Every given field within its range in R1 (R2 check 3). The relation of cap and floor is check 4. -/
def circuitFieldsInRange (f : CircuitFields) : Bool :=
  f.kind.all (fun k => (circuitKindOf k).isSome) && optWithin 0 500 f.floor && optWithin 1 1000 f.cap
    && optWithin 1 1000 f.threshold && f.inverted.all (fun k => (yesNoOf k).isSome) && f.base.all baseInRange
    && f.safe1.all (optWithin 1 1000) && f.safe2.all (optWithin 1 1000) && f.localClear.all (fun b => (modeSetOf b).isSome)

/-- The configuration that results: the given fields, and the present values for the rest (R2). -/
def CircuitConfig.withFields (cfg : CircuitConfig) (f : CircuitFields) : CircuitConfig where
  kind := (f.kind.bind circuitKindOf).getD cfg.kind
  floor := f.floor.getD cfg.floor
  cap := f.cap.getD cfg.cap
  threshold := f.threshold.getD cfg.threshold
  inverted := (f.inverted.bind yesNoOf).getD cfg.inverted
  base := f.base.getD cfg.base
  safe1 := f.safe1.getD cfg.safe1
  safe2 := f.safe2.getD cfg.safe2
  localClear := (f.localClear.bind modeSetOf).getD cfg.localClear

/-- The record check of R2, check 4. -/
def CircuitConfig.limitsAgree (cfg : CircuitConfig) : Bool := decide (cfg.floor ≤ cfg.cap) && decide (1 ≤ cfg.cap)

/-! ## Mode options, line and input fields -/

/-- Every given option within its range in R86 (R94 check 2). -/
def optionFieldsInRange (f : OptionFields) : Bool :=
  optWithin 0 6000 f.modeFade && optWithin 0 6000 f.defaultFade && optWithin 1 600 f.defaultRate
    && optWithin 0 600 f.safeReleaseFade && f.startMode.all (fun m => (modeOf m).isSome)

/-- The mode options with the given ones written (R94). -/
def ModeOptions.withFields (o : ModeOptions) (f : OptionFields) : ModeOptions where
  modeFade := f.modeFade.getD o.modeFade
  defaultFade := f.defaultFade.getD o.defaultFade
  defaultRate := f.defaultRate.getD o.defaultRate
  safeReleaseFade := f.safeReleaseFade.getD o.safeReleaseFade
  startMode := (f.startMode.bind modeOf).getD o.startMode

/-- Every given line field within its range (R97 check 3; an enabled code that is neither yes nor no is out of range, log 20). -/
def lineFieldsInRange (f : LineFields) : Bool :=
  f.enabled.all (fun k => (yesNoOf k).isSome) && f.divisor.all (fun d => d == 0 || d == 16 || d == 24 || d == 48)
    && optWithin 1 10 f.window

/-- The line configuration with the given fields written (R97). -/
def LineConfig.withFields (c : LineConfig) (f : LineFields) : LineConfig where
  enabled := (f.enabled.bind yesNoOf).getD c.enabled
  divisor := f.divisor.getD c.divisor
  window := f.window.getD c.window

/-- Whether a line can run (R96). -/
def LineConfig.canRun (c : LineConfig) : Bool := c.enabled && decide (c.divisor ≠ 0)

/-- Whether any of the six fields of a contact input is given (R120 check 3). -/
def anyContactField (f : InputFields) : Bool :=
  f.kind.isSome || f.pullUp.isSome || f.polarity.isSome || f.debounce.isSome || f.holdTime.isSome || f.stuckTime.isSome

/-- Every given field within its range (R115, R120 check 4). -/
def inputFieldsInRange (f : InputFields) : Bool :=
  f.kind.all (fun k => (inputKindOf k).isSome) && optWithin 0 1 f.pullUp && optWithin 0 1 f.polarity && optWithin 2 64 f.debounce
    && f.holdTime.all (fun h => within 300 3000 h && h % 10 == 0) && f.stuckTime.all (fun t => t == 0 || within 5 600 t)
    && f.edge.all (fun e => (edgeOf e).isSome)

/-- The input configuration with the given fields written (R120). Pull-up: on 0, off 1; polarity: closed-low 0, closed-high 1 (R115). -/
def InputConfig.withFields (c : InputConfig) (f : InputFields) : InputConfig where
  kind := (f.kind.bind inputKindOf).getD c.kind
  pullUp := (f.pullUp.map fun v => v == 0).getD c.pullUp
  closedHigh := (f.polarity.map fun v => v == 1).getD c.closedHigh
  debounce := f.debounce.getD c.debounce
  holdTime := f.holdTime.getD c.holdTime
  stuckTime := f.stuckTime.getD c.stuckTime

/-- Whether a pin level is the closed position (R115). -/
def InputConfig.isClosed (c : InputConfig) (level : Bool) : Bool := level == c.closedHigh

/-! ## Circuit lists -/

/-- Whether a pair names a circuit: the numbers stand in either order (R73). -/
def rangeCovers (c : Nat) (r : Nat × Nat) : Bool := decide (min r.1 r.2 ≤ c) && decide (c ≤ max r.1 r.2)

/-- The circuits 1..384 in ascending order. -/
def allCircuits : List Nat := List.range' 1 Config.circuits

/-- The union of the circuits some pairs name, ascending, each once (R73). -/
def unionOf (ranges : List (Nat × Nat)) : List Nat := allCircuits.filter fun c => ranges.any (rangeCovers c)

/-- Every number of every pair a circuit (R73 check 4, R80 check 4). -/
def rangesInRange (ranges : List (Nat × Nat)) : Bool :=
  ranges.all fun r => within 1 Config.circuits r.1 && within 1 Config.circuits r.2

/-- Every circuit and level of some entries in range (R78 check 5, R79 check 4). -/
def entriesInRange (entries : List (Nat × Nat)) : Bool :=
  entries.all fun e => within 1 Config.circuits e.1 && within 0 1000 e.2

/-- The level some entries give a circuit; the entry that stands later gives it (R78). -/
def levelIn (entries : List (Nat × Nat)) (c : Nat) : Option Nat := (entries.reverse.find? fun e => e.1 == c).map (·.2)

/-- Some entries as an ascending list with one entry for each circuit (R78). -/
def sceneList (entries : List (Nat × Nat)) : List (Nat × Nat) :=
  allCircuits.filterMap fun c => (levelIn entries c).map fun l => (c, l)

/-- Some entries merged into a list (R79): taken after the list, so that they replace a circuit's level or are inserted. -/
def mergeEntries (old entries : List (Nat × Nat)) : List (Nat × Nat) := sceneList (old ++ entries)

/-- A window of a list from an index (R75, R82, R138): only the items that exist. -/
def window {o : Type} (first count : Nat) (l : List o) : List o := (l.drop first).take count

end Sys2Proof.Machine
end

