-- ==== Sys2Proof/Machine/Flags.lean ====
section
/-!
DEFINITION. Attention flags and the status byte (R151, R152, R164).
-/
namespace Sys2Proof.Machine

/-- The bit of a flag, in the order of the attention table (R164). -/
def Flag.bit : Flag → Nat
  | .started => 0
  | .storeBlank => 1
  | .storeDone => 2
  | .storeFail => 3
  | .modeChanged => 4
  | .safeChange => 5
  | .cueIgnored => 6
  | .stationSilent => 7
  | .stationBack => 8
  | .eventsLost => 9
  | .lineFault => 10
  | .inputStuck => 11
  | .censusDone => 12

/-- A flag set of one flag. -/
def Flag.only (f : Flag) : BitVec 13 := BitVec.twoPow 13 f.bit

/-- A block raises a flag; a flag already set stays set (R152). -/
def Port.raise (p : Port) (f : Flag) : Port := { p with flags := p.flags ||| f.only }

/-- Whether a flag is set (R152). -/
def Port.isSet (p : Port) (f : Flag) : Bool := p.flags.getLsbD f.bit

/-- Attention pending: at least one flag both set and unmasked (R151, R152). -/
def Port.attention (p : Port) : Bool := decide (p.flags &&& ~~~p.mask ≠ 0)

/-- Port state codes of the status byte (R164). -/
def PortState.code : PortState → Nat
  | .starting => 0
  | .idle => 1
  | .working => 2
  | .done => 3

/-- A safety input is asserted while its accepted level is high (R123). -/
def State.asserted (s : State) : SafeSet := ⟨s.safe1.level, s.safe2.level⟩

/-- Whether the settings store is Saving or Erasing (R151). -/
def State.storeBusy (s : State) : Bool := decide (s.store.state ≠ .ready)

/-- Safe active: either safety input asserted (R123, R151). Inputs are adopted at the end of step 4 of start-up, so none is
asserted before (R122). -/
def State.safeActive (s : State) : Bool := decide (s.phase = .running) && !s.asserted.isEmpty

/-- The status byte (R151, R164). -/
def State.statusByte (s : State) : Byte :=
  BitVec.ofNat 8 (s.port.state.code + 4 * s.port.overrun.toNat + 8 * s.port.attention.toNat + 16 * s.storeBusy.toNat
    + 32 * s.safeActive.toNat)

/-- ATTN driven low: an unmasked flag is set, and the part is neither held in reset nor without supply (R152). -/
def State.attnLow (s : State) : Bool :=
  s.port.attention && decide (s.phase = .settling ∨ s.phase = .running)

/-- Whether the port is there to take a transaction: the part has its supply and is not held in reset (R160). -/
def State.portLives (s : State) : Bool := decide (s.phase = .settling ∨ s.phase = .running)

/-- SDO is driven between the fall and the rise of SEL; it is at high impedance while SEL is high and while the part is held in reset or
without supply (R146, R160). -/
def State.sdoDriven (s : State) : Bool := s.spi.isSome && s.portLives

/-- The level of SDO, or none at high impedance: the last bit shifted out, and before a transaction's first bit the high level that FFh begins
with (R146). -/
def State.sdoPin (s : State) : Option Bool := if s.sdoDriven then some (s.sdo.getLast?.getD true) else none

end Sys2Proof.Machine
end

