-- ==== Sys2Proof/Machine/Wire.lean ====
section
/-!
DEFINITION. Wire formats (chapter 13): the checks, payload items, reply frames, station messages, drive bytes and rack frames.
-/
namespace Sys2Proof.Machine

/-! ## Checks (R167) -/

/-- One shift of a check register, most significant bit first: the polynomial is added when a 1 is shifted out (R167). -/
def crcShift {w : Nat} (poly reg : BitVec w) : BitVec w := if reg.msb then (reg <<< 1) ^^^ poly else reg <<< 1

/-- One message byte into a check register: added into the top eight bits, then eight shifts (R167). -/
def crcByte {w : Nat} (poly reg : BitVec w) (b : Byte) : BitVec w :=
  (List.range 8).foldl (fun r _ => crcShift poly r) (reg ^^^ (b.setWidth w <<< (w - 8)))

/-- A check register after a message (R167). -/
def crc {w : Nat} (poly init : BitVec w) (bytes : List Byte) : BitVec w := bytes.foldl (crcByte poly) init

/-- The check of station messages and management frames (R167). -/
def crc8 (bytes : List Byte) : Byte := crc 0x1D 0xFF bytes

/-- The check of a rack link frame (R167). -/
def crc16 (bytes : List Byte) : BitVec 16 := crc 0x1021 0xFFFF bytes

/-- The check of the settings image (R156, R167). -/
def crc32 (bytes : List Byte) : BitVec 32 := ~~~(crc 0x04C11DB7 0xFFFFFFFF bytes)

/-! ## Payload items (R165) -/

/-- A 1-byte item. -/
def be1 (n : Nat) : List Byte := [BitVec.ofNat 8 n]

/-- A 2-byte item, high byte first. -/
def be2 (n : Nat) : List Byte := [BitVec.ofNat 8 (n / 256), BitVec.ofNat 8 n]

/-- A 3-byte item, high byte first. -/
def be3 (n : Nat) : List Byte := BitVec.ofNat 8 (n / 65536) :: be2 n

/-- A 4-byte item, high byte first. -/
def be4 (n : Nat) : List Byte := BitVec.ofNat 8 (n / 16777216) :: be3 n

/-- An optional 2-byte item: FFFFh when absent. -/
def opt2 (o : Option Nat) : List Byte := be2 (o.getD 0xFFFF)

/-- A source key: 3 bytes. -/
def keyBytes : SourceKey → List Byte
  | .station l a b => be1 (lineCode l) ++ be1 a ++ be1 b
  | .contact n => be1 2 ++ be1 0 ++ be1 n

/-- A target: 3 bytes. -/
def targetBytes : Target → List Byte
  | .circuit n => be1 0 ++ be2 n
  | .group n => be1 1 ++ be2 n
  | .scene n => be1 2 ++ be2 n
  | .mode m => be1 3 ++ be2 (modeCode m)

/-- A binding record: its fields in the order of R36, 16 bytes. -/
def bindingBytes (b : Binding) : List Byte :=
  keyBytes b.key ++ be1 (kindCode b.kind) ++ be1 (modeSetCode b.mask) ++ be1 (actionCode b.action) ++ targetBytes b.target
    ++ opt2 b.level ++ opt2 b.fade ++ opt2 b.rate ++ be1 (yesNoCode b.feedback)

/-- A circuit's configuration, the fields of R1 in their order (R3). -/
def configBytes (c : CircuitConfig) : List Byte :=
  be1 (circuitKindCode c.kind) ++ be2 c.floor ++ be2 c.cap ++ be2 c.threshold ++ be1 (yesNoCode c.inverted)
    ++ be2 c.base.closed ++ be2 c.base.cleaning ++ be2 c.base.work ++ be2 c.base.rehearsal ++ be2 c.base.performance
    ++ opt2 c.safe1 ++ opt2 c.safe2 ++ be1 (modeSetCode c.localClear)

/-- Form, present value, and target or rate of a layer block (R166). -/
def formBytes : Form → List Byte
  | .steady l => be1 1 ++ be2 l ++ be2 l
  | .fading s t d k => be1 2 ++ be2 (fadeValue s t d k) ++ be2 t
  | .moving _ .up r _ v => be1 3 ++ be2 v ++ be2 r
  | .moving _ .down r _ v => be1 4 ++ be2 v ++ be2 r

/-- Some zero bytes (R166). -/
def zeros (n : Nat) : List Byte := List.replicate n 0

/-- The owner of a Local claim (R166). -/
def localOwnerBytes : LocalOwner → List Byte
  | none => be2 0xFFFF ++ be1 0xFF ++ be1 0xFF ++ be1 0xFF
  | some (n, k) => be2 n ++ keyBytes k

/-- The owner of a Show claim (R166). -/
def makerCode : Maker → Nat
  | .stage1 => 1
  | .stage2 => 2
  | .port => 3

/-- A layer block: form, value, target or rate, and owner; an absent layer is ten bytes of 0 (R166). -/
def layerBlock {o : Type} (owner : o → List Byte) : Option (Claim o) → List Byte
  | none => zeros 10
  | some cl => formBytes cl.form ++ owner cl.owner

/-- The deciding layer's code. From the end of start-up a layer always decides (R4). -/
def decidingCode (c : Circuit) : Nat := (c.deciding.map layerCode).getD 0

/-- The remaining ticks of a handover; 0 when there is none (R19, R166). -/
def remainingTicks : Option Handover → Nat
  | none => 0
  | some h => h.duration - h.count

/-- The 47-byte record of READ CIRCUIT STATE (R166). -/
def circuitBytes (c : Circuit) : List Byte :=
  be2 c.output ++ be2 c.raw ++ be1 (decidingCode c)
    ++ layerBlock (fun m => be1 (modeCode m) ++ zeros 4) c.base
    ++ layerBlock localOwnerBytes c.local'
    ++ layerBlock (fun m => be1 (makerCode m) ++ zeros 4) c.show'
    ++ layerBlock (fun (i : SafeSet) => be1 (i.safe1.toNat + 2 * i.safe2.toNat) ++ zeros 4) c.safe
    ++ be2 (remainingTicks c.handover)

/-- A stage entry of READ STAGE: circuit, form, then level and fade, or fade (R138). -/
def stageEntryBytes : Nat × StageForm → List Byte
  | (c, .claim l f) => be2 c ++ be1 0 ++ be2 l ++ be2 f
  | (c, .release f) => be2 c ++ be1 1 ++ be2 f

/-! ## Reply frames (R164) -/

/-- The bytes of a reply frame that its check covers. -/
def Reply.body (r : Reply) : List Byte :=
  r.echo :: BitVec.ofNat 8 r.result.code :: (be2 r.payload.length ++ r.payload)

/-- A reply frame, from the request code echo to its check byte (R164). -/
def Reply.frame (r : Reply) : List Byte := r.body ++ [crc8 r.body]

/-! ## Signals (R140, R162) -/

/-- Some bit times at one level of a line: true is the mark level. -/
def lineAt (level : Bool) (bits : Nat) : List Bool := List.replicate bits level

/-- The data bits of a character, least significant first (R140, R162). -/
def dataBits (b : Byte) : List Bool := (List.range 8).map b.getLsbD

/-- The bits of a byte on SPI, most significant first (R146). -/
def msbFirst (b : Byte) : List Bool := (List.range 8).map fun i => b.getLsbD (7 - i)

/-- The bits of some bytes, one after the other, as SPI carries them (R146). -/
def spiBits (bytes : List Byte) : List Bool := bytes.flatMap msbFirst

/-- The byte of eight bits, most significant first (R146). -/
def byteOf (bits : List Bool) : Byte := BitVec.ofNat 8 (bits.foldl (fun n b => 2 * n + b.toNat) 0)

/-- A character on a station line, 11 bits: a start bit at the space level, the data bits, the mark bit and a stop bit (R162; log 33: the
levels of the start and the stop bit). -/
def TxChar.bits (c : TxChar) : List Bool := lineAt false 1 ++ dataBits c.data ++ [c.mark] ++ lineAt true 1

/-- A character on the rack link, 11 bits: one start bit at the space level, the data bits, no parity bit, and two stop bits at the mark
level (R140). -/
def rackCharBits (b : Byte) : List Bool := lineAt false 1 ++ dataBits b ++ lineAt true 2

/-- RTX while a frame is sent, one item for each bit time of 4 µs: a break of 120 µs, a mark of 12 µs, then the characters with no gap between
them (R140). -/
def rackSignal (chars : List Byte) : List Bool := lineAt false 30 ++ lineAt true 3 ++ chars.flatMap rackCharBits

/-! ## Station messages (R162, R163) -/

/-- An indicator state (R103). -/
inductive Indicator where
  | off | on | blink
  deriving DecidableEq, Repr

/-- The code of an indicator state (R162). -/
def Indicator.code : Indicator → Nat
  | .off => 0
  | .on => 1
  | .blink => 2

/-- Up to four states in one indicator character, the lowest-numbered button in bits 1..0 (R162). -/
def indicatorByte (l : List Indicator) : Byte := BitVec.ofNat 8 (l.foldr (fun i n => i.code + 4 * n) 0)

/-- The indicator characters of some buttons, four to a character (R162). A station has at most ten buttons. -/
def indicatorBytes (l : List Indicator) : List Byte :=
  (List.range ((l.length + 3) / 4)).map fun i => indicatorByte (window (4 * i) 4 l)

/-- The characters of a message: mark bit 1 on the first, 0 on the rest; the check last (R162). -/
def stationMessage (data : List Byte) : List TxChar :=
  (data ++ [crc8 data]).mapIdx fun i b => ⟨i == 0, b⟩

/-- A Normal poll (R102, R162). -/
def pollMessage (address : Nat) (ack : Bool) (indicators : List Indicator) : List TxChar :=
  stationMessage (be1 address ++ be1 (ack.toNat + 2 * ((indicators.length + 3) / 4)) ++ indicatorBytes indicators)

/-- A census poll (R113, R162). -/
def censusMessage (address : Nat) : List TxChar := stationMessage (be1 (64 + address) ++ be1 0)

/-- An announce (R108, R162). -/
def announceMessage (m : Mode) : List TxChar := stationMessage (be1 128 ++ be1 0 ++ be1 (modeCode m))

/-- A reply to a Normal poll (R106, R163): events are (button, kind). -/
structure StationReply where
  bit    : Bool
  lost   : Bool
  events : List (Nat × EventKind)
  deriving DecidableEq, Repr

/-- The kind field of an event character: 01 Press, 10 Release, 11 Hold (R163). -/
def replyKindOf : Nat → Option EventKind
  | 1 => some .press
  | 2 => some .release
  | 3 => some .hold
  | _ => none

/-- An event character: button 1..10 and kind (R163). -/
def replyEvent (b : Byte) : Option (Nat × EventKind) :=
  let button := b.toNat % 16
  match replyKindOf (b.toNat / 16 % 4) with
  | none => none
  | some k => if within 1 10 button then some (button, k) else none

/-- All the events of a reply; none when one of them is not valid (R105). -/
def replyEvents : List Byte → Option (List (Nat × EventKind))
  | [] => some []
  | b :: bs =>
    match replyEvent b, replyEvents bs with
    | some e, some es => some (e :: es)
    | _, _ => none

/-- A character that came in time, with correct framing and mark bit 0 (R105). -/
def goodChar (c : RxChar) : Bool := !c.framing && !c.mark && !c.late

/-- The first `n` characters, where all of them are there and good (R105). -/
def takeGood (n : Nat) (chars : List RxChar) : Option (List Byte) :=
  let l := chars.take n
  if l.length = n ∧ l.all goodChar then some (l.map (·.data)) else none

/-- A message whose last byte is the check over the ones before it (R105). -/
def checked (l : List Byte) : Bool := decide (l.getLast? = some (crc8 l.dropLast))

/-- A reply to a poll of an address: its content, or none for a miss (R105, R163). Only the characters the reply's length calls for
are taken. -/
def judgeReply (address : Nat) (chars : List RxChar) : Option StationReply :=
  match takeGood 2 chars with
  | some [echo, head] =>
    let count := head.toNat / 4 % 8
    match takeGood (3 + count) chars with
    | some l =>
      if count ≤ 4 ∧ echo.toNat = address ∧ checked l then
        (replyEvents (window 2 count l)).map fun es => ⟨head.getLsbD 0, head.getLsbD 1, es⟩
      else none
    | none => none
  | _ => none

/-- A reply to a census poll: the entry it gives, or none when it is not valid (R113, R163). -/
def judgeCensus (address : Nat) (chars : List RxChar) : Option StationIdent :=
  match takeGood 3 chars with
  | some [echo, head, check] =>
    let buttons := head.toNat % 16
    if echo.toNat = address ∧ checked [echo, head, check] ∧ within 1 10 buttons then
      some ⟨address, buttons, head.getLsbD 4⟩
    else none
  | _ => none

/-! ## Rack link (R140, R142) -/

/-- The drive of an output level (R142). -/
def driveOf (kind : CircuitKind) (output : Nat) : Nat :=
  match kind with
  | .dimmed => (output * 255 + 500) / 1000
  | .switched => if output = 1000 then 255 else 0

/-- The drive byte sent for a circuit (R142). -/
def driveByte (c : Circuit) : Byte :=
  let d := driveOf c.cfg.kind c.output
  BitVec.ofNat 8 (if c.cfg.inverted then 255 - d else d)

/-- The characters of a frame: start character, drive bytes, check high byte first (R140). -/
def rackFrame (circuits : List Circuit) : List Byte :=
  let body := (0x5A : Byte) :: circuits.map driveByte
  body ++ be2 (crc16 body).toNat

end Sys2Proof.Machine
end

