-- ==== Sys2Proof/Machine/Image.lean ====
section
/-!
DEFINITION. The settings image as bytes (R156, R160 step 2, R167). The manual names what the image holds and its check, and not the order or
size of its items: the layout here is the model's (log 14). Every item is written so that reading it back needs no other item.
-/
namespace Sys2Proof.Machine

/-! ## Codecs -/

/-- A way to write values as bytes and to read one from the front of some bytes, with the bytes after it. -/
structure Codec (α : Type) where
  write : α → List Byte
  read  : List Byte → Option (α × List Byte)

/-- A number in groups of 7 bits, lowest first; bit 7 is set in every byte but the last. A fuel of the number itself is enough. -/
def writeNat : Nat → Nat → List Byte
  | 0, n => [BitVec.ofNat 8 n]
  | fuel + 1, n =>
    if n < 128 then [BitVec.ofNat 8 n] else BitVec.ofNat 8 (128 + n % 128) :: writeNat fuel (n / 128)

/-- A number from the front of some bytes. -/
def readNat : List Byte → Option (Nat × List Byte)
  | [] => none
  | b :: rest =>
    if b.toNat < 128 then some (b.toNat, rest)
    else
      match readNat rest with
      | none => none
      | some (n, after) => some (b.toNat - 128 + 128 * n, after)

/-- A number. -/
def Codec.nat : Codec Nat := ⟨fun n => writeNat n n, readNat⟩

/-- Values written as those of another codec; `back` refuses one that stands for none. -/
def Codec.via {α β : Type} (c : Codec α) (out : β → α) (back : α → Option β) : Codec β where
  write b := c.write (out b)
  read bytes :=
    match c.read bytes with
    | none => none
    | some (a, rest) => (back a).map fun b => (b, rest)

/-- Two values, one after the other. -/
def Codec.pair {α β : Type} (c : Codec α) (d : Codec β) : Codec (α × β) where
  write p := c.write p.1 ++ d.write p.2
  read bytes :=
    match c.read bytes with
    | none => none
    | some (a, rest) =>
      match d.read rest with
      | none => none
      | some (b, after) => some ((a, b), after)

/-- So many values from the front of some bytes. -/
def Codec.readMany {α : Type} (c : Codec α) : Nat → List Byte → Option (List α × List Byte)
  | 0, bytes => some ([], bytes)
  | n + 1, bytes =>
    match c.read bytes with
    | none => none
    | some (a, rest) =>
      match Codec.readMany c n rest with
      | none => none
      | some (l, after) => some (a :: l, after)

/-- A list: its length, then its values. -/
def Codec.list {α : Type} (c : Codec α) : Codec (List α) where
  write l := Codec.nat.write l.length ++ l.flatMap c.write
  read bytes :=
    match Codec.nat.read bytes with
    | none => none
    | some (n, rest) => c.readMany n rest

/-- A value that may be absent: a list of at most one. -/
def Codec.option {α : Type} (c : Codec α) : Codec (Option α) :=
  c.list.via Option.toList fun l => if l.length ≤ 1 then some l.head? else none

/-- Yes or no. -/
def Codec.yesNo : Codec Bool := Codec.nat.via yesNoCode yesNoOf

/-! ## The items of the image, by their fields in the order in which their rules name them -/

/-- A set of modes. -/
def Codec.modeSet : Codec ModeSet := Codec.nat.via modeSetCode modeSetOf

/-- Base levels (R1). -/
def Codec.baseLevels : Codec BaseLevels :=
  (Codec.nat.pair (Codec.nat.pair (Codec.nat.pair (Codec.nat.pair Codec.nat)))).via
    (fun b => (b.closed, b.cleaning, b.work, b.rehearsal, b.performance))
    fun (a, b, c, d, e) => some ⟨a, b, c, d, e⟩

/-- A circuit's configuration (R1). -/
def Codec.circuit : Codec CircuitConfig :=
  ((Codec.nat.via circuitKindCode circuitKindOf).pair (Codec.nat.pair (Codec.nat.pair (Codec.nat.pair (Codec.yesNo.pair
    (Codec.baseLevels.pair (Codec.nat.option.pair (Codec.nat.option.pair Codec.modeSet)))))))).via
    (fun c => (c.kind, c.floor, c.cap, c.threshold, c.inverted, c.base, c.safe1, c.safe2, c.localClear))
    fun (a, b, c, d, e, f, g, h, i) => some ⟨a, b, c, d, e, f, g, h, i⟩

/-- A source key (R36). -/
def Codec.key : Codec SourceKey :=
  (Codec.nat.pair (Codec.nat.pair Codec.nat)).via
    (fun k => match k with
      | .station l a b => (lineCode l, a, b)
      | .contact n => (2, 0, n))
    fun (o, a, n) => match lineOf o with
      | some l => some (.station l a n)
      | none => if o = 2 then some (.contact n) else none

/-- A target (R36). -/
def Codec.target : Codec Target :=
  (Codec.nat.pair Codec.nat).via
    (fun t => match t with
      | .circuit n => (0, n)
      | .group n => (1, n)
      | .scene n => (2, n)
      | .mode m => (3, modeCode m))
    fun (k, n) => match k with
      | 0 => some (.circuit n)
      | 1 => some (.group n)
      | 2 => some (.scene n)
      | 3 => (modeOf n).map .mode
      | _ => none

/-- A binding record (R36). -/
def Codec.binding : Codec Binding :=
  (Codec.key.pair ((Codec.nat.via kindCode kindOf).pair (Codec.modeSet.pair ((Codec.nat.via actionCode actionOf).pair
    (Codec.target.pair (Codec.nat.option.pair (Codec.nat.option.pair (Codec.nat.option.pair Codec.yesNo)))))))).via
    (fun b => (b.key, b.kind, b.mask, b.action, b.target, b.level, b.fade, b.rate, b.feedback))
    fun (a, b, c, d, e, f, g, h, i) => some ⟨a, b, c, d, e, f, g, h, i⟩

/-- A slot: nothing for a Free one; whether it is Live, and its record, for another (R35, R156). -/
def Codec.slot : Codec Slot :=
  (Codec.yesNo.pair Codec.binding).option.via
    (fun x => match x with
      | .free => none
      | .live b => some (true, b)
      | .disabled b => some (false, b))
    fun o => some (match o with
      | none => .free
      | some (true, b) => .live b
      | some (false, b) => .disabled b)

/-- A scene (R77). -/
def Codec.scene : Codec Scene :=
  (Codec.nat.option.pair (Codec.nat.pair Codec.nat).list).via (fun x => (x.fade, x.entries)) fun (f, e) => some ⟨f, e⟩

/-- The mode options (R86). -/
def Codec.options : Codec ModeOptions :=
  (Codec.nat.pair (Codec.nat.pair (Codec.nat.pair (Codec.nat.pair (Codec.nat.via modeCode modeOf))))).via
    (fun o => (o.modeFade, o.defaultFade, o.defaultRate, o.safeReleaseFade, o.startMode))
    fun (a, b, c, d, e) => some ⟨a, b, c, d, e⟩

/-- A line configuration (R96). -/
def Codec.line : Codec LineConfig :=
  (Codec.yesNo.pair (Codec.nat.pair Codec.nat)).via (fun c => (c.enabled, c.divisor, c.window)) fun (a, b, c) => some ⟨a, b, c⟩

/-- The enrolled fields of a station (R100, R156). -/
def Codec.station : Codec StationIdent :=
  (Codec.nat.pair (Codec.nat.pair Codec.yesNo)).via (fun r => (r.address, r.buttons, r.indicators)) fun (a, b, c) => some ⟨a, b, c⟩

/-- A line: its configuration and its poll list (R156). -/
def Codec.storedLine : Codec StoredLine :=
  (Codec.line.pair Codec.station.list).via (fun c => (c.config, c.stations)) fun (a, b) => some ⟨a, b⟩

/-- A contact input configuration (R115). -/
def Codec.input : Codec InputConfig :=
  ((Codec.nat.via inputKindCode inputKindOf).pair (Codec.yesNo.pair (Codec.yesNo.pair (Codec.nat.pair (Codec.nat.pair Codec.nat))))).via
    (fun c => (c.kind, c.pullUp, c.closedHigh, c.debounce, c.holdTime, c.stuckTime))
    fun (a, b, c, d, e, f) => some ⟨a, b, c, d, e, f⟩

/-- The edge of a cue line (R127). -/
def Codec.edge : Codec Edge := Codec.nat.via edgeCode edgeOf

/-- The attention mask (R152). -/
def Codec.mask : Codec (BitVec 13) := Codec.nat.via BitVec.toNat fun n => some (BitVec.ofNat 13 n)

/-- Every table of the image, in the order of R156. -/
def Codec.tables : Codec Stored :=
  (Codec.circuit.list.pair (Codec.slot.list.pair (Codec.nat.list.option.list.pair (Codec.scene.option.list.pair (Codec.options.pair
    (Codec.storedLine.pair (Codec.storedLine.pair (Codec.input.list.pair (Codec.edge.pair (Codec.edge.pair
      (Codec.nat.pair Codec.mask))))))))))).via
    (fun t => (t.circuits, t.slots, t.groups, t.scenes, t.options, t.lineA, t.lineB, t.inputs, t.edge1, t.edge2, t.period, t.mask))
    fun (a, b, c, d, e, f, g, h, i, j, k, l) => some ⟨a, b, c, d, e, f, g, h, i, j, k, l⟩

/-! ## The image -/

/-- The check that ends an image, over every byte before it, high byte first (R156, R167). -/
def imageCheck (body : List Byte) : List Byte := be4 (crc32 body).toNat

/-- The bytes of an image: every table, then the check (R156). -/
def imageFile (t : Stored) : List Byte := Codec.tables.write t ++ imageCheck (Codec.tables.write t)

/-- The image at the front of some bytes, where its check is correct (R156, R160 step 2): the check is computed over every byte that the tables
take, and held against the four bytes after them. -/
def readImage (bytes : List Byte) : Option Stored :=
  match Codec.tables.read bytes with
  | none => none
  | some (t, rest) => if rest.take 4 = imageCheck (bytes.take (bytes.length - rest.length)) then some t else none

/-- The valid image in the store's memory, or none (R156). -/
def Store.image (st : Store) : Option Stored := readImage st.memory

/-- What is programmed in page `k`, 0..47, of the store's memory; the rest of the page is erased (R156; log 14). -/
def Store.page (st : Store) (k : Nat) : List Byte := (st.memory.drop (k * Config.pageBytes)).take Config.pageBytes

end Sys2Proof.Machine
end

