-- ==== Sys2Proof/Machine/Requests.lean ====
section
/-!
DEFINITION. The request catalogue (11.6) and the request payloads (R165): the code of each request, the payload that carries its
items, and the reading of a payload, with the LENGTH and UNKNOWN_REQUEST checks of R149.
-/
namespace Sys2Proof.Machine

/-- The code of a request row in the request catalogue (11.6); none for an event row. -/
def requestCode : Instr → Option Nat
  | .readIdentity => some 0x01
  | .readAttention => some 0x02
  | .clearAttention _ => some 0x03
  | .setAttentionMask _ => some 0x04
  | .restart => some 0x05
  | .setCircuitConfig _ _ _ => some 0x10
  | .readCircuitConfig _ _ => some 0x11
  | .claimLevel _ _ _ _ => some 0x12
  | .releaseLayer _ _ _ => some 0x13
  | .readCircuitState _ _ => some 0x14
  | .addBinding _ => some 0x20
  | .replaceBinding _ _ => some 0x21
  | .retireBinding _ => some 0x22
  | .retireSource _ => some 0x23
  | .disable _ => some 0x24
  | .enable _ => some 0x25
  | .readBinding _ => some 0x26
  | .findBindings _ _ => some 0x27
  | .injectEvent _ _ => some 0x28
  | .writeGroup _ _ => some 0x30
  | .deleteGroup _ => some 0x31
  | .readGroup _ _ _ => some 0x32
  | .writeScene _ _ _ => some 0x33
  | .extendScene _ _ => some 0x34
  | .captureScene _ _ _ => some 0x35
  | .deleteScene _ => some 0x36
  | .readScene _ _ _ => some 0x37
  | .setMode _ _ => some 0x40
  | .readMode => some 0x41
  | .setModeOptions _ => some 0x42
  | .setLineConfig _ _ => some 0x50
  | .enrolStation _ _ _ _ => some 0x51
  | .unenrolStation _ _ => some 0x52
  | .readStation _ _ => some 0x53
  | .readLine _ => some 0x54
  | .censusStart _ => some 0x55
  | .censusRead _ => some 0x56
  | .setInputConfig _ _ => some 0x60
  | .readInput _ => some 0x61
  | .stageEntry _ _ _ => some 0x70
  | .stageClear _ => some 0x71
  | .setStageTrigger _ _ => some 0x72
  | .standby _ => some 0x73
  | .unstandby _ => some 0x74
  | .go _ => some 0x75
  | .readStage _ _ _ => some 0x76
  | .setLinkConfig _ => some 0x80
  | .readRackLink => some 0x81
  | .save => some 0x90
  | .eraseStore => some 0x91
  | .readStoreState => some 0x92
  | .powerOn => none
  | .resetPinLow => none
  | .resetPinRelease => none
  | .inputSettlingEnd => none
  | .requestTransaction _ => none
  | .fetch _ => none
  | .saveOperationEnd _ => none
  | .eraseOperationEnd => none
  | .fadeTick => none
  | .fadeComplete _ _ => none
  | .handoverEnd _ => none
  | .nextExchange _ => none
  | .exchangeSent _ => none
  | .collision _ => none
  | .reply _ _ => none
  | .replyWindowEnd _ => none
  | .lineBreak _ => none
  | .faultRecovery _ => none
  | .acceptedClose _ => none
  | .holdTimeReached _ => none
  | .stuckTimeReached _ => none
  | .acceptedOpen _ => none
  | .maintainedChange _ _ => none
  | .safeAssert _ => none
  | .safeDeassert _ => none
  | .cueEvent _ => none
  | .frameStart => none
  | .frameEnd => none
  | .contactSample _ _ => none
  | .supplyLost => none
  | .roundWaitEnd _ => none

/-! ## Payloads (R165) -/

/-- A raw source key: 3 bytes. -/
def rawKeyBytes (k : RawKey) : List Byte := be1 k.origin ++ be1 k.address ++ be1 k.number

/-- A raw binding record: 16 bytes. -/
def rawBindingBytes (r : RawBinding) : List Byte :=
  rawKeyBytes r.key ++ be1 r.kind ++ be1 r.mask ++ be1 r.action ++ be1 r.targetKind ++ be2 r.targetNo ++ opt2 r.level
    ++ opt2 r.fade ++ opt2 r.rate ++ be1 r.feedback

/-- Pairs or entries: 4 bytes each. -/
def pairBytes (l : List (Nat × Nat)) : List Byte := l.flatMap fun e => be2 e.1 ++ be2 e.2

/-- A given 1-byte field. -/
def field1 (o : Option Nat) : List Byte := (o.map be1).getD []

/-- A given 2-byte field. -/
def field2 (o : Option Nat) : List Byte := (o.map be2).getD []

/-- A given optional 2-byte field (a safe level). -/
def fieldOpt2 (o : Option (Option Nat)) : List Byte := (o.map opt2).getD []

/-- Bit `i` of a presence set (R165). -/
def present {o : Type} (i : Nat) (f : Option o) : Nat := if f.isSome then 2 ^ i else 0

/-- Base levels: 2 bytes each, in the order of R1. -/
def baseBytes (b : BaseLevels) : List Byte :=
  be2 b.closed ++ be2 b.cleaning ++ be2 b.work ++ be2 b.rehearsal ++ be2 b.performance

/-- The presence set and given fields of SET CIRCUIT CONFIG. -/
def circuitFieldBytes (f : CircuitFields) : List Byte :=
  be2 (present 0 f.kind + present 1 f.floor + present 2 f.cap + present 3 f.threshold + present 4 f.inverted + present 5 f.base
      + present 6 f.safe1 + present 7 f.safe2 + present 8 f.localClear)
    ++ (field1 f.kind ++ (field2 f.floor ++ (field2 f.cap ++ (field2 f.threshold ++ (field1 f.inverted
    ++ ((f.base.map baseBytes).getD [] ++ (fieldOpt2 f.safe1 ++ (fieldOpt2 f.safe2 ++ field1 f.localClear))))))))

/-- The presence set and given fields of SET MODE OPTIONS. -/
def optionFieldBytes (f : OptionFields) : List Byte :=
  be1 (present 0 f.modeFade + present 1 f.defaultFade + present 2 f.defaultRate + present 3 f.safeReleaseFade + present 4 f.startMode)
    ++ (field2 f.modeFade ++ (field2 f.defaultFade ++ (field2 f.defaultRate ++ (field2 f.safeReleaseFade ++ field1 f.startMode))))

/-- The presence set and given fields of SET LINE CONFIG. -/
def lineFieldBytes (f : LineFields) : List Byte :=
  be1 (present 0 f.enabled + present 1 f.divisor + present 2 f.window) ++ (field1 f.enabled ++ (field1 f.divisor ++ field1 f.window))

/-- The presence set and given fields of SET INPUT CONFIG. -/
def inputFieldBytes (f : InputFields) : List Byte :=
  be1 (present 0 f.kind + present 1 f.pullUp + present 2 f.polarity + present 3 f.debounce + present 4 f.holdTime
      + present 5 f.stuckTime + present 6 f.edge)
    ++ (field1 f.kind ++ (field1 f.pullUp ++ (field1 f.polarity ++ (field1 f.debounce ++ (field2 f.holdTime
    ++ (field2 f.stuckTime ++ field1 f.edge))))))

/-- The form of a stage entry and its values (R128, R129). -/
def stageFormBytes : StageForm → List Byte
  | .claim l f => be1 0 ++ be2 l ++ be2 f
  | .release f => be1 1 ++ be2 f

/-- The payload that carries a request's items, in the order its rule names them (R165); empty for an event row. -/
def payloadOf : Instr → List Byte
  | .clearAttention f => be2 f
  | .setAttentionMask m => be2 m
  | .setCircuitConfig a b f => be2 a ++ (be2 b ++ circuitFieldBytes f)
  | .readCircuitConfig a n => be2 a ++ be1 n
  | .claimLevel c l v f => be2 c ++ be1 l ++ be2 v ++ be2 f
  | .releaseLayer c l f => be2 c ++ be1 l ++ be2 f
  | .readCircuitState a n => be2 a ++ be1 n
  | .addBinding r => rawBindingBytes r
  | .replaceBinding n r => be2 n ++ rawBindingBytes r
  | .retireBinding n => be2 n
  | .retireSource k => rawKeyBytes k
  | .disable n => be2 n
  | .enable n => be2 n
  | .readBinding n => be2 n
  | .findBindings k e => rawKeyBytes k ++ be1 e
  | .injectEvent k e => rawKeyBytes k ++ be1 e
  | .writeGroup g l => be1 g ++ pairBytes l
  | .deleteGroup g => be1 g
  | .readGroup g a n => be1 g ++ be2 a ++ be1 n
  | .writeScene s f l => be1 s ++ (opt2 f ++ pairBytes l)
  | .extendScene s l => be1 s ++ pairBytes l
  | .captureScene s f l => be1 s ++ (opt2 f ++ pairBytes l)
  | .deleteScene s => be1 s
  | .readScene s a n => be1 s ++ be2 a ++ be1 n
  | .setMode m f => be1 m ++ opt2 f
  | .setModeOptions f => optionFieldBytes f
  | .setLineConfig l f => be1 l ++ lineFieldBytes f
  | .enrolStation l a n i => be1 l ++ be1 a ++ be1 n ++ be1 i
  | .unenrolStation l a => be1 l ++ be1 a
  | .readStation l a => be1 l ++ be1 a
  | .readLine l => be1 l
  | .censusStart l => be1 l
  | .censusRead l => be1 l
  | .setInputConfig i f => be1 i ++ inputFieldBytes f
  | .readInput i => be1 i
  | .stageEntry s c e => be1 s ++ (be2 c ++ stageFormBytes e)
  | .stageClear s => be1 s
  | .setStageTrigger s t => be1 s ++ be1 t
  | .standby s => be1 s
  | .unstandby s => be1 s
  | .go s => be1 s
  | .readStage s a n => be1 s ++ be2 a ++ be1 n
  | .setLinkConfig p => be1 p
  | .readIdentity => []
  | .readAttention => []
  | .restart => []
  | .readMode => []
  | .readRackLink => []
  | .save => []
  | .eraseStore => []
  | .readStoreState => []
  | .powerOn => []
  | .resetPinLow => []
  | .resetPinRelease => []
  | .inputSettlingEnd => []
  | .requestTransaction _ => []
  | .fetch _ => []
  | .saveOperationEnd _ => []
  | .eraseOperationEnd => []
  | .fadeTick => []
  | .fadeComplete _ _ => []
  | .handoverEnd _ => []
  | .nextExchange _ => []
  | .exchangeSent _ => []
  | .collision _ => []
  | .reply _ _ => []
  | .replyWindowEnd _ => []
  | .lineBreak _ => []
  | .faultRecovery _ => []
  | .acceptedClose _ => []
  | .holdTimeReached _ => []
  | .stuckTimeReached _ => []
  | .acceptedOpen _ => []
  | .maintainedChange _ _ => []
  | .safeAssert _ => []
  | .safeDeassert _ => []
  | .cueEvent _ => []
  | .frameStart => []
  | .frameEnd => []
  | .contactSample _ _ => []
  | .supplyLost => []
  | .roundWaitEnd _ => []

/-- A request frame as a transaction carries it: selector, code, length, payload and check (R164). -/
def requestFrame (code : Nat) (payload : List Byte) : List Byte :=
  let body := BitVec.ofNat 8 code :: BitVec.ofNat 8 payload.length :: payload
  (0xC3 : Byte) :: (body ++ [crc8 body])

/-! ## Reading a payload -/

/-- What the port's two checks make of an accepted request (R149). -/
inductive Parsed where
  | request (i : Instr)
  | unknown
  | badLength
  deriving DecidableEq, Repr

/-- A 2-byte item, high byte first. -/
def word (hi lo : Byte) : Nat := hi.toNat * 256 + lo.toNat

/-- An optional 2-byte item (R165). -/
def optWord (hi lo : Byte) : Option Nat := if word hi lo = 0xFFFF then none else some (word hi lo)

/-- Pairs or entries to the payload's end; none when it is no whole multiple of 4 (R165). -/
def readPairs : List Byte → Option (List (Nat × Nat))
  | [] => some []
  | a :: b :: c :: d :: t => (readPairs t).map fun l => (word a b, word c d) :: l
  | _ => none

/-- A 1-byte field where its presence bit is set. -/
def read1 (given : Bool) (p : List Byte) : Option (Option Nat × List Byte) :=
  if given then
    match p with
    | a :: t => some (some a.toNat, t)
    | _ => none
  else some (none, p)

/-- A 2-byte field where its presence bit is set. -/
def read2 (given : Bool) (p : List Byte) : Option (Option Nat × List Byte) :=
  if given then
    match p with
    | a :: b :: t => some (some (word a b), t)
    | _ => none
  else some (none, p)

/-- An optional 2-byte field where its presence bit is set. -/
def readOpt2 (given : Bool) (p : List Byte) : Option (Option (Option Nat) × List Byte) :=
  if given then
    match p with
    | a :: b :: t => some (some (optWord a b), t)
    | _ => none
  else some (none, p)

/-- The base levels where their presence bit is set. -/
def readBase (given : Bool) (p : List Byte) : Option (Option BaseLevels × List Byte) :=
  if given then
    match p with
    | a :: b :: c :: d :: e :: f :: g :: h :: i :: j :: t =>
      some (some ⟨word a b, word c d, word e f, word g h, word i j⟩, t)
    | _ => none
  else some (none, p)

/-- The fields of SET CIRCUIT CONFIG after a presence set (R165). Bits that mark no field are ignored (log 19). -/
def readCircuitFields (set : Nat) (p : List Byte) : Option CircuitFields := do
  let (kind, p) ← read1 (set.testBit 0) p
  let (floor, p) ← read2 (set.testBit 1) p
  let (cap, p) ← read2 (set.testBit 2) p
  let (threshold, p) ← read2 (set.testBit 3) p
  let (inverted, p) ← read1 (set.testBit 4) p
  let (base, p) ← readBase (set.testBit 5) p
  let (safe1, p) ← readOpt2 (set.testBit 6) p
  let (safe2, p) ← readOpt2 (set.testBit 7) p
  let (localClear, p) ← read1 (set.testBit 8) p
  if p = [] then some { kind, floor, cap, threshold, inverted, base, safe1, safe2, localClear } else none

/-- The fields of SET MODE OPTIONS after a presence set (R165). -/
def readOptionFields (set : Nat) (p : List Byte) : Option OptionFields := do
  let (modeFade, p) ← read2 (set.testBit 0) p
  let (defaultFade, p) ← read2 (set.testBit 1) p
  let (defaultRate, p) ← read2 (set.testBit 2) p
  let (safeReleaseFade, p) ← read2 (set.testBit 3) p
  let (startMode, p) ← read1 (set.testBit 4) p
  if p = [] then some { modeFade, defaultFade, defaultRate, safeReleaseFade, startMode } else none

/-- The fields of SET LINE CONFIG after a presence set (R165). -/
def readLineFields (set : Nat) (p : List Byte) : Option LineFields := do
  let (enabled, p) ← read1 (set.testBit 0) p
  let (divisor, p) ← read1 (set.testBit 1) p
  let (window, p) ← read1 (set.testBit 2) p
  if p = [] then some { enabled, divisor, window } else none

/-- The fields of SET INPUT CONFIG after a presence set (R165). -/
def readInputFields (set : Nat) (p : List Byte) : Option InputFields := do
  let (kind, p) ← read1 (set.testBit 0) p
  let (pullUp, p) ← read1 (set.testBit 1) p
  let (polarity, p) ← read1 (set.testBit 2) p
  let (debounce, p) ← read1 (set.testBit 3) p
  let (holdTime, p) ← read2 (set.testBit 4) p
  let (stuckTime, p) ← read2 (set.testBit 5) p
  let (edge, p) ← read1 (set.testBit 6) p
  if p = [] then some { kind, pullUp, polarity, debounce, holdTime, stuckTime, edge } else none

/-- A source key. -/
def readKey (a b c : Byte) : RawKey := ⟨a.toNat, b.toNat, c.toNat⟩

/-- A binding record: 16 bytes in the order of R36. -/
def readRecord : List Byte → Option RawBinding
  | [a, b, c, kind, mask, action, tk, t1, t0, l1, l0, f1, f0, r1, r0, feedback] =>
    some ⟨readKey a b c, kind.toNat, mask.toNat, action.toNat, tk.toNat, word t1 t0, optWord l1 l0, optWord f1 f0, optWord r1 r0,
      feedback.toNat⟩
  | _ => none

/-- A payload of no items. -/
def fits0 (i : Instr) (p : List Byte) : Parsed :=
  match p with
  | [] => .request i
  | _ => .badLength

/-- A payload of one 1-byte item. -/
def fits1 (f : Nat → Instr) (p : List Byte) : Parsed :=
  match p with
  | [a] => .request (f a.toNat)
  | _ => .badLength

/-- A payload of one 2-byte item, or of two 1-byte items read as such by the caller. -/
def fits2 (f : Byte → Byte → Instr) (p : List Byte) : Parsed :=
  match p with
  | [a, b] => .request (f a b)
  | _ => .badLength

/-- A payload of three bytes. -/
def fits3 (f : Byte → Byte → Byte → Instr) (p : List Byte) : Parsed :=
  match p with
  | [a, b, c] => .request (f a b c)
  | _ => .badLength

/-- A payload of four bytes. -/
def fits4 (f : Byte → Byte → Byte → Byte → Instr) (p : List Byte) : Parsed :=
  match p with
  | [a, b, c, d] => .request (f a b c d)
  | _ => .badLength

/-- A payload that was read, or does not fit. -/
def fitsRead (o : Option Instr) : Parsed :=
  match o with
  | some i => .request i
  | none => .badLength

/-- The request a code and a payload name: UNKNOWN_REQUEST for a code of no request, LENGTH for a payload that does not fit (R149,
R165). A stage entry whose form byte is neither Claim nor Release fits neither length (log 20). -/
def parseRequest (code : Nat) (p : List Byte) : Parsed :=
  match code with
  | 0x01 => fits0 .readIdentity p
  | 0x02 => fits0 .readAttention p
  | 0x03 => fits2 (fun a b => .clearAttention (word a b)) p
  | 0x04 => fits2 (fun a b => .setAttentionMask (word a b)) p
  | 0x05 => fits0 .restart p
  | 0x10 =>
    match p with
    | a :: b :: c :: d :: e :: f :: t => fitsRead ((readCircuitFields (word e f) t).map (.setCircuitConfig (word a b) (word c d)))
    | _ => .badLength
  | 0x11 => fits3 (fun a b n => .readCircuitConfig (word a b) n.toNat) p
  | 0x12 =>
    match p with
    | [a, b, l, v1, v0, f1, f0] => .request (.claimLevel (word a b) l.toNat (word v1 v0) (word f1 f0))
    | _ => .badLength
  | 0x13 =>
    match p with
    | [a, b, l, f1, f0] => .request (.releaseLayer (word a b) l.toNat (word f1 f0))
    | _ => .badLength
  | 0x14 => fits3 (fun a b n => .readCircuitState (word a b) n.toNat) p
  | 0x20 => fitsRead ((readRecord p).map .addBinding)
  | 0x21 =>
    match p with
    | a :: b :: t => fitsRead ((readRecord t).map (.replaceBinding (word a b)))
    | _ => .badLength
  | 0x22 => fits2 (fun a b => .retireBinding (word a b)) p
  | 0x23 => fits3 (fun a b c => .retireSource (readKey a b c)) p
  | 0x24 => fits2 (fun a b => .disable (word a b)) p
  | 0x25 => fits2 (fun a b => .enable (word a b)) p
  | 0x26 => fits2 (fun a b => .readBinding (word a b)) p
  | 0x27 => fits4 (fun a b c e => .findBindings (readKey a b c) e.toNat) p
  | 0x28 => fits4 (fun a b c e => .injectEvent (readKey a b c) e.toNat) p
  | 0x30 =>
    match p with
    | g :: t => fitsRead ((readPairs t).map (.writeGroup g.toNat))
    | _ => .badLength
  | 0x31 => fits1 .deleteGroup p
  | 0x32 => fits4 (fun g a b n => .readGroup g.toNat (word a b) n.toNat) p
  | 0x33 =>
    match p with
    | s :: f1 :: f0 :: t => fitsRead ((readPairs t).map (.writeScene s.toNat (optWord f1 f0)))
    | _ => .badLength
  | 0x34 =>
    match p with
    | s :: t => fitsRead ((readPairs t).map (.extendScene s.toNat))
    | _ => .badLength
  | 0x35 =>
    match p with
    | s :: f1 :: f0 :: t => fitsRead ((readPairs t).map (.captureScene s.toNat (optWord f1 f0)))
    | _ => .badLength
  | 0x36 => fits1 .deleteScene p
  | 0x37 => fits4 (fun s a b n => .readScene s.toNat (word a b) n.toNat) p
  | 0x40 => fits3 (fun m f1 f0 => .setMode m.toNat (optWord f1 f0)) p
  | 0x41 => fits0 .readMode p
  | 0x42 =>
    match p with
    | set :: t => fitsRead ((readOptionFields set.toNat t).map .setModeOptions)
    | _ => .badLength
  | 0x50 =>
    match p with
    | l :: set :: t => fitsRead ((readLineFields set.toNat t).map (.setLineConfig l.toNat))
    | _ => .badLength
  | 0x51 => fits4 (fun l a n i => .enrolStation l.toNat a.toNat n.toNat i.toNat) p
  | 0x52 => fits2 (fun l a => .unenrolStation l.toNat a.toNat) p
  | 0x53 => fits2 (fun l a => .readStation l.toNat a.toNat) p
  | 0x54 => fits1 .readLine p
  | 0x55 => fits1 .censusStart p
  | 0x56 => fits1 .censusRead p
  | 0x60 =>
    match p with
    | i :: set :: t => fitsRead ((readInputFields set.toNat t).map (.setInputConfig i.toNat))
    | _ => .badLength
  | 0x61 => fits1 .readInput p
  | 0x70 =>
    match p with
    | [s, a, b, form, l1, l0, f1, f0] =>
      if form = 0 then .request (.stageEntry s.toNat (word a b) (.claim (word l1 l0) (word f1 f0))) else .badLength
    | [s, a, b, form, f1, f0] => if form = 1 then .request (.stageEntry s.toNat (word a b) (.release (word f1 f0))) else .badLength
    | _ => .badLength
  | 0x71 => fits1 .stageClear p
  | 0x72 => fits2 (fun s t => .setStageTrigger s.toNat t.toNat) p
  | 0x73 => fits1 .standby p
  | 0x74 => fits1 .unstandby p
  | 0x75 => fits1 .go p
  | 0x76 => fits4 (fun s a b n => .readStage s.toNat (word a b) n.toNat) p
  | 0x80 => fits1 .setLinkConfig p
  | 0x81 => fits0 .readRackLink p
  | 0x90 => fits0 .save p
  | 0x91 => fits0 .eraseStore p
  | 0x92 => fits0 .readStoreState p
  | _ => .unknown

/-! ## Judging a request frame (R147) -/

/-- The outcome of a request frame at the rise of SEL (R147); a frame of length over 250 is treated as a short frame. The code is
the echo of the reply R148 places: 00h where the transaction ended before the code. -/
inductive Judged where
  | short (code : Byte)
  | wrongCheck (code : Byte)
  | complete (code : Byte) (payload : List Byte)
  deriving DecidableEq, Repr

/-- The bytes after the selector are judged (R147). Bytes after the check byte are ignored (R146). -/
def judgeFrame : List Byte → Judged
  | [] => .short 0
  | [code] => .short code
  | code :: len :: rest =>
    if 250 < len.toNat ∨ rest.length ≤ len.toNat then .short code
    else if rest[len.toNat]? = some (crc8 (code :: len :: rest.take len.toNat)) then .complete code (rest.take len.toNat)
    else .wrongCheck code

end Sys2Proof.Machine
end

