-- ==== Sys2Proof/Machine/Tables.lean ====
section
/-!
DEFINITION. The tables as lists: the binding slots and the key index (chapter 3), the pools (R71), stage lists (R128) and poll lists
(R100).
-/
namespace Sys2Proof.Machine

/-! ## Slots -/

/-- The record of a Live or Disabled slot (R35). -/
def Slot.record : Slot → Option Binding
  | .free => none
  | .live b => some b
  | .disabled b => some b

/-- The record of a Live slot (R35). -/
def Slot.liveRecord : Slot → Option Binding
  | .live b => some b
  | _ => none

/-- Slot state codes: Free, Live, Disabled (R35). -/
def Slot.code : Slot → Nat
  | .free => 0
  | .live _ => 1
  | .disabled _ => 2

/-- A slot's record rewritten, its state kept (R44). -/
def Slot.rewrite (b : Binding) : Slot → Slot
  | .free => .free
  | .live _ => .live b
  | .disabled _ => .disabled b

/-- Slot `n`; a number outside 0..1023 names no record. -/
def slotAt (slots : List Slot) (n : Nat) : Slot := slots.getD n .free

/-- The lowest-numbered Free slot (R43). -/
def lowestFree (slots : List Slot) : Option Nat := slots.findIdx? fun s => s.record.isNone

/-- Agreement in source key, event kind, action and target (R40). -/
def Binding.same (a b : Binding) : Bool :=
  decide (a.key = b.key) && decide (a.kind = b.kind) && decide (a.action = b.action) && decide (a.target = b.target)

/-- Whether slot `n` holds a record that agrees with one (R40). -/
def Slot.holdsSame (b : Binding) (s : Slot) : Bool := s.record.any b.same

/-- Whether a slot other than `except` holds an agreeing record (R43 check 5, R44 check 6). -/
def duplicateOf (slots : List Slot) (b : Binding) (except : Option Nat) : Bool :=
  (List.range slots.length).any fun n => decide (some n ≠ except) && (slotAt slots n).holdsSame b

/-! ## The key index (R41) -/

/-- The place of a pair among the lists of the index: the lists are kept in this order, so that equal maps are equal data. -/
def pairRank : SourceKey → EventKind → Nat
  | .station .a a b, e => ((a * 16 + b) * 8 + kindCode e) * 4
  | .station .b a b, e => ((a * 16 + b) * 8 + kindCode e) * 4 + 1
  | .contact n, e => (n * 8 + kindCode e) * 4 + 2

/-- A number inserted in its ascending place; one that is there already is not repeated. -/
def insertAscending (n : Nat) : List Nat → List Nat
  | [] => [n]
  | m :: l => if n < m then n :: m :: l else if n = m then m :: l else m :: insertAscending n l

/-- The list of a pair; a pair with no list has none of its slots (R41). -/
def indexList (index : List IndexEntry) (k : SourceKey) (e : EventKind) : List Nat :=
  ((index.find? fun x => decide (x.key = k) && decide (x.kind = e)).map (·.slots)).getD []

/-- Slot `n` is inserted in the list of a pair; the list is created if it did not exist (R41). -/
def indexInsert (k : SourceKey) (e : EventKind) (n : Nat) : List IndexEntry → List IndexEntry
  | [] => [⟨k, e, [n]⟩]
  | x :: l =>
    if x.key = k ∧ x.kind = e then ⟨k, e, insertAscending n x.slots⟩ :: l
    else if pairRank k e < pairRank x.key x.kind then ⟨k, e, [n]⟩ :: x :: l
    else x :: indexInsert k e n l

/-- Slot `n` is removed from the list of a pair; a list left with no entries is removed (R41). -/
def indexRemove (k : SourceKey) (e : EventKind) (n : Nat) (index : List IndexEntry) : List IndexEntry :=
  index.filterMap fun x =>
    if x.key = k ∧ x.kind = e then
      (if x.slots.filter (· ≠ n) = [] then none else some { x with slots := x.slots.filter (· ≠ n) })
    else some x

/-- The index built from the slots, at start-up (R41). -/
def buildFrom (n : Nat) : List Slot → List IndexEntry → List IndexEntry
  | [], index => index
  | s :: l, index =>
    match s.record with
    | none => buildFrom (n + 1) l index
    | some b => buildFrom (n + 1) l (indexInsert b.key b.kind n index)

/-- The index of a slot table (R41, R160 step 2). -/
def buildIndex (slots : List Slot) : List IndexEntry := buildFrom 0 slots []

/-- The slots of every list of a source key, ascending (R46). -/
def slotsOfKey (index : List IndexEntry) (k : SourceKey) : List Nat :=
  ((index.filter fun x => decide (x.key = k)).flatMap (·.slots)).foldl (fun l n => insertAscending n l) []

/-- The slots with a record of a pair, read from the slot table itself: what R41 says the pair's list holds. -/
def slotsHolding (slots : List Slot) (k : SourceKey) (e : EventKind) : List Nat :=
  (List.range slots.length).filter fun n => (slotAt slots n).record.any fun b => decide (b.key = k) && decide (b.kind = e)

/-! ## Pools (R71) -/

/-- Entries of the member pool in use. -/
def membersUsed (groups : List (Option (List Nat))) : Nat := (groups.map fun g => (g.getD []).length).sum

/-- Entries of the entry pool in use. -/
def entriesUsed (scenes : List (Option Scene)) : Nat := (scenes.map fun s => ((s.map (·.entries)).getD []).length).sum

/-- Group `g`'s member list; none when Undefined (R72). -/
def groupAt (groups : List (Option (List Nat))) (g : Nat) : Option (List Nat) := if g = 0 then none else (groups[g - 1]?).join

/-- Scene `s`; none when Undefined (R77). -/
def sceneAt (scenes : List (Option Scene)) (s : Nat) : Option Scene := if s = 0 then none else (scenes[s - 1]?).join

/-! ## Stage lists (R128, R129) -/

/-- An entry inserted in its ascending place, or replacing the circuit's entry (R129). -/
def putEntry (c : Nat) (e : StageForm) : List (Nat × StageForm) → List (Nat × StageForm)
  | [] => [(c, e)]
  | x :: l => if c < x.1 then (c, e) :: x :: l else if c = x.1 then (c, e) :: l else x :: putEntry c e l

/-! ## Poll lists (R100) -/

/-- A station record at enrolment and after start-up (R100). -/
def Station.fresh (i : StationIdent) : Station := ⟨i, .absent, 0, none, 0⟩

/-- A record inserted in its ascending place (R109). -/
def insertStation (r : Station) : List Station → List Station
  | [] => [r]
  | x :: l => if r.ident.address < x.ident.address then r :: x :: l else x :: insertStation r l

/-- The record of an address (R100). -/
def stationAt (l : List Station) (address : Nat) : Option Station := l.find? fun r => r.ident.address == address

/-- A change to the record of an address. -/
def mapStation (address : Nat) (f : Station → Station) (l : List Station) : List Station :=
  l.map fun r => if r.ident.address = address then f r else r

/-- A saturating count (0.6). -/
def bump (n : Nat) : Nat := min (n + 1) Config.countMax

end Sys2Proof.Machine
end

