-- ==== Sys2Proof/Machine/Ops.lean ====
section
/-!
DEFINITION. The named operations over the whole state: field updates, circuits, attention, mode changes and the resolution of events,
requests and their replies, and the steps of start-up. The meanings of the commands are short texts over these.
-/
namespace Sys2Proof.Machine

/-! ## Field updates -/

/-- The state with its `phase` replaced. -/
def State.withPhase (s : State) (x : Phase) : State := { s with phase := x }

/-- The state with its `resetLow` replaced. -/
def State.withResetLow (s : State) (x : Bool) : State := { s with resetLow := x }

/-- The state with its `startCause` replaced. -/
def State.withStartCause (s : State) (x : StartCause) : State := { s with startCause := x }

/-- The state with its `circuits` replaced. -/
def State.withCircuits (s : State) (x : List Circuit) : State := { s with circuits := x }

/-- The state with its `slots` replaced. -/
def State.withSlots (s : State) (x : List Slot) : State := { s with slots := x }

/-- The state with its `index` replaced. -/
def State.withIndex (s : State) (x : List IndexEntry) : State := { s with index := x }

/-- The state with its `groups` replaced. -/
def State.withGroups (s : State) (x : List (Option (List Nat))) : State := { s with groups := x }

/-- The state with its `scenes` replaced. -/
def State.withScenes (s : State) (x : List (Option Scene)) : State := { s with scenes := x }

/-- The state with its `mode` replaced. -/
def State.withMode (s : State) (x : Mode) : State := { s with mode := x }

/-- The state with its `options` replaced. -/
def State.withOptions (s : State) (x : ModeOptions) : State := { s with options := x }

/-- The state with its `lineA` replaced. -/
def State.withLineA (s : State) (x : LineCtl) : State := { s with lineA := x }

/-- The state with its `lineB` replaced. -/
def State.withLineB (s : State) (x : LineCtl) : State := { s with lineB := x }

/-- The state with its `inputs` replaced. -/
def State.withInputs (s : State) (x : List ContactInput) : State := { s with inputs := x }

/-- The state with its `safe1` replaced. -/
def State.withSafe1 (s : State) (x : Pin) : State := { s with safe1 := x }

/-- The state with its `safe2` replaced. -/
def State.withSafe2 (s : State) (x : Pin) : State := { s with safe2 := x }

/-- The state with its `cue1` replaced. -/
def State.withCue1 (s : State) (x : CueInput) : State := { s with cue1 := x }

/-- The state with its `cue2` replaced. -/
def State.withCue2 (s : State) (x : CueInput) : State := { s with cue2 := x }

/-- The state with its `settleSamples` replaced. -/
def State.withSettleSamples (s : State) (x : Nat) : State := { s with settleSamples := x }

/-- The state with its `stage1` replaced. -/
def State.withStage1 (s : State) (x : Stage) : State := { s with stage1 := x }

/-- The state with its `stage2` replaced. -/
def State.withStage2 (s : State) (x : Stage) : State := { s with stage2 := x }

/-- The state with its `ignored1` replaced. -/
def State.withIgnored1 (s : State) (x : Nat) : State := { s with ignored1 := x }

/-- The state with its `ignored2` replaced. -/
def State.withIgnored2 (s : State) (x : Nat) : State := { s with ignored2 := x }

/-- The state with its `link` replaced. -/
def State.withLink (s : State) (x : Link) : State := { s with link := x }

/-- The state with its `port` replaced. -/
def State.withPort (s : State) (x : Port) : State := { s with port := x }

/-- The state with its `store` replaced. -/
def State.withStore (s : State) (x : Store) : State := { s with store := x }

/-- The state with its `spi` replaced. -/
def State.withSpi (s : State) (x : Option Transfer) : State := { s with spi := x }

/-- The state with its `sdo` replaced. -/
def State.withSdo (s : State) (x : List Bool) : State := { s with sdo := x }

/-- The state with its `pending` replaced. -/
def State.withPending (s : State) (x : List Instr) : State := { s with pending := x }

/-! ## Circuits -/

/-- Circuit `n`'s record; none outside 1..384. -/
def circuitAt (l : List Circuit) (n : Nat) : Option Circuit := if n = 0 then none else l[n - 1]?

/-- A change to circuit `n`'s record. -/
def updateAt (n : Nat) (f : Circuit → Circuit) (l : List Circuit) : List Circuit := if n = 0 then l else l.modify (n - 1) f

/-- A change to circuit `n`. -/
def State.onCircuit (n : Nat) (f : Circuit → Circuit) (s : State) : State := s.withCircuits (updateAt n f s.circuits)

/-- The same change to some circuits, one after the other in the order given. -/
def State.forCircuits (ns : List Nat) (f : Circuit → Circuit) (s : State) : State :=
  s.withCircuits (ns.foldl (fun l n => updateAt n f l) s.circuits)

/-- A change to every circuit, in ascending order. Each circuit's change reads no other circuit. -/
def State.mapCircuits (f : Circuit → Circuit) (s : State) : State := s.withCircuits (s.circuits.map f)

/-- Whether circuit `n`'s output level is above 0 (R59). -/
def State.circuitOn (s : State) (n : Nat) : Bool := (circuitAt s.circuits n).any fun c => decide (0 < c.output)

/-- Whether a circuit is decided by Show or Safe (R76, R103). -/
def Circuit.overridden (c : Circuit) : Bool := decide (c.deciding = some .show' ∨ c.deciding = some .safe)

/-- Whether circuit `n` is decided by Show or Safe. -/
def State.circuitOverridden (s : State) (n : Nat) : Bool := (circuitAt s.circuits n).any Circuit.overridden

/-- The members of group `g`; none for an Undefined group (R55, R76). -/
def State.members (s : State) (g : Nat) : List Nat := (groupAt s.groups g).getD []

/-- Whether group `g` is on (R76). -/
def State.groupOn (s : State) (g : Nat) : Bool := (s.members g).any s.circuitOn

/-- Whether a circuit's Local claim stands at an entry's clamped level (R83). -/
def Circuit.matches (level : Nat) (c : Circuit) : Bool :=
  match c.local' with
  | none => false
  | some cl => decide (cl.form.target = some (c.cfg.clamp level))

/-- Whether scene `n` is active (R83). -/
def State.sceneActive (s : State) (n : Nat) : Bool :=
  match sceneAt s.scenes n with
  | none => false
  | some sc => sc.entries.all fun e => (circuitAt s.circuits e.1).any (Circuit.matches e.2)

/-! ## Attention -/

/-- A block raises an attention flag (R152). -/
def State.raise (s : State) (f : Flag) : State := s.withPort (s.port.raise f)

/-! ## Movement (R66) -/

/-- Movement is ended on every circuit whose Local owner is picked (R66). -/
def State.endMovement (pick : LocalOwner → Bool) (s : State) : State := s.mapCircuits (Circuit.endMovement pick)

/-- Selection by source key (R66). -/
def pickKey (k : SourceKey) : LocalOwner → Bool
  | none => false
  | some (_, k') => decide (k' = k)

/-- Selection by station (R66). -/
def pickStation (l : Line) (address : Nat) : LocalOwner → Bool
  | some (_, .station l' a _) => decide (l' = l ∧ a = address)
  | _ => false

/-- Selection by mode: the owning slot's binding has a mode mask that does not contain the mode (R66). -/
def pickMode (slots : List Slot) (m : Mode) : LocalOwner → Bool
  | none => false
  | some (n, _) => (slotAt slots n).record.any fun b => !b.mask.has m

/-! ## Lines -/

/-- The controller of a line. -/
def State.line (s : State) : Line → LineCtl
  | .a => s.lineA
  | .b => s.lineB

/-- The state with a line's controller replaced. -/
def State.withLine (s : State) (l : Line) (x : LineCtl) : State :=
  match l with
  | .a => s.withLineA x
  | .b => s.withLineB x

/-- An exchange begins with its first character: it takes the divisor and the reply window as they stand (R96). -/
def LineCtl.begin (c : LineCtl) (kind : ExchangeKind) (chars : List TxChar) : LineCtl :=
  { c with exchange := some ⟨kind, chars, c.config.divisor, c.config.window, false, false⟩ }

/-- The pending announce is sent (R108). It stays pending until its last character has been sent and read back. -/
def LineCtl.sendAnnounce (c : LineCtl) (m : Mode) : LineCtl := c.begin (.announce m) (announceMessage m)

/-- Mode control asks a line for an announce: only a Running line takes it, a later request replaces an earlier one's mode, and one
that comes during the wait for a round is sent at once (R93, R101, R108). Whether that wait goes on after the announce has ended is not said: it
does, until ROUND_WAIT_END (DESIGN CHOICE, log 38). -/
def LineCtl.askAnnounce (m : Mode) (c : LineCtl) : LineCtl :=
  if c.state = .running then
    let c1 := { c with announce := some m }
    if c.waiting ∧ c.exchange = none then c1.sendAnnounce m else c1
  else c

/-! ## Mode changes (R89) -/

/-- A mode change request for a mode with a fade arrives at mode control (R89 to R93). -/
def State.changeMode (m : Mode) (fade : Nat) (s : State) : State :=
  if s.mode = m then s
  else
    let s1 := s.withMode m
    let s2 := s1.mapCircuits fun c => c.claim (.base m) (c.cfg.base.at m) fade
    let s3 := s2.mapCircuits fun c => if c.cfg.localClear.has m then c.release .local' fade else c
    let s4 := s3.endMovement (pickMode s3.slots m)
    let s5 := (s4.withLineA (s4.lineA.askAnnounce m)).withLineB (s4.lineB.askAnnounce m)
    s5.raise .modeChanged

/-! ## Events (chapter 4) -/

/-- The matching set of an event: Live slots of the pair's list whose mask holds the house mode, ascending, with their records (R51). -/
def State.matching (s : State) (k : SourceKey) (e : EventKind) : List (Nat × Binding) :=
  (indexList s.index k e).filterMap fun n =>
    match (slotAt s.slots n).liveRecord with
    | none => none
    | some b => if b.mask.has s.mode then some (n, b) else none

/-- The circuits a circuit or group target acts on (R55). -/
def State.targetCircuits (s : State) : Target → List Nat
  | .circuit n => [n]
  | .group g => s.members g
  | .scene _ => []
  | .mode _ => []

/-- The fade of a binding that leaves it absent is the default fade (R56). -/
def State.fadeOr (s : State) (b : Binding) : Nat := b.fade.getD s.options.defaultFade

/-- A Local claim at a level on some circuits (R57, R58). -/
def State.claimLocal (o : LocalOwner) (ns : List Nat) (level fade : Nat) (s : State) : State :=
  s.forCircuits ns (Circuit.claim (.local' o) level fade)

/-- Each entry of a scene makes a Local claim, in ascending circuit order (R62). -/
def State.recall (o : LocalOwner) (entries : List (Nat × Nat)) (fade : Nat) (s : State) : State :=
  s.withCircuits (entries.foldl (fun l e => updateAt e.1 (Circuit.claim (.local' o) e.2 fade) l) s.circuits)

/-- A binding of the matching set is carried out at its turn (R57 to R64). -/
def State.carryOut (k : SourceKey) (s : State) (nb : Nat × Binding) : State :=
  let b := nb.2
  let o : LocalOwner := some (nb.1, k)
  let targets := s.targetCircuits b.target
  match b.action with
  | .on => s.claimLocal o targets (b.level.getD 1000) (s.fadeOr b)
  | .off => s.claimLocal o targets 0 (s.fadeOr b)
  | .toggle =>
    if targets.any s.circuitOn then s.claimLocal o targets 0 (s.fadeOr b)
    else s.claimLocal o targets (b.level.getD 1000) (s.fadeOr b)
  | .raise => s.forCircuits targets (Circuit.move o .up (b.rate.getD s.options.defaultRate))
  | .lower => s.forCircuits targets (Circuit.move o .down (b.rate.getD s.options.defaultRate))
  | .release => s.forCircuits targets (Circuit.release .local' (s.fadeOr b))
  | .recall =>
    match b.target with
    | .scene n =>
      match sceneAt s.scenes n with
      | none => s
      | some sc => s.recall o sc.entries (b.fade.getD (sc.fade.getD s.options.defaultFade))
    | _ => s
  | .mode =>
    match b.target with
    | .mode m => s.changeMode m (b.fade.getD s.options.modeFade)
    | _ => s

/-- A Release or an Open ends movement by its source key (R54 step 2). -/
def State.endBySource (k : SourceKey) (e : EventKind) (s : State) : State :=
  match e with
  | .release => s.endMovement (pickKey k)
  | .open' => s.endMovement (pickKey k)
  | _ => s

/-- An event is resolved whole (R54): lookup, end of movement by source, then each binding of the matching set in slot order. -/
def State.resolve (k : SourceKey) (e : EventKind) (s : State) : State :=
  (s.matching k e).foldl (State.carryOut k) (s.endBySource k e)

/-! ## Requests (R148, R149) -/

/-- The echo of a request's code (R149). -/
def requestEcho (i : Instr) : Byte := BitVec.ofNat 8 ((requestCode i).getD 0)

/-- A reply is placed in the slot, over any it held, and the port is Done (R148, R149). -/
def State.answer (s : State) (echo : Byte) (result : ResultCode) (payload : List Byte) : State :=
  s.withPort { s.port with slot := some ⟨echo, result, payload⟩, state := .done, request := none }

/-- A request is accepted: the slot is emptied and the port is Working (R148). -/
def State.accept (s : State) (i : Instr) : State :=
  s.withPort { s.port with slot := none, state := .working, request := some i }

/-- A request discarded in Working sets the overrun flag and changes nothing else (R148). -/
def State.discardRequest (s : State) : State := s.withPort { s.port with overrun := true }

/-- What carrying out a request gives: the state, the result code and the payload. -/
structure Carried where
  state   : State
  result  : ResultCode
  payload : List Byte
  deriving DecidableEq, Repr

/-- A request refused: nothing is changed (0.9). -/
def State.refuse (s : State) (r : ResultCode) : Carried := ⟨s, r, []⟩

/-- A request carried out with OK. -/
def State.done (s : State) (payload : List Byte) : Carried := ⟨s, .ok, payload⟩

/-- A frame of its own: a request row stands for its whole request, frame and completion, only while no other transaction is in progress
(log 4, log 31). -/
def State.whenSelFree (f : State → State) (s : State) : State := if s.spi.isSome then s else f s

/-- A request row reaches the port (log 4). While start-up runs it is answered STARTING. In Working it is the completion of the request
being carried out, or another request, which is discarded. In Idle and Done it is accepted and completed (R148, R149). -/
def State.requestStep (i : Instr) (carry : State → State) (s : State) : State :=
  match s.phase with
  | .unpowered => s
  | .held => s
  | .settling => s.whenSelFree fun t => t.answer (requestEcho i) .starting []
  | .running =>
    if s.port.state = .working then
      if s.port.request = some i then carry (s.accept i) else s.whenSelFree State.discardRequest
    else s.whenSelFree fun t => carry (t.accept i)

/-- A request is carried out by its owner and its reply placed (R149). -/
def State.complete (i : Instr) (owner : State → Carried) (s : State) : State :=
  s.requestStep i fun t => (owner t).state.answer (requestEcho i) (owner t).result (owner t).payload

/-- A request of a table of the image: refused with STORE_BUSY first, while the store is Saving or Erasing (R157). -/
def State.storedWrite (owner : State → Carried) (s : State) : Carried := if s.storeBusy then s.refuse .storeBusy else owner s

/-- What a command answers. -/
abbrev Answer := Host.Outcome State Fault Refusal

/-- An arrival that only a running part takes: from step 1 to step 7 of start-up, in reset and without supply nothing comes of it (R159,
R161). -/
def State.whenRunning (f : State → State) (s : State) : State := if s.phase = .running then f s else s

/-! ## Rack link frame start (R141, R143) -/

/-- A frame start: the snapshot of all circuits is converted and sent, the period is loaded and the next-start time set (R141, R143). -/
def State.startFrame (s : State) : State :=
  s.withLink { s.link with
    frame := some (rackFrame s.circuits), inUse := s.link.period, nextStart := some s.link.period, owed := false }

/-! ## The stored tables (R156) -/

/-- What the image stores of a line (R156). -/
def LineCtl.stored (c : LineCtl) : StoredLine := ⟨c.config, c.stations.map (·.ident)⟩

/-- Every table of the image as it stands (R156, R157 step 1). -/
def State.stored (s : State) : Stored where
  circuits := s.circuits.map (·.cfg)
  slots := s.slots
  groups := s.groups
  scenes := s.scenes
  options := s.options
  lineA := s.lineA.stored
  lineB := s.lineB.stored
  inputs := s.inputs.map (·.config)
  edge1 := s.cue1.edge
  edge2 := s.cue2.edge
  period := s.link.period
  mask := s.port.mask

/-! ## Start-up, steps 1 to 4 (R160) -/

/-- A line at step 1 of start-up: Off, with nothing in flight (R98, R160). -/
def LineCtl.quiet (c : LineCtl) : LineCtl :=
  { c with state := .off, waiting := false, announce := none, again := none, exchange := none }

/-- Step 1 of start-up, less the start cause: the port, the flags, the link, the lines and the layers are cleared, and a Saving or Erasing
operation is stopped (R139, R159, R160). The house mode keeps the mode it had until step 5: R85 names none before it (DESIGN CHOICE,
log 32). The link's period in use stays as it was until the first frame start: R143 gives one only while Sending (DESIGN CHOICE, log 36). What
steps 2 and 3 set, the inputs' accepted levels and counts among it, stays as it was until then (DESIGN CHOICE, log 39). -/
def State.quiesce (s : State) : State :=
  let s1 := s.withPort { s.port with state := .starting, slot := none, request := none, overrun := false, flags := 0 }
  let s2 := s1.withLink { s1.link with sending := false, nextStart := none, frame := none, owed := false }
  let s3 := (s2.withLineA s2.lineA.quiet).withLineB s2.lineB.quiet
  let s4 := s3.mapCircuits fun c => Circuit.bare c.cfg
  s4.withStore { s4.store with state := .ready, copy := none }

/-- A line as steps 2 and 3 leave it: configuration and stations from the tables, live state afresh (R98, R100, R112, R160). -/
def LineCtl.load (t : StoredLine) : LineCtl where
  config := t.config
  state := .off
  stations := t.stations.map Station.fresh
  round := 0
  collisions := 0
  lastPolled := none
  waiting := false
  announce := none
  again := none
  exchange := none
  census := .idle
  censusList := []
  censusAddr := 1

/-- A pin at the start of settling: no sample taken, and high until one is (R122; log 25). -/
def Pin.unsettled : Pin := ⟨true, 0, 0, false⟩

/-- Step 2 of start-up for given tables: every table is loaded and the key index built (R41, R160). From here to its adoption at the end of
step 4 every contact input's state is Unused, whatever its kind: R122 gives none before it (DESIGN CHOICE, log 37). -/
def State.loadTables (t : Stored) (s : State) : State :=
  let s1 := (s.withCircuits (t.circuits.map Circuit.bare)).withSlots t.slots
  let s2 := (s1.withIndex (buildIndex t.slots)).withGroups t.groups
  let s3 := (s2.withScenes t.scenes).withOptions t.options
  let s4 := (s3.withLineA (LineCtl.load t.lineA)).withLineB (LineCtl.load t.lineB)
  let s5 := s4.withInputs (t.inputs.map fun c => ⟨c, Pin.unsettled, .unused, 0⟩)
  let s6 := (s5.withCue1 ⟨t.edge1, Pin.unsettled⟩).withCue2 ⟨t.edge2, Pin.unsettled⟩
  let s7 := s6.withLink { s6.link with period := t.period }
  s7.withPort { s7.port with mask := t.mask }

/-- Step 2 of start-up: the image where it is valid, else the blank defaults and STORE_BLANK (R160). -/
def State.load (s : State) : State :=
  match s.store.image with
  | some t => (s.loadTables t).withStore { s.store with valid := true }
  | none => ((s.loadTables Stored.blank).withStore { s.store with valid := false }).raise .storeBlank

/-- Step 3 of start-up, and step 4 begun: live state is cleared and no input has been sampled (R122, R128, R160). -/
def State.clearLive (s : State) : State :=
  let s1 := ((s.withStage1 Stage.reset).withStage2 Stage.reset).withIgnored1 0
  let s2 := (s1.withIgnored2 0).withLink { s1.link with late := 0 }
  let s3 := ((s2.withSafe1 Pin.unsettled).withSafe2 Pin.unsettled).withSettleSamples 0
  s3.withPhase .settling

/-- A start-up arrival: steps 1 to 3, and step 4 begun (R160, R161). The house mode stands as it was until step 5 (DESIGN CHOICE, log 32). -/
def State.startUp (cause : StartCause) (s : State) : State := ((s.withStartCause cause).quiesce.load).clearLive

end Sys2Proof.Machine
end

