-- ==== Sys2Proof/Machine/Cues.lean ====
section
/-!
DEFINITION. The stage unit (chapter 9): the banks, the transfer, linking and cue events.
-/
namespace Sys2Proof.Machine

/-- Stage 1 or stage 2 (R128). -/
inductive StageId where
  | one | two
  deriving DecidableEq, Repr

/-- The stage of a number; none outside 1..2. -/
def stageIdOf : Nat → Option StageId
  | 1 => some .one
  | 2 => some .two
  | _ => none

/-- The number of a stage. -/
def StageId.number : StageId → Nat
  | .one => 1
  | .two => 2

/-- The other stage (R136). -/
def StageId.other : StageId → StageId
  | .one => .two
  | .two => .one

/-- The owner of the Show claims a stage makes (R6). -/
def StageId.maker : StageId → Maker
  | .one => .stage1
  | .two => .stage2

/-- A stage's record. -/
def State.stage (s : State) : StageId → Stage
  | .one => s.stage1
  | .two => s.stage2

/-- The state with a stage's record replaced. -/
def State.withStage (s : State) (i : StageId) (x : Stage) : State :=
  match i with
  | .one => s.withStage1 x
  | .two => s.withStage2 x

/-- One entry acts on its circuit's Show layer (R135). -/
def actEntry (m : Maker) (e : StageForm) : Circuit → Circuit :=
  match e with
  | .claim level fade => Circuit.claim (.show' m) level fade
  | .release fade => Circuit.release .show' fade

/-- A stage with no entries, its trigger kept (R130, R135). -/
def Stage.emptied (x : Stage) : Stage := { x with state := .empty, entries := [] }

/-- A stage's entries are carried out in ascending circuit order, and it becomes Empty (R135). -/
def State.transferOne (i : StageId) (s : State) : State :=
  (s.withCircuits ((s.stage i).entries.foldl (fun l e => updateAt e.1 (actEntry i.maker e.2) l) s.circuits)).withStage i (s.stage i).emptied

/-- Whether a stage is transferred by the transfer of the other (R136). -/
def Stage.linked (x : Stage) : Bool := decide (x.state = .standby ∧ x.trigger = .linked)

/-- A stage is transferred, and the other after it where it is linked (R135, R136). -/
def State.transfer (i : StageId) (s : State) : State :=
  let s1 := s.transferOne i
  if (s1.stage i.other).linked then s1.transferOne i.other else s1

/-- What a transfer carries out: each stage with its number of entries, in order (R133). -/
def State.transferred (i : StageId) (s : State) : List (StageId × Nat) :=
  (i, (s.stage i).entries.length)
    :: (if (s.stage i.other).linked then [(i.other, (s.stage i.other).entries.length)] else [])

/-- The trigger a cue line fires (R128). -/
def cueTrigger : CueLine → Trigger
  | .cue1 => .cue1
  | .cue2 => .cue2

/-- Whether a stage matches a cue event (R134). -/
def Stage.matchesCue (x : Stage) (c : CueLine) : Bool := decide (x.state = .standby ∧ x.trigger = cueTrigger c)

/-- A cue that finds no stage is counted (R134). -/
def State.countIgnored (c : CueLine) (s : State) : State :=
  match c with
  | .cue1 => s.withIgnored1 (bump s.ignored1)
  | .cue2 => s.withIgnored2 (bump s.ignored2)

/-- A cue event arrives at the stage unit (R134). The stages are judged as they stand at the arrival. -/
def State.cueArrives (c : CueLine) (s : State) : State :=
  let one := s.stage1.matchesCue c
  let two := s.stage2.matchesCue c
  if one || two then
    let s1 := if one then s.transfer .one else s
    if two then s1.transfer .two else s1
  else (s.countIgnored c).raise .cueIgnored

end Sys2Proof.Machine
end

