-- ==== Sys2Proof/Machine/Contacts.lean ====
section
/-!
DEFINITION. The contact input unit (chapter 8): debounce, Momentary and Maintained inputs, the safety inputs, the cue lines, and the
settling of start-up.
-/
namespace Sys2Proof.Machine

/-! ## Pins (R116, R122) -/

/-- Whether a sample is accepted as a new level: the disagree count reaches the debounce (R116). -/
def Pin.accepts (p : Pin) (debounce : Nat) (level : Bool) : Bool := decide (level ≠ p.level) && decide (debounce ≤ p.disagree + 1)

/-- A pin at an accepted level (R116). -/
def Pin.adopt (p : Pin) (level : Bool) : Pin := { p with level := level, disagree := 0 }

/-- A pin after a sample (R116). -/
def Pin.sample (p : Pin) (debounce : Nat) (level : Bool) : Pin :=
  if level = p.level then { p with disagree := 0 }
  else if p.accepts debounce level then p.adopt level
  else { p with disagree := p.disagree + 1 }

/-- A pin after a sample of step 4 of start-up: settled at the first sample that completes a run of agreeing samples (R122). -/
def Pin.settle (p : Pin) (count : Nat) (level : Bool) : Pin :=
  if p.settled then p
  else
    let run := if p.run ≠ 0 ∧ p.level = level then p.run + 1 else 1
    ⟨level, 0, run, decide (count ≤ run)⟩

/-- A pin at the end of step 4: its accepted level is the settled one, or that of the last sample (R122). -/
def Pin.settledAt (p : Pin) : Pin := Pin.at p.level

/-- A safety pin at the end of step 4: high where it has not settled (R122). -/
def Pin.safeSettled (p : Pin) : Pin := Pin.at (!p.settled || p.level)

/-! ## Contact inputs (R116 to R119) -/

/-- Contact input `n`'s record; none outside 1..24. -/
def State.contact (s : State) (n : Nat) : Option ContactInput := if n = 0 then none else s.inputs[n - 1]?

/-- The state with contact input `n`'s record replaced. -/
def State.withContact (s : State) (n : Nat) (x : ContactInput) : State :=
  if n = 0 then s else s.withInputs (s.inputs.set (n - 1) x)

/-- Closed or Held: the states in which the closed count is used (R115). -/
def InputState.down : InputState → Bool
  | .closed => true
  | .held => true
  | _ => false

/-- A Momentary input has an accepted change to closed (R117). -/
def State.contactClosed (n : Nat) (x : ContactInput) (s : State) : State :=
  if x.state = .open' then (s.withContact n { x with state := .closed, closedCount := 0 }).resolve (.contact n) .press
  else s.withContact n x

/-- A Momentary input has an accepted change to open (R118). -/
def State.contactOpened (n : Nat) (x : ContactInput) (s : State) : State :=
  let s1 := s.withContact n { x with state := .open' }
  if x.state.down then s1.resolve (.contact n) .release else s1

/-- A Closed input has reached its hold time (R117). -/
def State.contactHeld (n : Nat) (x : ContactInput) (s : State) : State :=
  (s.withContact n { x with state := .held }).resolve (.contact n) .hold

/-- An input has reached its stuck time (R118). -/
def State.contactStuck (n : Nat) (x : ContactInput) (s : State) : State :=
  ((s.withContact n { x with state := .stuck }).endMovement (pickKey (.contact n))).raise .inputStuck

/-- A sample on which no change of a Momentary input is accepted: the closed count rises while it is Closed or Held, and the hold and stuck
times are judged (R117, R118). -/
def State.contactCounted (n : Nat) (x : ContactInput) (s : State) : State :=
  if x.state.down then
    let y := { x with closedCount := min (x.closedCount + 1) Config.closedMax }
    if y.state = .closed ∧ y.config.holdTime ≤ y.closedCount then s.contactHeld n y
    else if y.config.stuckTime ≠ 0 ∧ y.config.stuckTime * 1000 ≤ y.closedCount then s.contactStuck n y
    else s.withContact n y
  else s.withContact n x

/-- A Maintained input has an accepted change (R119). -/
def State.contactTurned (n : Nat) (x : ContactInput) (s : State) : State :=
  if x.config.isClosed x.pin.level then (s.withContact n { x with state := .closed }).resolve (.contact n) .close
  else (s.withContact n { x with state := .open' }).resolve (.contact n) .open'

/-- One contact input takes a sample: its record by R116, then its kind's rule. -/
def State.sampleContact (n : Nat) (level : Bool) (s : State) : State :=
  match s.contact n with
  | none => s
  | some x =>
    let changed := x.pin.accepts x.config.debounce level
    let y := { x with pin := x.pin.sample x.config.debounce level }
    match x.config.kind with
    | .unused => s.withContact n y
    | .maintained => if changed then s.contactTurned n y else s.withContact n y
    | .momentary =>
      if changed then (if y.config.isClosed y.pin.level then s.contactClosed n y else s.contactOpened n y)
      else s.contactCounted n y

/-- The state an input adopts from its accepted level; a closed Momentary input is adopted as `down` (R120, R122). -/
def ContactInput.adopt (x : ContactInput) (down : InputState) : ContactInput :=
  let closed := x.config.isClosed x.pin.level
  { x with
    state := match x.config.kind with
      | .unused => .unused
      | .maintained => if closed then .closed else .open'
      | .momentary => if closed then down else .open'
    closedCount := 0 }

/-! ## Safety inputs (R123 to R125) -/

/-- A safety input's pin. -/
def State.safePin (s : State) : SafeInput → Pin
  | .safe1 => s.safe1
  | .safe2 => s.safe2

/-- The state with a safety input's pin replaced. -/
def State.withSafePin (s : State) (i : SafeInput) (p : Pin) : State :=
  match i with
  | .safe1 => s.withSafe1 p
  | .safe2 => s.withSafe2 p

/-- A safety input is accepted open: it asserts (R124). -/
def State.assertInput (i : SafeInput) (s : State) : State :=
  ((s.withSafePin i ((s.safePin i).adopt true)).mapCircuits (Circuit.assertSafe i)).raise .safeChange

/-- A safety input is accepted closed: it deasserts (R125). -/
def State.deassertInput (i : SafeInput) (s : State) : State :=
  ((s.withSafePin i ((s.safePin i).adopt false)).mapCircuits (Circuit.deassertSafe i s.options.safeReleaseFade)).raise .safeChange

/-- A safety input takes a sample (R123). -/
def State.sampleSafe (i : SafeInput) (level : Bool) (s : State) : State :=
  if (s.safePin i).accepts Config.safeDebounce level then (if level then s.assertInput i else s.deassertInput i)
  else s.withSafePin i ((s.safePin i).sample Config.safeDebounce level)

/-! ## Cue lines (R127) -/

/-- A cue line. -/
def State.cue (s : State) : CueLine → CueInput
  | .cue1 => s.cue1
  | .cue2 => s.cue2

/-- The state with a cue line replaced. -/
def State.withCue (s : State) (c : CueLine) (x : CueInput) : State :=
  match c with
  | .cue1 => s.withCue1 x
  | .cue2 => s.withCue2 x

/-- The level an accepted change in an edge's direction leads to (R127). -/
def Edge.level : Edge → Bool
  | .rising => true
  | .falling => false

/-- A cue line takes a sample: an accepted change in its edge's direction is a cue event (R127). -/
def State.sampleCue (c : CueLine) (level : Bool) (s : State) : State :=
  let x := s.cue c
  let s1 := s.withCue c { x with pin := x.pin.sample Config.cueDebounce level }
  if x.pin.accepts Config.cueDebounce level && decide (level = x.edge.level) then s1.cueArrives c else s1

/-! ## The sample (R116) -/

/-- The input R165 numbers `n` takes its sample. -/
def State.sampleInput (pins : BitVec 28) (s : State) (n : Nat) : State :=
  let level := pins.getLsbD (n - 1)
  if n = 25 then s.sampleSafe .safe1 level
  else if n = 26 then s.sampleSafe .safe2 level
  else if n = 27 then s.sampleCue .cue1 level
  else if n = 28 then s.sampleCue .cue2 level
  else s.sampleContact n level

/-- The numbers of all the inputs (R165). -/
def allInputs : List Nat := List.range' 1 Config.inputs

/-- An order of all the inputs, each once: those named first, as they are named, and the rest in ascending order (log 6). -/
def sampleOrder (order : List Nat) : List Nat :=
  let named := order.foldl (fun l n => if n ∈ allInputs ∧ n ∉ l then l ++ [n] else l) []
  named ++ allInputs.filter fun n => decide (n ∉ named)

/-- A sample of all the inputs of a running part (R116). -/
def State.sampleAll (pins : BitVec 28) (order : List Nat) (s : State) : State := (sampleOrder order).foldl (State.sampleInput pins) s

/-! ## Settling (R122) -/

/-- Whether every input is settled (R122). -/
def State.allSettled (s : State) : Bool :=
  s.inputs.all (fun x => x.pin.settled) && s.safe1.settled && s.safe2.settled && s.cue1.pin.settled && s.cue2.pin.settled

/-- The contact inputs take a sample of step 4; `n` numbers the first (R122). -/
def settleContacts (pins : BitVec 28) : Nat → List ContactInput → List ContactInput
  | _, [] => []
  | n, x :: l => { x with pin := x.pin.settle x.config.debounce (pins.getLsbD (n - 1)) } :: settleContacts pins (n + 1) l

/-- A sample of step 4 of start-up; none is taken once every input is settled or has reached the 250th (R122). -/
def State.settleSample (pins : BitVec 28) (s : State) : State :=
  if s.allSettled || decide (Config.settleSamples ≤ s.settleSamples) then s
  else
    let s1 := s.withInputs (settleContacts pins 1 s.inputs)
    let s2 := s1.withSafe1 (s1.safe1.settle Config.safeDebounce (pins.getLsbD 24))
    let s3 := s2.withSafe2 (s2.safe2.settle Config.safeDebounce (pins.getLsbD 25))
    let s4 := s3.withCue1 { s3.cue1 with pin := s3.cue1.pin.settle Config.cueDebounce (pins.getLsbD 26) }
    let s5 := s4.withCue2 { s4.cue2 with pin := s4.cue2.pin.settle Config.cueDebounce (pins.getLsbD 27) }
    s5.withSettleSamples (s5.settleSamples + 1)

/-- Every input adopts its state at the end of step 4; INPUT_STUCK is raised for a Momentary input found closed (R122). -/
def State.adoptInputs (s : State) : State :=
  let inputs := s.inputs.map fun x => ContactInput.adopt { x with pin := x.pin.settledAt } .stuck
  let s1 := (s.withInputs inputs).withSettleSamples 0
  let s2 := (s1.withSafe1 s1.safe1.safeSettled).withSafe2 s1.safe2.safeSettled
  let s3 := (s2.withCue1 { s2.cue1 with pin := s2.cue1.pin.settledAt }).withCue2 { s2.cue2 with pin := s2.cue2.pin.settledAt }
  if inputs.any fun x => decide (x.state = .stuck) then s3.raise .inputStuck else s3

end Sys2Proof.Machine
end

