-- ==== Sys2Proof/Machine/Lines.lean ====
section
/-!
DEFINITION. The station line controllers (chapter 7): line states, rounds, polls and indicators, collisions, replies and misses, the
census.
-/
namespace Sys2Proof.Machine

/-! ## The line's pins (0.5, R98, R99, R104, R160) -/

/-- Whether a Running line sends: it has an exchange in flight whose characters are not all sent (R98, R99, R104, R105). -/
def LineCtl.sends (c : LineCtl) : Bool := decide (c.state = .running) && c.exchange.any fun x => !x.sent

/-- Whether the driver of a line, DEA or DEB, is enabled: exactly while its controller sends the characters of an exchange (log 40), so never
in start-up, in reset or without supply (R98, R160). -/
def State.driverEnabled (l : Line) (s : State) : Bool := decide (s.phase = .running) && (s.line l).sends

/-- What the exchange in flight puts on TXA or TXB, one item for each bit of its characters, while the driver is enabled; the manual names no
level there while it is disabled (R102, R108, R113, R162; log 33, log 40). -/
def State.tx (l : Line) (s : State) : List Bool :=
  if s.driverEnabled l then ((s.line l).exchange.map fun x => x.chars.flatMap TxChar.bits).getD [] else []

/-! ## Line states (R97 to R99) -/

/-- A line becomes Running (R98). -/
def LineCtl.becomeRunning (c : LineCtl) : LineCtl :=
  { c with state := .running, round := 0, collisions := 0, lastPolled := none, waiting := false, announce := none, again := none,
           exchange := none }

/-- A Running census becomes Abandoned, keeping its list (R98, R99, R113). -/
def LineCtl.abandonCensus (c : LineCtl) : LineCtl := if c.census = .running then { c with census := .abandoned } else c

/-- A line becomes Off: polling stops, a pending announce is discarded, a Running census is Abandoned, the stations are kept (R98). A
collision repeat is dropped too; a line that becomes Running has none (log 30). -/
def LineCtl.becomeOff (c : LineCtl) : LineCtl := c.quiet.abandonCensus

/-- The exchange in flight ends; a Running line that can no longer run becomes Off then (R97). -/
def LineCtl.endExchange (c : LineCtl) : LineCtl :=
  if c.state = .running ∧ c.config.canRun = false then { c with exchange := none }.becomeOff else { c with exchange := none }

/-- A Running line enters Fault; one that can no longer run becomes Off at once (R97, R99). -/
def LineCtl.enterFault (c : LineCtl) : LineCtl :=
  let c1 := { c with state := .fault, waiting := false, announce := none, again := none, exchange := none }.abandonCensus
  if c.config.canRun then c1 else c1.becomeOff

/-- A line enters Fault and LINE_FAULT is raised (R99). -/
def State.faultLine (l : Line) (s : State) : State := (s.withLine l (s.line l).enterFault).raise .lineFault

/-- The Fault ends: the line becomes Running, with every miss count 0 (R99). -/
def LineCtl.recover (c : LineCtl) : LineCtl :=
  { c.becomeRunning with stations := c.stations.map fun r => { r with misses := 0 } }

/-- The line state follows a new configuration (R97). -/
def LineCtl.follow (c : LineCtl) : LineCtl :=
  match c.state with
  | .off => if c.config.canRun then c.becomeRunning else c
  | .running => if c.config.canRun = false ∧ c.exchange = none then c.becomeOff else c
  | .fault => if c.config.canRun then c else c.becomeOff

/-! ## Indicators (R103) -/

/-- The record of a Live slot with feedback yes for a button. -/
def Slot.feedbackFor (k : SourceKey) (x : Slot) : Option Binding :=
  match x.liveRecord with
  | none => none
  | some b => if b.feedback && decide (b.key = k) then some b else none

/-- The binding a button's indicator follows: the lowest-numbered Live one with feedback yes (R103). -/
def State.feedbackBinding (s : State) (k : SourceKey) : Option Binding := s.slots.findSome? (Slot.feedbackFor k)

/-- Blink, On or Off from the two questions of a circuit or a group (R103). -/
def Indicator.ofLit (overridden lit : Bool) : Indicator := if overridden then .blink else if lit then .on else .off

/-- The indicator of a target (R103). -/
def State.indicatorOf (s : State) : Target → Indicator
  | .circuit n => Indicator.ofLit (s.circuitOverridden n) (s.circuitOn n)
  | .group g => Indicator.ofLit ((s.members g).any s.circuitOverridden) (s.groupOn g)
  | .scene n => Indicator.ofLit false (s.sceneActive n)
  | .mode m => Indicator.ofLit false (decide (s.mode = m))

/-- The indicator of a button (R103). -/
def State.indicator (s : State) (k : SourceKey) : Indicator :=
  match s.feedbackBinding k with
  | none => .off
  | some b => s.indicatorOf b.target

/-- The indicator states a poll to a station carries (R102). -/
def State.indicators (s : State) (l : Line) (r : Station) : List Indicator :=
  if r.ident.indicators then (List.range' 1 r.ident.buttons).map fun b => s.indicator (.station l r.ident.address b) else []

/-! ## Rounds and exchanges (R101, R102, R113) -/

/-- Whether a station is due in this round (R101). -/
def LineCtl.due (c : LineCtl) (r : Station) : Bool :=
  c.lastPolled.all (fun a => decide (a < r.ident.address)) && (decide (r.state ≠ .silent) || decide (c.round = 0))

/-- The next station due (R101). -/
def LineCtl.nextDue (c : LineCtl) : Option Station := c.stations.find? c.due

/-- A poll to a station is built and begun (R102). -/
def State.poll (l : Line) (r : Station) (s : State) : State :=
  let c := { s.line l with again := none, lastPolled := some r.ident.address }
  s.withLine l (c.begin (.poll r.ident.address) (pollMessage r.ident.address (r.lastBit.getD false) (s.indicators l r)))

/-- A census poll to an address is begun (R113). -/
def LineCtl.pollCensus (a : Nat) (c : LineCtl) : LineCtl := { c with again := none }.begin (.census a) (censusMessage a)

/-- The lowest address at or above the census address that is not on the poll list (R113). -/
def LineCtl.censusNext (c : LineCtl) : Option Nat :=
  (List.range' 1 Config.maxAddress).find? fun a => decide (c.censusAddr ≤ a) && (stationAt c.stations a).isNone

/-- The round ends: its number advances, and a census poll is sent where a census is Running; a round in which nothing was polled is
followed by a wait otherwise (R101, R113). -/
def State.endRound (l : Line) (s : State) : State :=
  let c := s.line l
  let c1 := { c with round := (c.round + 1) % 16, lastPolled := none }
  if c.census = .running then
    match c.censusNext with
    | some a => s.withLine l (c1.pollCensus a)
    | none => (s.withLine l { c1 with census := .done }).raise .censusDone
  else s.withLine l { c1 with waiting := c.lastPolled.isNone }

/-- The next station due is polled, or the round ends (R101 choices 3 and 4). -/
def State.walk (l : Line) (s : State) : State :=
  match (s.line l).nextDue with
  | some r => s.poll l r
  | none => s.endRound l

/-- A collision repeat is sent (R101 choice 2, R104). A census address that has been enrolled since is passed over (R109; log 13). -/
def State.repeatOrWalk (l : Line) (s : State) : State :=
  match (s.line l).again with
  | some (.station a) =>
    match stationAt (s.line l).stations a with
    | some r => s.poll l r
    | none => (s.withLine l { s.line l with again := none }).walk l
  | some (.census a) =>
    if (stationAt (s.line l).stations a).isNone then s.withLine l ((s.line l).pollCensus a)
    else (s.withLine l { s.line l with again := none }).walk l
  | none => s.walk l

/-- The controller chooses and begins its next exchange (R101). It is Running and has none in flight. The wait of one reply window that an
announce was sent within goes on after the announce, until ROUND_WAIT_END (DESIGN CHOICE, log 38). -/
def State.chooseExchange (l : Line) (s : State) : State :=
  if (s.line l).state ≠ .running ∨ (s.line l).exchange ≠ none then s
  else
    match (s.line l).announce with
    | some m => s.withLine l ((s.line l).sendAnnounce m)
    | none => if (s.line l).waiting then s else s.repeatOrWalk l

/-- All characters of the exchange in flight have been sent and read back (R104, R105, R108). An announce replaced by another mode while
it was being sent leaves that mode pending (log 11). -/
def LineCtl.allSent (c : LineCtl) : LineCtl :=
  match c.exchange with
  | none => c
  | some x =>
    if x.sent then c
    else
      match x.kind with
      | .announce m =>
        { c with collisions := 0, announce := if c.announce = some m then none else c.announce }.endExchange
      | _ => { c with collisions := 0, exchange := some { x with sent := true } }

/-- What a collision leaves to be sent again (R104). A station unenrolled while its exchange was in flight is not (R110; log 13). -/
def Exchange.again (x : Exchange) (before : Option Repeat) : Option Repeat :=
  match x.kind with
  | .poll a => if x.discard then before else some (.station a)
  | .census a => some (.census a)
  | .announce _ => before

/-- A collision (R104). -/
def State.collide (l : Line) (s : State) : State :=
  match (s.line l).exchange with
  | none => s
  | some x =>
    if x.sent then s
    else
      let c := { s.line l with collisions := (s.line l).collisions + 1 }
      if Config.collisionLimit ≤ c.collisions then (s.withLine l c).faultLine l
      else s.withLine l { c with again := x.again c.again }.endExchange

/-! ## Replies and misses (R105 to R107, R113) -/

/-- A change to a station record of a line. -/
def State.onStation (l : Line) (a : Nat) (f : Station → Station) (s : State) : State :=
  s.withLine l { s.line l with stations := mapStation a f (s.line l).stations }

/-- Whether a valid reply is accepted: the last accepted bit is absent, made absent because the station was Silent, or differs (R106). -/
def Station.accepts (r : Station) (reply : StationReply) : Bool :=
  decide (r.state = .silent) || decide (r.lastBit ≠ some reply.bit)

/-- A station record after a valid reply (R106). -/
def Station.answered (reply : StationReply) (r : Station) : Station :=
  { r with
    state := .online
    misses := 0
    lastBit := some reply.bit
    eventsLost := if r.accepts reply && reply.lost then bump r.eventsLost else r.eventsLost }

/-- A flag raised on a condition. -/
def State.raiseIf (cond : Bool) (f : Flag) (s : State) : State := if cond then s.raise f else s

/-- The events of an accepted reply reach the resolver in the order listed (R53, R106). -/
def State.deliver (l : Line) (a : Nat) (events : List (Nat × EventKind)) (s : State) : State :=
  events.foldl (fun t e => t.resolve (.station l a e.1) e.2) s

/-- A valid reply from a station is taken whole (R106). -/
def State.validReply (l : Line) (r : Station) (reply : StationReply) (s : State) : State :=
  let s1 := s.onStation l r.ident.address (Station.answered reply)
  let s2 := s1.raiseIf (decide (r.state = .silent)) .stationBack
  if r.accepts reply then (s2.raiseIf reply.lost .eventsLost).deliver l r.ident.address reply.events else s2

/-- Whether a miss makes a station Silent (R107). -/
def Station.fails (r : Station) : Bool := decide (r.state ≠ .silent) && decide (Config.missLimit ≤ r.misses + 1)

/-- A station record after a miss (R107). -/
def Station.missed (r : Station) : Station :=
  if r.state = .silent then { r with misses := Config.missLimit }
  else if r.fails then { r with misses := Config.missLimit, state := .silent, lastBit := none }
  else { r with misses := r.misses + 1 }

/-- A miss on a poll to a station (R107). -/
def State.miss (l : Line) (r : Station) (s : State) : State :=
  let s1 := s.onStation l r.ident.address Station.missed
  if r.fails then (s1.endMovement (pickStation l r.ident.address)).raise .stationSilent else s1

/-- A census reply is judged: an entry where it is valid, and the census address advances (R113). -/
def State.censusJudged (l : Line) (a : Nat) (entry : Option StationIdent) (s : State) : State :=
  let c := s.line l
  let c1 := { c with censusList := c.censusList ++ entry.toList, censusAddr := a + 1 }
  if a = Config.maxAddress then (s.withLine l { c1 with census := .done }).raise .censusDone else s.withLine l c1

/-- What a reply, or none, brings for an exchange (R105 to R107, R110, R113). -/
def State.judge (l : Line) (x : Exchange) (chars : Option (List RxChar)) (s : State) : State :=
  match x.kind with
  | .poll a =>
    match x.discard, stationAt (s.line l).stations a with
    | false, some r =>
      match chars.bind (judgeReply a) with
      | some reply => s.validReply l r reply
      | none => s.miss l r
    | _, _ => s
  | .census a => s.censusJudged l a (chars.bind (judgeCensus a))
  | .announce _ => s

/-- The exchange whose reply window is open ends with a reply or with none: it is judged, and then it is over (R105, R97). -/
def State.endReply (l : Line) (chars : Option (List RxChar)) (s : State) : State :=
  match (s.line l).exchange with
  | none => s
  | some x =>
    if x.sent = false then s
    else
      let s1 := s.judge l x chars
      s1.withLine l (s1.line l).endExchange

end Sys2Proof.Machine
end

