-- ==== Sys2Proof/Machine/Startup.lean ====
section
/-!
DEFINITION. The commands of supply, reset and start-up (chapter 12), and the settling's end (R122, R160 steps 5 to 7).
-/
namespace Sys2Proof.Machine

/-- Step 5 of start-up on one circuit: its Base claim at the start mode's base level, fade 0, owner the start mode (R85). -/
def Circuit.makeBase (m : Mode) (c : Circuit) : Circuit := c.claim (.base m) (c.cfg.base.at m) 0

/-- Step 5 of start-up (R85, R160). -/
def State.startMode (s : State) : State := (s.withMode s.options.startMode).mapCircuits (Circuit.makeBase s.options.startMode)

/-- Step 6 of start-up (R160). -/
def State.startSafe (s : State) : State := s.mapCircuits (Circuit.makeSafe s.asserted)

/-- A line at step 7 of start-up (R98, R160). -/
def LineCtl.start (c : LineCtl) : LineCtl := if c.config.canRun then c.becomeRunning else c

/-- The port at the end of start-up: Starting becomes Idle, and Done keeps its STARTING reply (R148). -/
def Port.beginRunning (p : Port) : Port := if p.state = .starting then { p with state := .idle } else p

/-- Step 7 of start-up (R98, R139, R148, R160). -/
def State.beginRunning (s : State) : State :=
  let s1 := (s.withLink { s.link with sending := true }).startFrame
  let s2 := (s1.withLineA s1.lineA.start).withLineB s1.lineB.start
  let s3 := (s2.withPort s2.port.beginRunning).withPhase .running
  s3.raise .started

/-- The end of step 4 and steps 5 to 7 of start-up (R122, R160). -/
def State.endSettling (s : State) : State := s.adoptInputs.startMode.startSafe.beginRunning

/-- The part stops at the beginning of step 1, or without supply: a transaction in progress is cut off, and SDO goes to high impedance (R146,
R159, R160; log 22, log 23). The accepted level, disagree count and closed count of each contact, safety and cue pin stay as they were: the manual
gives none here, and no accepted level is known before settling (R122; DESIGN CHOICE, log 39). So does the state of each contact (log 37). -/
def State.stop (p : Phase) (s : State) : State := (s.quiesce.withSpi none).withPhase p

/-- POWER_ON: the supply rises and a start-up begins with cause Power-on; while the RESET pin is low the part holds at the beginning of step 1
(R160). A start-up that was running begins again (R161). -/
def execPowerOn (s : State) : Answer :=
  .next (if s.resetLow then s.stop .held else (s.withSpi none).startUp .powerOn)

/-- RESET_PIN_LOW: the part holds at the beginning of step 1 (R139, R159, R160; log 22). Without supply the pin alone changes. -/
def execResetPinLow (s : State) : Answer :=
  .next ((if s.phase = .unpowered then s else s.stop .held).withResetLow true)

/-- RESET_PIN_RELEASE: a start-up begins with cause Pin (R160). Without supply the pin alone changes. -/
def execResetPinRelease (s : State) : Answer :=
  .next ((if s.phase = .unpowered then s else (s.withSpi none).startUp .pin).withResetLow false)

/-- INPUT_SETTLING_END: step 4 ends, and start-up runs to its end (R122, R160). -/
def execInputSettlingEnd (s : State) : Answer := .next (if s.phase = .settling then s.endSettling else s)

/-- SUPPLY_LOST: all live state is lost; the image stays as the store has left it (R159; log 23). -/
def execSupplyLost (s : State) : Answer := .next (s.stop .unpowered)

end Sys2Proof.Machine
end

