-- ==== Sys2Proof/Machine/Port.lean ====
section
/-!
DEFINITION. The management port's transactions (R146 to R151, R164), the requests of attention and identity (R153, R154) and RESTART (R155).
-/
namespace Sys2Proof.Machine

/-- The selector of a request transaction (R146, R164). -/
def requestSelector : Byte := 0xC3

/-- The selector of a fetch transaction (R146, R164). -/
def fetchSelector : Byte := 0x3C

/-! ## What SDO carries (R146, R150, R151) -/

/-- The reply frame that a fetch has to send: that of the slot, in Done (R150). -/
def State.replyDue (s : State) : Option (List Byte) := if s.port.state = .done then s.port.slot.map Reply.frame else none

/-- The byte SDO carries in the byte position that begins now: FFh in the first; in a request the status byte; in a fetch the status byte, then the
reply frame that was due at it, then FFh; in another transaction FFh (R146, R150, R151). -/
def State.sdoByte (s : State) (x : Transfer) : Byte :=
  match x.received with
  | [] => 0xFF
  | selector :: rest =>
    if selector = requestSelector then s.statusByte
    else if selector = fetchSelector then
      match rest with
      | [] => s.statusByte
      | _ :: after => (x.due.getD []).getD after.length 0xFF
    else 0xFF

/-- A transaction with a byte in progress. Where none was, one begins: what SDO carries in it is fixed, and, in the byte that follows a fetch's
selector, the fetch's content (R150, R151). -/
def State.begun (s : State) (x : Transfer) : Transfer :=
  match x.current with
  | some _ => x
  | none => { x with
      due := if x.received = [fetchSelector] then s.replyDue else x.due
      showed := if x.received = [fetchSelector] then s.port.overrun else x.showed
      current := some ⟨s.sdoByte x, []⟩ }

/-- The level SDO takes for the next bit, most significant first (R146). -/
def Transfer.sdoBit (x : Transfer) : Bool :=
  match x.current with
  | none => true
  | some c => c.out.getLsbD (7 - c.bits.length)

/-- A transaction after SDI is sampled once more: the eighth bit completes a byte (R146). -/
def Transfer.sampled (sdi : Bool) (x : Transfer) : Transfer :=
  match x.current with
  | none => x
  | some c =>
    let bits := c.bits ++ [sdi]
    if bits.length < 8 then { x with current := some { c with bits := bits } }
    else { x with received := x.received ++ [byteOf bits], current := none }

/-! ## The transaction's parts (R146) -/

/-- SEL falls, where it is high: a transaction begins (R146). -/
def State.fallSel (s : State) : State :=
  match s.spi with
  | none => (s.withSpi (some ⟨[], none, false, none⟩)).withSdo []
  | some _ => s

/-- SCK falls: SDO changes to the next bit; a byte that begins here takes what it shifts out from this moment (R146, R150, R151; log 35). -/
def State.fallSck (s : State) : State :=
  match s.spi with
  | none => s
  | some x => (s.withSpi (some (s.begun x))).withSdo (s.sdo ++ [(s.begun x).sdoBit])

/-- SCK rises: SDI is sampled (R146). -/
def State.riseSck (sdi : Bool) (s : State) : State :=
  match s.spi with
  | none => s
  | some x => s.withSpi (some (x.sampled sdi))

/-- One bit is clocked: SDO changes at the fall of SCK, and SDI is sampled at its rise (R146). -/
def State.clockBit (s : State) (sdi : Bool) : State := s.fallSck.riseSck sdi

/-- Bits are clocked, one after the other. -/
def State.clockBits (bits : List Bool) (s : State) : State := bits.foldl State.clockBit s

/-- The state in which a fetched port stands (R150). -/
def State.idleState (s : State) : PortState := if s.phase = .settling then .starting else .idle

/-- The effect of a fetch at the rise of SEL (R150): a reply shifted out through its check byte leaves the slot, and an overrun flag that the
status byte showed is cleared. -/
def State.endFetch (x : Transfer) (s : State) : State :=
  let whole := x.due.any fun f => decide (2 + f.length ≤ x.received.length)
  let p := if whole ∧ s.port.state = .done then { s.port with slot := none, state := s.idleState } else s.port
  s.withPort (if 2 ≤ x.received.length ∧ x.showed then { p with overrun := false } else p)

/-- A complete request frame reaches a running port that is Idle or Done: the two checks of R149 complete it at once, or it is accepted. -/
def State.takeRequest (code : Byte) (payload : List Byte) (s : State) : State :=
  match parseRequest code.toNat payload with
  | .unknown => s.answer code .unknownRequest []
  | .badLength => s.answer code .length []
  | .request i => s.accept i

/-- A judged request frame, by the state of the port (R148). -/
def State.takeFrame (j : Judged) (s : State) : State :=
  match s.phase, j with
  | .unpowered, _ => s
  | .held, _ => s
  | .settling, .short code => s.answer code .starting []
  | .settling, .wrongCheck code => s.answer code .starting []
  | .settling, .complete code _ => s.answer code .starting []
  | .running, .short code => if s.port.state = .working then s.discardRequest else s.answer code .frameFail []
  | .running, .wrongCheck code => if s.port.state = .working then s.discardRequest else s.answer code .checkFail []
  | .running, .complete code payload => if s.port.state = .working then s.discardRequest else s.takeRequest code payload

/-- What a transaction brings to the port, by its first byte; the bits of a byte that is not complete are discarded (R146, R164). -/
def State.endTransaction (x : Transfer) (s : State) : State :=
  match x.received with
  | [] => s
  | selector :: rest =>
    if selector = requestSelector then s.takeFrame (judgeFrame rest)
    else if selector = fetchSelector then s.endFetch x
    else s

/-- SEL rises: the transaction is one arrival at the port, and SDO goes to high impedance (R146). -/
def State.riseSel (s : State) : State :=
  match s.spi with
  | none => s
  | some x => (s.endTransaction x).withSpi none

/-- A piece of a transaction: SEL falls where it was high, some bits are clocked, and SEL rises or stays low (R146; log 31). -/
def State.shift (bits : List Bool) (rises : Bool) (s : State) : State :=
  let t := s.fallSel.clockBits bits
  if rises then t.riseSel else t

/-- A piece of a fetch: it begins with its selector, where nothing has been clocked since SEL fell, and goes on with so many bits; SDI carries 0
in them. A transaction that is no fetch is left as it is (log 8, log 31). -/
def State.fetch (bits : Nat) (rises : Bool) (s : State) : State :=
  let filler : List Bool := List.replicate bits false
  match s.spi with
  | none => s.shift (msbFirst fetchSelector ++ filler) rises
  | some x =>
    match x.received, x.current with
    | [], none => s.shift (msbFirst fetchSelector ++ filler) rises
    | [], some _ => s
    | selector :: _, _ => if selector = fetchSelector then s.shift filler rises else s

/-- REQUEST_TRANSACTION: a transaction, or a piece of one (R146 to R149). -/
def execRequestTransaction (piece : RequestPiece) (s : State) : Answer :=
  .next (if s.portLives then s.shift (spiBits piece.bytes ++ piece.bits) piece.rises else s)

/-- FETCH: a fetch transaction, or a piece of one (R150). -/
def execFetch (piece : FetchPiece) (s : State) : Answer :=
  .next (if s.portLives then s.fetch (8 * piece.count + piece.bits) piece.rises else s)

/-! ## Requests -/

/-- READ IDENTITY: vendor, device, revision, start cause (R154). -/
def State.readIdentity (s : State) : Carried := s.done (be1 0x53 ++ be2 0x0180 ++ be1 1 ++ be1 (startCauseCode s.startCause))

/-- READ ATTENTION: the flags, then the mask (R153, R164; log 18). -/
def State.readAttention (s : State) : Carried := s.done (be2 s.port.flags.toNat ++ be2 s.port.mask.toNat)

/-- CLEAR ATTENTION (R153, R164). -/
def State.clearAttention (flags : Nat) (s : State) : Carried :=
  if flags < 2 ^ 13 then (s.withPort { s.port with flags := s.port.flags &&& ~~~(BitVec.ofNat 13 flags) }).done []
  else s.refuse .range

/-- SET ATTENTION MASK (R153, R164; log 18). -/
def State.setAttentionMask (mask : Nat) (s : State) : Carried :=
  if mask < 2 ^ 13 then (s.withPort { s.port with mask := BitVec.ofNat 13 mask }).done [] else s.refuse .range

/-- READ_IDENTITY (R154). -/
def execReadIdentity (s : State) : Answer := .next (s.complete .readIdentity State.readIdentity)

/-- READ_ATTENTION (R153). -/
def execReadAttention (s : State) : Answer := .next (s.complete .readAttention State.readAttention)

/-- CLEAR_ATTENTION (R153). -/
def execClearAttention (flags : Nat) (s : State) : Answer := .next (s.complete (.clearAttention flags) (State.clearAttention flags))

/-- SET_ATTENTION_MASK (R153). -/
def execSetAttentionMask (mask : Nat) (s : State) : Answer :=
  .next (s.complete (.setAttentionMask mask) (State.storedWrite (State.setAttentionMask mask)))

/-- RESTART (R155): OCCUPIED while the store is busy; else a start-up, whose first step empties the slot of the OK reply. -/
def execRestart (s : State) : Answer :=
  .next (s.requestStep .restart fun t =>
    if t.storeBusy then t.answer (requestEcho .restart) .occupied [] else t.startUp .restart)

end Sys2Proof.Machine
end

