-- ==== Sys2Proof/Machine/Bindings.lean ====
section
/-!
DEFINITION. The commands of the binding table (chapter 3).
-/
namespace Sys2Proof.Machine

/-- The arbiter clears slot `n`'s claims on every circuit (R42). -/
def State.clearSlotClaims (n : Nat) (s : State) : State := s.mapCircuits (Circuit.clearSlot n)

/-- The arbiter ends slot `n`'s movement (R42 step 1, R66). -/
def State.endSlotMovement (n : Nat) (s : State) : State := s.endMovement (LocalOwner.hasSlot n)

/-- A slot written. -/
def State.putSlot (n : Nat) (x : Slot) (s : State) : State := s.withSlots (s.slots.set n x)

/-- ADD BINDING, after the STORE_BUSY check (R43). -/
def State.addBinding (r : RawBinding) (s : State) : Carried :=
  match checkBinding r with
  | .error e => s.refuse e
  | .ok b =>
    match lowestFree s.slots with
    | none => s.refuse .tableFull
    | some n =>
      if duplicateOf s.slots b none then s.refuse .duplicate
      else if Config.perKey ≤ (indexList s.index b.key b.kind).length then s.refuse .keyFull
      else ((s.putSlot n (.live b)).withIndex (indexInsert b.key b.kind n s.index)).done (be2 n)

/-- The index after a replacement (R41): unchanged when the pair is. -/
def replaceInIndex (old new : Binding) (n : Nat) (index : List IndexEntry) : List IndexEntry :=
  if old.key = new.key ∧ old.kind = new.kind then index
  else indexInsert new.key new.kind n (indexRemove old.key old.kind n index)

/-- The number of slots of a pair's list, not counting `n` (R44 check 7). -/
def othersOf (index : List IndexEntry) (b : Binding) (n : Nat) : Nat := ((indexList index b.key b.kind).filter (· ≠ n)).length

/-- REPLACE BINDING, after the STORE_BUSY check (R44). -/
def State.replaceBinding (n : Nat) (r : RawBinding) (s : State) : Carried :=
  if !within 0 1023 n then s.refuse .range
  else
    match (slotAt s.slots n).record with
    | none => s.refuse .notFound
    | some old =>
      match checkBinding r with
      | .error e => s.refuse e
      | .ok b =>
        if duplicateOf s.slots b (some n) then s.refuse .duplicate
        else if Config.perKey ≤ othersOf s.index b n then s.refuse .keyFull
        else (((s.clearSlotClaims n).putSlot n ((slotAt s.slots n).rewrite b)).withIndex (replaceInIndex old b n s.index)).done []

/-- A slot is retired (R45): its claims are cleared, it leaves the index and becomes Free. A Free slot is left as it is. -/
def State.retire (n : Nat) (s : State) : State :=
  match (slotAt s.slots n).record with
  | none => s
  | some b => ((s.clearSlotClaims n).withIndex (indexRemove b.key b.kind n s.index)).putSlot n .free

/-- RETIRE BINDING, after the STORE_BUSY check (R45). -/
def State.retireBinding (n : Nat) (s : State) : Carried :=
  if !within 0 1023 n then s.refuse .range
  else if (slotAt s.slots n).record.isNone then s.refuse .notFound
  else (s.retire n).done []

/-- Slots retired one after another (R46). -/
def State.retireAll (ns : List Nat) (s : State) : State := ns.foldl (fun t n => t.retire n) s

/-- RETIRE SOURCE, after the STORE_BUSY check (R46). -/
def State.retireSource (k : RawKey) (s : State) : Carried :=
  match keyOf k with
  | none => s.refuse .range
  | some key => (s.retireAll (slotsOfKey s.index key)).done (be1 (slotsOfKey s.index key).length)

/-- DISABLE, after the STORE_BUSY check (R47). -/
def State.disable (n : Nat) (s : State) : Carried :=
  if !within 0 1023 n then s.refuse .range
  else
    match slotAt s.slots n with
    | .free => s.refuse .notFound
    | .live b => ((s.endSlotMovement n).putSlot n (.disabled b)).done []
    | .disabled _ => s.done []

/-- ENABLE, after the STORE_BUSY check (R48). -/
def State.enable (n : Nat) (s : State) : Carried :=
  if !within 0 1023 n then s.refuse .range
  else
    match slotAt s.slots n with
    | .free => s.refuse .notFound
    | .live _ => s.done []
    | .disabled b => (s.putSlot n (.live b)).done []

/-- The code of a slot's state in a reply: Free 0, Live 1, Disabled 2, as R35 names them (log 17), and its record. -/
def slotBytes (x : Slot) (b : Binding) : List Byte := be1 x.code ++ bindingBytes b

/-- READ BINDING (R49). -/
def State.readBinding (n : Nat) (s : State) : Carried :=
  if !within 0 1023 n then s.refuse .range
  else
    match (slotAt s.slots n).record with
    | none => s.refuse .notFound
    | some b => s.done (slotBytes (slotAt s.slots n) b)

/-- FIND BINDINGS (R50). -/
def State.findBindings (k : RawKey) (kind : Nat) (s : State) : Carried :=
  match keyOf k, kindOf kind with
  | some key, some e => s.done ((indexList s.index key e).flatMap fun n => be2 n ++ be1 (slotAt s.slots n).code)
  | _, _ => s.refuse .range

/-- ADD_BINDING (R43). -/
def execAddBinding (record : RawBinding) (s : State) : Answer :=
  .next (s.complete (.addBinding record) (State.storedWrite (State.addBinding record)))

/-- REPLACE_BINDING (R44). -/
def execReplaceBinding (slot : Nat) (record : RawBinding) (s : State) : Answer :=
  .next (s.complete (.replaceBinding slot record) (State.storedWrite (State.replaceBinding slot record)))

/-- RETIRE_BINDING (R45). -/
def execRetireBinding (slot : Nat) (s : State) : Answer :=
  .next (s.complete (.retireBinding slot) (State.storedWrite (State.retireBinding slot)))

/-- RETIRE_SOURCE (R46). -/
def execRetireSource (key : RawKey) (s : State) : Answer :=
  .next (s.complete (.retireSource key) (State.storedWrite (State.retireSource key)))

/-- DISABLE (R47). -/
def execDisable (slot : Nat) (s : State) : Answer := .next (s.complete (.disable slot) (State.storedWrite (State.disable slot)))

/-- ENABLE (R48). -/
def execEnable (slot : Nat) (s : State) : Answer := .next (s.complete (.enable slot) (State.storedWrite (State.enable slot)))

/-- READ_BINDING (R49). -/
def execReadBinding (slot : Nat) (s : State) : Answer := .next (s.complete (.readBinding slot) (State.readBinding slot))

/-- FIND_BINDINGS (R50). -/
def execFindBindings (key : RawKey) (kind : Nat) (s : State) : Answer :=
  .next (s.complete (.findBindings key kind) (State.findBindings key kind))

end Sys2Proof.Machine
end

