-- ==== Sys2Proof/Machine/Circuits.lean ====
section
/-!
DEFINITION. The commands of the circuit arbiter (chapters 1 and 2): configuration, the port's claims and releases, reads, the fade tick.
-/
namespace Sys2Proof.Machine

/-- The circuits `first` to `last`. -/
def spanOf (first last : Nat) : List Nat := List.range' first (last + 1 - first)

/-- The records of `count` circuits from `first` (R3, R19). -/
def State.circuitRecords (s : State) (first count : Nat) : List Circuit := (List.range' first count).filterMap (circuitAt s.circuits)

/-- Whether the record that would result in every circuit of a span passes R2's fourth check. -/
def State.spanAgrees (s : State) (first last : Nat) (f : CircuitFields) : Bool :=
  (spanOf first last).all fun n => (circuitAt s.circuits n).all fun c => (c.cfg.withFields f).limitsAgree

/-- One circuit of a configuration write (R2, R13 to R15). -/
def State.writeCircuit (s : State) (f : CircuitFields) (c : Circuit) : Circuit :=
  c.write (c.cfg.withFields f) s.mode s.asserted s.options.safeReleaseFade

/-- SET CIRCUIT CONFIG, after the STORE_BUSY check (R2). -/
def State.setCircuitConfig (first last : Nat) (f : CircuitFields) (s : State) : Carried :=
  if !(within 1 Config.circuits first && within 1 Config.circuits last && decide (first ≤ last)) then s.refuse .range
  else if !circuitFieldsInRange f then s.refuse .range
  else if !s.spanAgrees first last f then s.refuse .range
  else (s.forCircuits (spanOf first last) (s.writeCircuit f)).done []

/-- READ CIRCUIT CONFIG (R3). -/
def State.readCircuitConfig (first count : Nat) (s : State) : Carried :=
  if circuitWindow first count then s.done ((s.circuitRecords first count).flatMap fun c => configBytes c.cfg) else s.refuse .range

/-- READ CIRCUIT STATE (R19, R166). -/
def State.readCircuitState (first count : Nat) (s : State) : Carried :=
  if circuitWindow first count then s.done ((s.circuitRecords first count).flatMap circuitBytes) else s.refuse .range

/-- The claim a port request makes on a layer it may name: Local with no owner, Show with owner port (R17). -/
def portStake : Nat → Option Stake
  | 1 => some (.local' none)
  | 2 => some (.show' .port)
  | _ => none

/-- CLAIM LEVEL (R17). -/
def State.claimLevel (circuit layer level fade : Nat) (s : State) : Carried :=
  match portStake layer with
  | none => s.refuse .range
  | some w =>
    if within 1 Config.circuits circuit && within 0 1000 level && within 0 6000 fade then
      (s.onCircuit circuit (Circuit.claim w level fade)).done []
    else s.refuse .range

/-- RELEASE LAYER (R18). -/
def State.releaseLayer (circuit layer fade : Nat) (s : State) : Carried :=
  match portStake layer with
  | none => s.refuse .range
  | some w =>
    if within 1 Config.circuits circuit && within 0 6000 fade then (s.onCircuit circuit (Circuit.release w.layer fade)).done []
    else s.refuse .range

/-- SET_CIRCUIT_CONFIG (R2). -/
def execSetCircuitConfig (first last : Nat) (fields : CircuitFields) (s : State) : Answer :=
  .next (s.complete (.setCircuitConfig first last fields) (State.storedWrite (State.setCircuitConfig first last fields)))

/-- READ_CIRCUIT_CONFIG (R3). -/
def execReadCircuitConfig (first count : Nat) (s : State) : Answer :=
  .next (s.complete (.readCircuitConfig first count) (State.readCircuitConfig first count))

/-- CLAIM_LEVEL (R17). -/
def execClaimLevel (circuit layer level fade : Nat) (s : State) : Answer :=
  .next (s.complete (.claimLevel circuit layer level fade) (State.claimLevel circuit layer level fade))

/-- RELEASE_LAYER (R18). -/
def execReleaseLayer (circuit layer fade : Nat) (s : State) : Answer :=
  .next (s.complete (.releaseLayer circuit layer fade) (State.releaseLayer circuit layer fade))

/-- READ_CIRCUIT_STATE (R19). -/
def execReadCircuitState (first count : Nat) (s : State) : Answer :=
  .next (s.complete (.readCircuitState first count) (State.readCircuitState first count))

/-! ## The level engine -/

/-- FADE_TICK (R16). The tick runs through start-up too, where it finds nothing to move (R160). -/
def execFadeTick (s : State) : Answer := .next (s.whenRunning (State.mapCircuits Circuit.tick))

/-- FADE_COMPLETE: a Fading claim whose count has reached its duration becomes Steady at its target (R22; log 7). -/
def execFadeComplete (circuit : Nat) (layer : Layer) (s : State) : Answer :=
  .next (s.whenRunning (State.onCircuit circuit (Circuit.finish layer)))

/-- HANDOVER_END: a handover whose count has reached its duration is removed (R32; log 7). -/
def execHandoverEnd (circuit : Nat) (s : State) : Answer := .next (s.whenRunning (State.onCircuit circuit Circuit.endHandover))

end Sys2Proof.Machine
end

