-- ==== Sys2Proof/Machine/Events.lean ====
section
/-!
DEFINITION. INJECT EVENT (chapter 4). Resolution itself is `State.resolve` of Ops.lean.
-/
namespace Sys2Proof.Machine

/-- INJECT EVENT (R69): its reply counts the matching set at the lookup. -/
def State.injectEvent (k : RawKey) (kind : Nat) (s : State) : Carried :=
  match keyOf k, kindOf kind with
  | some key, some e =>
    if kindSuits key e then (s.resolve key e).done (be1 (s.matching key e).length) else s.refuse .mismatch
  | _, _ => s.refuse .range

/-- INJECT_EVENT (R69). -/
def execInjectEvent (key : RawKey) (kind : Nat) (s : State) : Answer :=
  .next (s.complete (.injectEvent key kind) (State.injectEvent key kind))

end Sys2Proof.Machine
end

