-- ==== Sys2Proof/Machine/Inputs.lean ====
section
/-!
DEFINITION. The commands of the contact input unit (chapter 8). The unit's own operations are in Contacts.lean.
-/
namespace Sys2Proof.Machine

/-! ## Requests -/

/-- The cue line an input number names (R165). -/
def cueOf : Nat → Option CueLine
  | 27 => some .cue1
  | 28 => some .cue2
  | _ => none

/-- The safety input an input number names (R165). -/
def safeOf : Nat → Option SafeInput
  | 25 => some .safe1
  | 26 => some .safe2
  | _ => none

/-- A contact input after a configuration write: the accepted level is kept, the disagree count is 0 and a state is adopted (R120). -/
def ContactInput.configure (f : InputFields) (x : ContactInput) : ContactInput :=
  ContactInput.adopt ⟨x.config.withFields f, { x.pin with disagree := 0 }, x.state, x.closedCount⟩ .closed

/-- SET INPUT CONFIG, after the STORE_BUSY check (R120). -/
def State.setInputConfig (input : Nat) (f : InputFields) (s : State) : Carried :=
  match cueOf input with
  | some c =>
    if anyContactField f then s.refuse .mismatch
    else if inputFieldsInRange f then
      (s.withCue c { s.cue c with edge := (f.edge.bind edgeOf).getD (s.cue c).edge }).done []
    else s.refuse .range
  | none =>
    match s.contact input with
    | none => s.refuse .range
    | some x =>
      if f.edge.isSome then s.refuse .mismatch
      else if inputFieldsInRange f then (s.withContact input (x.configure f)).done []
      else s.refuse .range

/-- Position code: open 0, closed 1 (R121; log 17). -/
def positionCode (closed : Bool) : Nat := if closed then 1 else 0

/-- READ INPUT's reply for a contact input (R121, R165). A Maintained input that is Closed has a closed count that no rule sets: it is sent as
the 0 it holds (DESIGN CHOICE, log 26). -/
def contactBytes (x : ContactInput) : List Byte :=
  be1 (inputKindCode x.config.kind) ++ be1 (if x.config.pullUp then 0 else 1) ++ be1 (if x.config.closedHigh then 1 else 0)
    ++ be1 x.config.debounce ++ be2 x.config.holdTime ++ be2 x.config.stuckTime
    ++ be1 (positionCode (x.config.isClosed x.pin.level)) ++ be1 (inputStateCode x.state)
    ++ (if x.state.down then be3 x.closedCount else [])

/-- READ INPUT's reply for a safety input: accepted position, whether asserted (R121, R123). -/
def safeBytes (p : Pin) : List Byte := be1 (positionCode (!p.level)) ++ be1 (yesNoCode p.level)

/-- READ INPUT's reply for a cue line: edge, accepted level (R121; log 17: high 0, low 1). -/
def cueBytes (x : CueInput) : List Byte := be1 (edgeCode x.edge) ++ be1 (if x.pin.level then 0 else 1)

/-- READ INPUT (R121). -/
def State.readInput (input : Nat) (s : State) : Carried :=
  match cueOf input, safeOf input with
  | some c, _ => s.done (cueBytes (s.cue c))
  | none, some i => s.done (safeBytes (s.safePin i))
  | none, none =>
    match s.contact input with
    | none => s.refuse .range
    | some x => s.done (contactBytes x)

/-- SET_INPUT_CONFIG (R120). -/
def execSetInputConfig (input : Nat) (fields : InputFields) (s : State) : Answer :=
  .next (s.complete (.setInputConfig input fields) (State.storedWrite (State.setInputConfig input fields)))

/-- READ_INPUT (R121). -/
def execReadInput (input : Nat) (s : State) : Answer := .next (s.complete (.readInput input) (State.readInput input))

/-! ## Arrivals at the unit -/

/-- A contact sample: of step 4 of start-up while the inputs settle, else of the running unit (R116, R122). -/
def State.contactSample (pins : BitVec 28) (order : List Nat) (s : State) : State :=
  match s.phase with
  | .settling => s.settleSample pins
  | .running => s.sampleAll pins order
  | .held => s
  | .unpowered => s

/-- A change to a contact input where a condition on its record holds (log 7, log 8). -/
def State.onContact (n : Nat) (occasion : ContactInput → Bool) (f : ContactInput → State → State) (s : State) : State :=
  match s.contact n with
  | none => s
  | some x => if occasion x then f x s else s

/-- Whether a record is that of a Momentary input. -/
def ContactInput.momentary (x : ContactInput) : Bool := decide (x.config.kind = .momentary)

/-- An accepted close of a Momentary input that is Open (R117). -/
def State.acceptClose (n : Nat) : State → State :=
  State.onContact n (fun x => x.momentary && decide (x.state = .open'))
    fun x s => s.contactClosed n { x with pin := x.pin.adopt x.config.closedHigh }

/-- The hold time of a Momentary input that is Closed is reached (R117). -/
def State.reachHold (n : Nat) : State → State :=
  State.onContact n (fun x => x.momentary && decide (x.state = .closed))
    fun x s => s.contactHeld n { x with closedCount := x.config.holdTime }

/-- The stuck time of a Momentary input that is Closed or Held is reached; a stuck time of 0 never is (R118). -/
def State.reachStuck (n : Nat) : State → State :=
  State.onContact n (fun x => x.momentary && x.state.down && decide (x.config.stuckTime ≠ 0))
    fun x s => s.contactStuck n { x with closedCount := x.config.stuckTime * 1000 }

/-- An accepted open of a Momentary input that is Closed, Held or Stuck (R118). -/
def State.acceptOpen (n : Nat) : State → State :=
  State.onContact n (fun x => x.momentary && (x.state.down || decide (x.state = .stuck)))
    fun x s => s.contactOpened n { x with pin := x.pin.adopt (!x.config.closedHigh) }

/-- An accepted change of a Maintained input to a position it does not have (R119). -/
def State.turnMaintained (n : Nat) (closed : Bool) : State → State :=
  State.onContact n (fun x => decide (x.config.kind = .maintained) && decide (x.config.isClosed x.pin.level ≠ closed))
    fun x s => s.contactTurned n { x with pin := x.pin.adopt (if closed then x.config.closedHigh else !x.config.closedHigh) }

/-- A cue event: an accepted change in its edge's direction (R127; log 7). -/
def State.cueHappens (c : CueLine) (s : State) : State :=
  (s.withCue c { s.cue c with pin := (s.cue c).pin.adopt (s.cue c).edge.level }).cueArrives c

/-- CONTACT_SAMPLE (R116, R122). -/
def execContactSample (pins : BitVec 28) (order : List Nat) (s : State) : Answer := .next (s.contactSample pins order)

/-- ACCEPTED_CLOSE (R117). -/
def execAcceptedClose (input : Nat) (s : State) : Answer := .next (s.whenRunning (State.acceptClose input))

/-- HOLD_TIME_REACHED (R117). -/
def execHoldTimeReached (input : Nat) (s : State) : Answer := .next (s.whenRunning (State.reachHold input))

/-- STUCK_TIME_REACHED (R118). -/
def execStuckTimeReached (input : Nat) (s : State) : Answer := .next (s.whenRunning (State.reachStuck input))

/-- ACCEPTED_OPEN (R118). -/
def execAcceptedOpen (input : Nat) (s : State) : Answer := .next (s.whenRunning (State.acceptOpen input))

/-- MAINTAINED_CHANGE (R119). -/
def execMaintainedChange (input : Nat) (closed : Bool) (s : State) : Answer :=
  .next (s.whenRunning (State.turnMaintained input closed))

/-- SAFE_ASSERT: an accepted change to open of an input that is not asserted (R124). -/
def execSafeAssert (input : SafeInput) (s : State) : Answer :=
  .next (s.whenRunning fun t => if t.asserted.has input then t else t.assertInput input)

/-- SAFE_DEASSERT: an accepted change to closed of an input that is asserted (R125). -/
def execSafeDeassert (input : SafeInput) (s : State) : Answer :=
  .next (s.whenRunning fun t => if t.asserted.has input then t.deassertInput input else t)

/-- CUE_EVENT (R127, R134). -/
def execCueEvent (line : CueLine) (s : State) : Answer := .next (s.whenRunning (State.cueHappens line))

end Sys2Proof.Machine
end

