-- ==== Sys2Proof/Machine/Modes.lean ====
section
/-!
DEFINITION. The commands of mode control (chapter 6). A mode change itself is `State.changeMode` of Ops.lean.
-/
namespace Sys2Proof.Machine

/-- SET MODE (R87): the reply carries the house mode after it and whether it changed. -/
def State.setMode (mode : Nat) (fade : Option Nat) (s : State) : Carried :=
  match modeOf mode with
  | none => s.refuse .range
  | some m =>
    if optWithin 0 6000 fade then
      (s.changeMode m (fade.getD s.options.modeFade)).done (be1 (modeCode m) ++ be1 (yesNoCode (decide (s.mode ≠ m))))
    else s.refuse .range

/-- READ MODE: the house mode and the five options in the order of R86 (R88). -/
def State.readMode (s : State) : Carried :=
  s.done (be1 (modeCode s.mode) ++ be2 s.options.modeFade ++ be2 s.options.defaultFade ++ be2 s.options.defaultRate
    ++ be2 s.options.safeReleaseFade ++ be1 (modeCode s.options.startMode))

/-- SET MODE OPTIONS, after the STORE_BUSY check (R94). -/
def State.setModeOptions (f : OptionFields) (s : State) : Carried :=
  if optionFieldsInRange f then (s.withOptions (s.options.withFields f)).done [] else s.refuse .range

/-- SET_MODE (R87). -/
def execSetMode (mode : Nat) (fade : Option Nat) (s : State) : Answer := .next (s.complete (.setMode mode fade) (State.setMode mode fade))

/-- READ_MODE (R88). -/
def execReadMode (s : State) : Answer := .next (s.complete .readMode State.readMode)

/-- SET_MODE_OPTIONS (R94). -/
def execSetModeOptions (fields : OptionFields) (s : State) : Answer :=
  .next (s.complete (.setModeOptions fields) (State.storedWrite (State.setModeOptions fields)))

end Sys2Proof.Machine
end

