-- ==== Sys2Proof/Machine/Rack.lean ====
section
/-!
DEFINITION. The commands of the rack link transmitter (chapter 10). A frame start itself is `State.startFrame` of Ops.lean.
-/
namespace Sys2Proof.Machine

/-- SET LINK CONFIG, after the STORE_BUSY check (R144). -/
def State.setLinkConfig (period : Nat) (s : State) : Carried :=
  if within 10 100 period then (s.withLink { s.link with period := period }).done [] else s.refuse .range

/-- READ RACK LINK (R145). -/
def State.readRackLink (s : State) : Carried :=
  s.done (be1 (if s.link.sending then 1 else 0) ++ be1 s.link.period ++ be1 s.link.inUse ++ be1 (yesNoCode s.link.frame.isSome)
    ++ be1 (yesNoCode s.link.owed) ++ be1 s.link.late)

/-- What the frame in flight puts on RTX, one item for each bit time of 4 µs from its break on; nothing where there is none (R140). -/
def State.rtx (s : State) : List Bool := (s.link.frame.map rackSignal).getD []

/-- The level of RTX, true at the mark level, in a bit time of 4 µs counted from the start of the frame in flight: the frame's own while it is
sent, and the mark level while the link is Off, where no frame is in flight, and after the frame's last stop bit (R139, R140). -/
def State.rtxLevel (s : State) (bit : Nat) : Bool := !s.link.sending || s.rtx[bit]?.getD true

/-- The next-start time is reached: a frame starts, or is owed where one is in flight (R143). -/
def State.reachNextStart (s : State) : State :=
  if s.link.sending = false then s
  else if s.link.frame.isNone then s.startFrame
  else s.withLink { s.link with owed := true, nextStart := none }

/-- The frame in flight ends; an owed start is then taken at once and counted late (R143). -/
def State.endFrame (s : State) : State :=
  if s.link.frame.isNone then s
  else if s.link.owed then (s.withLink { s.link with late := bump s.link.late }).startFrame
  else s.withLink { s.link with frame := none }

/-- SET_LINK_CONFIG (R144). -/
def execSetLinkConfig (period : Nat) (s : State) : Answer :=
  .next (s.complete (.setLinkConfig period) (State.storedWrite (State.setLinkConfig period)))

/-- READ_RACK_LINK (R145). -/
def execReadRackLink (s : State) : Answer := .next (s.complete .readRackLink State.readRackLink)

/-- FRAME_START: the next-start time is reached (R141, R143). -/
def execFrameStart (s : State) : Answer := .next (s.whenRunning State.reachNextStart)

/-- FRAME_END (R143). -/
def execFrameEnd (s : State) : Answer := .next (s.whenRunning State.endFrame)

end Sys2Proof.Machine
end

