-- ==== Sys2Proof/Machine/SettingsStore.lean ====
section
/-!
DEFINITION. The commands of the settings store (R156 to R159).
-/
namespace Sys2Proof.Machine

/-- SAVE (R157): the tables are copied, and the pages are erased from this completion on, so no image is there until the copy has been programmed
with its check and verified (log 14: what the pages hold in between). -/
def State.save (s : State) : Carried :=
  if s.storeBusy then s.refuse .storeBusy else (s.withStore ⟨.saving, false, [], some s.stored⟩).done []

/-- ERASE STORE (R158). -/
def State.eraseStore (s : State) : Carried :=
  if s.storeBusy then s.refuse .storeBusy else (s.withStore ⟨.erasing, false, [], none⟩).done []

/-- READ STORE STATE (R159). -/
def State.readStoreState (s : State) : Carried := s.done (be1 (storeStateCode s.store.state) ++ be1 (yesNoCode s.store.valid))

/-- The Saving operation ends with its verification's outcome (R157): the pages hold the copy's image, or, where verification fails, none (log 14). -/
def State.endSave (verified : Bool) (s : State) : State :=
  if s.store.state ≠ .saving then s
  else if verified then (s.withStore ⟨.ready, true, (s.store.copy.map imageFile).getD [], none⟩).raise .storeDone
  else (s.withStore ⟨.ready, false, [], none⟩).raise .storeFail

/-- The Erasing operation ends (R158). -/
def State.endErase (s : State) : State :=
  if s.store.state ≠ .erasing then s else (s.withStore ⟨.ready, false, [], none⟩).raise .storeDone

/-- SAVE (R157). -/
def execSave (s : State) : Answer := .next (s.complete .save State.save)

/-- ERASE_STORE (R158). -/
def execEraseStore (s : State) : Answer := .next (s.complete .eraseStore State.eraseStore)

/-- READ_STORE_STATE (R159). -/
def execReadStoreState (s : State) : Answer := .next (s.complete .readStoreState State.readStoreState)

/-- SAVE_OPERATION_END (R157). -/
def execSaveOperationEnd (verified : Bool) (s : State) : Answer := .next (s.whenRunning (State.endSave verified))

/-- ERASE_OPERATION_END (R158). -/
def execEraseOperationEnd (s : State) : Answer := .next (s.whenRunning State.endErase)

end Sys2Proof.Machine
end

