-- ==== Sys2Proof/Machine/Stages.lean ====
section
/-!
DEFINITION. The commands of the stage unit (chapter 9). The transfer itself is in Cues.lean.
-/
namespace Sys2Proof.Machine

/-- Whether the values of a stage entry are in range (R129). -/
def entryInRange : StageForm → Bool
  | .claim level fade => within 0 1000 level && within 0 6000 fade
  | .release fade => within 0 6000 fade

/-- A stage with an entry added or replaced (R129). -/
def Stage.enter (c : Nat) (e : StageForm) (x : Stage) : Stage := { x with state := .loading, entries := putEntry c e x.entries }

/-- STAGE ENTRY (R129). -/
def State.stageEntry (stage circuit : Nat) (entry : StageForm) (s : State) : Carried :=
  match stageIdOf stage with
  | none => s.refuse .range
  | some i =>
    if !(within 1 Config.circuits circuit && entryInRange entry) then s.refuse .range
    else if (s.stage i).state = .standby then s.refuse .stageArmed
    else (s.withStage i ((s.stage i).enter circuit entry)).done (be2 ((s.stage i).enter circuit entry).entries.length)

/-- STAGE CLEAR (R130). -/
def State.stageClear (stage : Nat) (s : State) : Carried :=
  match stageIdOf stage with
  | none => s.refuse .range
  | some i => if (s.stage i).state = .standby then s.refuse .stageArmed else (s.withStage i (s.stage i).emptied).done []

/-- SET STAGE TRIGGER (R131). -/
def State.setStageTrigger (stage trigger : Nat) (s : State) : Carried :=
  match stageIdOf stage, triggerOf trigger with
  | some i, some t =>
    if (s.stage i).state = .standby then s.refuse .stageArmed
    else (s.withStage i { s.stage i with trigger := t }).done []
  | _, _ => s.refuse .range

/-- STANDBY (R132). -/
def State.standby (stage : Nat) (s : State) : Carried :=
  match stageIdOf stage with
  | none => s.refuse .range
  | some i =>
    if (s.stage i).state = .empty then s.refuse .stageEmpty else (s.withStage i { s.stage i with state := .standby }).done []

/-- UNSTANDBY (R132). -/
def State.unstandby (stage : Nat) (s : State) : Carried :=
  match stageIdOf stage with
  | none => s.refuse .range
  | some i => if (s.stage i).state = .standby then (s.withStage i { s.stage i with state := .loading }).done [] else s.done []

/-- GO: the reply lists the stages transferred, each followed by its number of entries (R133; DEDUCED, log 34: that the two interleave). -/
def State.go (stage : Nat) (s : State) : Carried :=
  match stageIdOf stage with
  | none => s.refuse .range
  | some i =>
    if (s.stage i).state = .standby then
      (s.transfer i).done ((s.transferred i).flatMap fun e => be1 e.1.number ++ be2 e.2)
    else s.refuse .notReady

/-- READ STAGE (R138). -/
def State.readStage (stage first count : Nat) (s : State) : Carried :=
  match stageIdOf stage with
  | none => s.refuse .range
  | some i =>
    if within 0 383 first && within 1 60 count then
      s.done (be1 (stageStateCode (s.stage i).state) ++ be1 (triggerCode (s.stage i).trigger) ++ be2 (s.stage i).entries.length
        ++ be1 s.ignored1 ++ be1 s.ignored2 ++ (window first count (s.stage i).entries).flatMap stageEntryBytes)
    else s.refuse .range

/-- STAGE_ENTRY (R129). -/
def execStageEntry (stage circuit : Nat) (entry : StageForm) (s : State) : Answer :=
  .next (s.complete (.stageEntry stage circuit entry) (State.stageEntry stage circuit entry))

/-- STAGE_CLEAR (R130). -/
def execStageClear (stage : Nat) (s : State) : Answer := .next (s.complete (.stageClear stage) (State.stageClear stage))

/-- SET_STAGE_TRIGGER (R131). -/
def execSetStageTrigger (stage trigger : Nat) (s : State) : Answer :=
  .next (s.complete (.setStageTrigger stage trigger) (State.setStageTrigger stage trigger))

/-- STANDBY (R132). -/
def execStandby (stage : Nat) (s : State) : Answer := .next (s.complete (.standby stage) (State.standby stage))

/-- UNSTANDBY (R132). -/
def execUnstandby (stage : Nat) (s : State) : Answer := .next (s.complete (.unstandby stage) (State.unstandby stage))

/-- GO (R133). -/
def execGo (stage : Nat) (s : State) : Answer := .next (s.complete (.go stage) (State.go stage))

/-- READ_STAGE (R138). -/
def execReadStage (stage first count : Nat) (s : State) : Answer :=
  .next (s.complete (.readStage stage first count) (State.readStage stage first count))

end Sys2Proof.Machine
end

