-- ==== Sys2Proof/Machine/Stations.lean ====
section
/-!
DEFINITION. The commands of the station lines (chapter 7). The controllers' own operations are in Lines.lean.
-/
namespace Sys2Proof.Machine

/-! ## Requests -/

/-- SET LINE CONFIG, after the STORE_BUSY check (R97). -/
def State.setLineConfig (line : Nat) (f : LineFields) (s : State) : Carried :=
  match lineOf line with
  | none => s.refuse .range
  | some l =>
    if lineFieldsInRange f then
      (s.withLine l { s.line l with config := (s.line l).config.withFields f }.follow).done []
    else s.refuse .range

/-- A record inserted in a line's poll list (R109). -/
def LineCtl.enrol (r : Station) (c : LineCtl) : LineCtl := { c with stations := insertStation r c.stations }

/-- ENROL STATION, after the STORE_BUSY check (R109; log 20: a code that is neither yes nor no). -/
def State.enrolStation (line address buttons indicators : Nat) (s : State) : Carried :=
  match lineOf line, yesNoOf indicators with
  | some l, some has =>
    if !(within 1 Config.maxAddress address && within 1 10 buttons) then s.refuse .range
    else if (stationAt (s.line l).stations address).isSome then s.refuse .enrolled
    else if Config.stations ≤ (s.line l).stations.length then s.refuse .tableFull
    else (s.withLine l ((s.line l).enrol (Station.fresh ⟨address, buttons, has⟩))).done []
  | _, _ => s.refuse .range

/-- An exchange with a station is marked for its reply to be discarded (R110). -/
def Exchange.forget (address : Nat) (x : Exchange) : Exchange := if x.kind = .poll address then { x with discard := true } else x

/-- A line's controller when a station is unenrolled: its exchange's reply is to be discarded, its repeat and its record are dropped
(R110). -/
def LineCtl.unenrol (address : Nat) (c : LineCtl) : LineCtl :=
  { c with
    exchange := c.exchange.map (Exchange.forget address)
    again := if c.again = some (.station address) then none else c.again
    stations := c.stations.filter fun r => decide (r.ident.address ≠ address) }

/-- UNENROL STATION, after the STORE_BUSY check (R110). -/
def State.unenrolStation (line address : Nat) (s : State) : Carried :=
  match lineOf line with
  | none => s.refuse .range
  | some l =>
    if !within 1 Config.maxAddress address then s.refuse .range
    else if (stationAt (s.line l).stations address).isNone then s.refuse .notFound
    else
      let t := s.endMovement (pickStation l address)
      (t.withLine l ((t.line l).unenrol address)).done []

/-- The code of a last accepted bit: 0, 1, or absent 2 (R111; log 17). -/
def lastBitCode : Option Bool → Nat
  | some false => 0
  | some true => 1
  | none => 2

/-- The fields of a station record, in the order of R100 (R111). -/
def stationBytes (r : Station) : List Byte :=
  be1 r.ident.address ++ be1 r.ident.buttons ++ be1 (yesNoCode r.ident.indicators) ++ be1 (stationStateCode r.state)
    ++ be1 r.misses ++ be1 (lastBitCode r.lastBit) ++ be1 r.eventsLost

/-- READ STATION (R111). -/
def State.readStation (line address : Nat) (s : State) : Carried :=
  match lineOf line with
  | none => s.refuse .range
  | some l =>
    if !within 1 Config.maxAddress address then s.refuse .range
    else
      match stationAt (s.line l).stations address with
      | none => s.refuse .notFound
      | some r => s.done (stationBytes r)

/-- The reply of READ LINE (R111). -/
def lineBytes (c : LineCtl) : List Byte :=
  be1 (yesNoCode c.config.enabled) ++ be1 c.config.divisor ++ be1 c.config.window ++ be1 (lineStateCode c.state)
    ++ be1 c.collisions ++ be1 c.round ++ be1 (yesNoCode c.announce.isSome) ++ be1 (censusStateCode c.census)
    ++ be1 c.censusList.length ++ be1 c.stations.length
    ++ c.stations.flatMap fun r => be1 r.ident.address ++ be1 (stationStateCode r.state)

/-- READ LINE (R111). -/
def State.readLine (line : Nat) (s : State) : Carried :=
  match lineOf line with
  | none => s.refuse .range
  | some l => s.done (lineBytes (s.line l))

/-- A census begun (R112). -/
def LineCtl.startCensus (c : LineCtl) : LineCtl := { c with census := .running, censusList := [], censusAddr := 1 }

/-- CENSUS START (R112). -/
def State.censusStart (line : Nat) (s : State) : Carried :=
  match lineOf line with
  | none => s.refuse .range
  | some l =>
    if (s.line l).state ≠ .running then s.refuse .lineOff
    else if (s.line l).census = .running then s.refuse .censusBusy
    else (s.withLine l (s.line l).startCensus).done []

/-- CENSUS READ (R114). -/
def State.censusRead (line : Nat) (s : State) : Carried :=
  match lineOf line with
  | none => s.refuse .range
  | some l =>
    s.done (be1 (censusStateCode (s.line l).census) ++ (s.line l).censusList.flatMap fun i =>
      be1 i.address ++ be1 i.buttons ++ be1 (yesNoCode i.indicators))

/-- SET_LINE_CONFIG (R97). -/
def execSetLineConfig (line : Nat) (fields : LineFields) (s : State) : Answer :=
  .next (s.complete (.setLineConfig line fields) (State.storedWrite (State.setLineConfig line fields)))

/-- ENROL_STATION (R109). -/
def execEnrolStation (line address buttons indicators : Nat) (s : State) : Answer :=
  .next (s.complete (.enrolStation line address buttons indicators)
    (State.storedWrite (State.enrolStation line address buttons indicators)))

/-- UNENROL_STATION (R110). -/
def execUnenrolStation (line address : Nat) (s : State) : Answer :=
  .next (s.complete (.unenrolStation line address) (State.storedWrite (State.unenrolStation line address)))

/-- READ_STATION (R111). -/
def execReadStation (line address : Nat) (s : State) : Answer :=
  .next (s.complete (.readStation line address) (State.readStation line address))

/-- READ_LINE (R111). -/
def execReadLine (line : Nat) (s : State) : Answer := .next (s.complete (.readLine line) (State.readLine line))

/-- CENSUS_START (R112). -/
def execCensusStart (line : Nat) (s : State) : Answer := .next (s.complete (.censusStart line) (State.censusStart line))

/-- CENSUS_READ (R114). -/
def execCensusRead (line : Nat) (s : State) : Answer := .next (s.complete (.censusRead line) (State.censusRead line))

/-! ## Arrivals on a line -/

/-- A break on a Running line (R99). -/
def State.breakLine (l : Line) (s : State) : State := if (s.line l).state = .running then s.faultLine l else s

/-- The end of a Fault (R99). -/
def State.recoverLine (l : Line) (s : State) : State :=
  if (s.line l).state = .fault then s.withLine l (s.line l).recover else s

/-- The end of the wait that follows a round in which nothing was polled (R101), also where an announce was sent within it (log 38). -/
def State.endWait (l : Line) (s : State) : State :=
  if (s.line l).waiting then s.withLine l { s.line l with waiting := false } else s

/-- NEXT_EXCHANGE (R101, R102, R113). -/
def execNextExchange (line : Line) (s : State) : Answer := .next (s.whenRunning (State.chooseExchange line))

/-- EXCHANGE_SENT (R104, R105, R108). -/
def execExchangeSent (line : Line) (s : State) : Answer :=
  .next (s.whenRunning fun t => t.withLine line (t.line line).allSent)

/-- COLLISION (R104). -/
def execCollision (line : Line) (s : State) : Answer := .next (s.whenRunning (State.collide line))

/-- REPLY (R105 to R107, R113, R163). -/
def execReply (line : Line) (chars : List RxChar) (s : State) : Answer := .next (s.whenRunning (State.endReply line (some chars)))

/-- REPLY_WINDOW_END (R105, R107, R113). -/
def execReplyWindowEnd (line : Line) (s : State) : Answer := .next (s.whenRunning (State.endReply line none))

/-- LINE_BREAK (R99). -/
def execLineBreak (line : Line) (s : State) : Answer := .next (s.whenRunning (State.breakLine line))

/-- FAULT_RECOVERY (R99). -/
def execFaultRecovery (line : Line) (s : State) : Answer := .next (s.whenRunning (State.recoverLine line))

/-- ROUND_WAIT_END (R101). -/
def execRoundWaitEnd (line : Line) (s : State) : Answer := .next (s.whenRunning (State.endWait line))

end Sys2Proof.Machine
end

