-- ==== Sys2Proof/Machine/Targets.lean ====
section
/-!
DEFINITION. The commands of the group and scene tables (chapter 5).
-/
namespace Sys2Proof.Machine

/-- The free count of the member pool (R71). -/
def State.membersFree (s : State) : Nat := Config.memberPool - membersUsed s.groups

/-- The free count of the entry pool (R71). -/
def State.entriesFree (s : State) : Nat := Config.entryPool - entriesUsed s.scenes

/-- A group's place in the table written (R72). -/
def State.putGroup (g : Nat) (x : Option (List Nat)) (s : State) : State := s.withGroups (s.groups.set (g - 1) x)

/-- A scene's place in the table written (R77). -/
def State.putScene (n : Nat) (x : Option Scene) (s : State) : State := s.withScenes (s.scenes.set (n - 1) x)

/-- The length of a group's list, 0 where it is Undefined (R73). -/
def State.groupLength (s : State) (g : Nat) : Nat := (s.members g).length

/-- The length of a scene's list, 0 where it is Undefined (R78). -/
def State.sceneLength (s : State) (n : Nat) : Nat := (((sceneAt s.scenes n).map (·.entries)).getD []).length

/-! ## Groups -/

/-- WRITE GROUP, after the STORE_BUSY check (R73). -/
def State.writeGroup (g : Nat) (ranges : List (Nat × Nat)) (s : State) : Carried :=
  if !within 1 Config.groups g then s.refuse .range
  else if Config.listItems < ranges.length then s.refuse .range
  else if !rangesInRange ranges then s.refuse .range
  else
    let new := unionOf ranges
    if s.groupLength g + s.membersFree < new.length then s.refuse .poolFull
    else
      let t := s.putGroup g (some new)
      t.done (be2 new.length ++ be2 t.membersFree)

/-- DELETE GROUP, after the STORE_BUSY check (R74). -/
def State.deleteGroup (g : Nat) (s : State) : Carried :=
  if !within 1 Config.groups g then s.refuse .range
  else if (groupAt s.groups g).isNone then s.refuse .notFound
  else
    let t := s.putGroup g none
    t.done (be2 t.membersFree)

/-- READ GROUP (R75). -/
def State.readGroup (g first count : Nat) (s : State) : Carried :=
  if !within 1 Config.groups g then s.refuse .range
  else if !(within 0 383 first && within 1 100 count) then s.refuse .range
  else
    match groupAt s.groups g with
    | none => s.refuse .notFound
    | some l => s.done (be2 l.length ++ be2 s.membersFree ++ (window first count l).flatMap be2)

/-! ## Scenes -/

/-- A new scene put in its place where the entry pool has room (R71, R78, R80). -/
def State.placeScene (n : Nat) (sc : Scene) (s : State) : Carried :=
  if s.sceneLength n + s.entriesFree < sc.entries.length then s.refuse .poolFull
  else
    let t := s.putScene n (some sc)
    t.done (be2 sc.entries.length ++ be2 t.entriesFree)

/-- WRITE SCENE, after the STORE_BUSY check (R78). -/
def State.writeScene (n : Nat) (fade : Option Nat) (entries : List (Nat × Nat)) (s : State) : Carried :=
  if !within 1 Config.scenes n then s.refuse .range
  else if !within 1 Config.listItems entries.length then s.refuse .range
  else if !optWithin 0 6000 fade then s.refuse .range
  else if !entriesInRange entries then s.refuse .range
  else s.placeScene n ⟨fade, sceneList entries⟩

/-- EXTEND SCENE, after the STORE_BUSY check (R79). The circuits inserted are those by which the merged list is longer. -/
def State.extendScene (n : Nat) (entries : List (Nat × Nat)) (s : State) : Carried :=
  if !within 1 Config.scenes n then s.refuse .range
  else if !within 1 Config.listItems entries.length then s.refuse .range
  else if !entriesInRange entries then s.refuse .range
  else
    match sceneAt s.scenes n with
    | none => s.refuse .notFound
    | some sc => s.placeScene n ⟨sc.fade, mergeEntries sc.entries entries⟩

/-- The entries that capture some circuits: each at its output level (R80). -/
def State.captured (s : State) (circuits : List Nat) : List (Nat × Nat) :=
  circuits.filterMap fun c => (circuitAt s.circuits c).map fun x => (c, x.output)

/-- CAPTURE SCENE, after the STORE_BUSY check (R80). -/
def State.captureScene (n : Nat) (fade : Option Nat) (ranges : List (Nat × Nat)) (s : State) : Carried :=
  if !within 1 Config.scenes n then s.refuse .range
  else if !within 1 Config.listItems ranges.length then s.refuse .range
  else if !rangesInRange ranges then s.refuse .range
  else if !optWithin 0 6000 fade then s.refuse .range
  else s.placeScene n ⟨fade, s.captured (unionOf ranges)⟩

/-- DELETE SCENE, after the STORE_BUSY check (R81). -/
def State.deleteScene (n : Nat) (s : State) : Carried :=
  if !within 1 Config.scenes n then s.refuse .range
  else if (sceneAt s.scenes n).isNone then s.refuse .notFound
  else
    let t := s.putScene n none
    t.done (be2 t.entriesFree)

/-- READ SCENE (R82). -/
def State.readScene (n first count : Nat) (s : State) : Carried :=
  if !within 1 Config.scenes n then s.refuse .range
  else if !(within 0 383 first && within 1 60 count) then s.refuse .range
  else
    match sceneAt s.scenes n with
    | none => s.refuse .notFound
    | some sc =>
      s.done (opt2 sc.fade ++ be2 sc.entries.length ++ be2 s.entriesFree ++ be1 (yesNoCode (s.sceneActive n))
        ++ (window first count sc.entries).flatMap fun e => be2 e.1 ++ be2 e.2)

/-! ## Commands -/

/-- WRITE_GROUP (R73). -/
def execWriteGroup (group : Nat) (ranges : List (Nat × Nat)) (s : State) : Answer :=
  .next (s.complete (.writeGroup group ranges) (State.storedWrite (State.writeGroup group ranges)))

/-- DELETE_GROUP (R74). -/
def execDeleteGroup (group : Nat) (s : State) : Answer :=
  .next (s.complete (.deleteGroup group) (State.storedWrite (State.deleteGroup group)))

/-- READ_GROUP (R75). -/
def execReadGroup (group first count : Nat) (s : State) : Answer :=
  .next (s.complete (.readGroup group first count) (State.readGroup group first count))

/-- WRITE_SCENE (R78). -/
def execWriteScene (scene : Nat) (fade : Option Nat) (entries : List (Nat × Nat)) (s : State) : Answer :=
  .next (s.complete (.writeScene scene fade entries) (State.storedWrite (State.writeScene scene fade entries)))

/-- EXTEND_SCENE (R79). -/
def execExtendScene (scene : Nat) (entries : List (Nat × Nat)) (s : State) : Answer :=
  .next (s.complete (.extendScene scene entries) (State.storedWrite (State.extendScene scene entries)))

/-- CAPTURE_SCENE (R80). -/
def execCaptureScene (scene : Nat) (fade : Option Nat) (ranges : List (Nat × Nat)) (s : State) : Answer :=
  .next (s.complete (.captureScene scene fade ranges) (State.storedWrite (State.captureScene scene fade ranges)))

/-- DELETE_SCENE (R81). -/
def execDeleteScene (scene : Nat) (s : State) : Answer :=
  .next (s.complete (.deleteScene scene) (State.storedWrite (State.deleteScene scene)))

/-- READ_SCENE (R82). -/
def execReadScene (scene first count : Nat) (s : State) : Answer :=
  .next (s.complete (.readScene scene first count) (State.readScene scene first count))

end Sys2Proof.Machine
end

