-- ==== Sys2Proof/Machine/Dispatch.lean ====
section
/-!
DEFINITION. The one dispatch of the model: each command of the table to its meaning.
-/
namespace Sys2Proof.Machine

/-- A command's effect on everything but the queue. -/
def exec (i : Instr) (s : State) : Host.Outcome State Fault Refusal :=
  match i with
  | .powerOn => Sys2Proof.Machine.execPowerOn s
  | .resetPinLow => Sys2Proof.Machine.execResetPinLow s
  | .resetPinRelease => Sys2Proof.Machine.execResetPinRelease s
  | .inputSettlingEnd => Sys2Proof.Machine.execInputSettlingEnd s
  | .requestTransaction piece => Sys2Proof.Machine.execRequestTransaction piece s
  | .fetch piece => Sys2Proof.Machine.execFetch piece s
  | .readIdentity => Sys2Proof.Machine.execReadIdentity s
  | .readAttention => Sys2Proof.Machine.execReadAttention s
  | .clearAttention flags => Sys2Proof.Machine.execClearAttention flags s
  | .setAttentionMask mask => Sys2Proof.Machine.execSetAttentionMask mask s
  | .restart => Sys2Proof.Machine.execRestart s
  | .setCircuitConfig first last fields => Sys2Proof.Machine.execSetCircuitConfig first last fields s
  | .readCircuitConfig first count => Sys2Proof.Machine.execReadCircuitConfig first count s
  | .claimLevel circuit layer level fade => Sys2Proof.Machine.execClaimLevel circuit layer level fade s
  | .releaseLayer circuit layer fade => Sys2Proof.Machine.execReleaseLayer circuit layer fade s
  | .readCircuitState first count => Sys2Proof.Machine.execReadCircuitState first count s
  | .addBinding record => Sys2Proof.Machine.execAddBinding record s
  | .replaceBinding slot record => Sys2Proof.Machine.execReplaceBinding slot record s
  | .retireBinding slot => Sys2Proof.Machine.execRetireBinding slot s
  | .retireSource key => Sys2Proof.Machine.execRetireSource key s
  | .disable slot => Sys2Proof.Machine.execDisable slot s
  | .enable slot => Sys2Proof.Machine.execEnable slot s
  | .readBinding slot => Sys2Proof.Machine.execReadBinding slot s
  | .findBindings key kind => Sys2Proof.Machine.execFindBindings key kind s
  | .injectEvent key kind => Sys2Proof.Machine.execInjectEvent key kind s
  | .writeGroup group ranges => Sys2Proof.Machine.execWriteGroup group ranges s
  | .deleteGroup group => Sys2Proof.Machine.execDeleteGroup group s
  | .readGroup group first count => Sys2Proof.Machine.execReadGroup group first count s
  | .writeScene scene fade entries => Sys2Proof.Machine.execWriteScene scene fade entries s
  | .extendScene scene entries => Sys2Proof.Machine.execExtendScene scene entries s
  | .captureScene scene fade ranges => Sys2Proof.Machine.execCaptureScene scene fade ranges s
  | .deleteScene scene => Sys2Proof.Machine.execDeleteScene scene s
  | .readScene scene first count => Sys2Proof.Machine.execReadScene scene first count s
  | .setMode mode fade => Sys2Proof.Machine.execSetMode mode fade s
  | .readMode => Sys2Proof.Machine.execReadMode s
  | .setModeOptions fields => Sys2Proof.Machine.execSetModeOptions fields s
  | .setLineConfig line fields => Sys2Proof.Machine.execSetLineConfig line fields s
  | .enrolStation line address buttons indicators => Sys2Proof.Machine.execEnrolStation line address buttons indicators s
  | .unenrolStation line address => Sys2Proof.Machine.execUnenrolStation line address s
  | .readStation line address => Sys2Proof.Machine.execReadStation line address s
  | .readLine line => Sys2Proof.Machine.execReadLine line s
  | .censusStart line => Sys2Proof.Machine.execCensusStart line s
  | .censusRead line => Sys2Proof.Machine.execCensusRead line s
  | .setInputConfig input fields => Sys2Proof.Machine.execSetInputConfig input fields s
  | .readInput input => Sys2Proof.Machine.execReadInput input s
  | .stageEntry stage circuit entry => Sys2Proof.Machine.execStageEntry stage circuit entry s
  | .stageClear stage => Sys2Proof.Machine.execStageClear stage s
  | .setStageTrigger stage trigger => Sys2Proof.Machine.execSetStageTrigger stage trigger s
  | .standby stage => Sys2Proof.Machine.execStandby stage s
  | .unstandby stage => Sys2Proof.Machine.execUnstandby stage s
  | .go stage => Sys2Proof.Machine.execGo stage s
  | .readStage stage first count => Sys2Proof.Machine.execReadStage stage first count s
  | .setLinkConfig period => Sys2Proof.Machine.execSetLinkConfig period s
  | .readRackLink => Sys2Proof.Machine.execReadRackLink s
  | .save => Sys2Proof.Machine.execSave s
  | .eraseStore => Sys2Proof.Machine.execEraseStore s
  | .readStoreState => Sys2Proof.Machine.execReadStoreState s
  | .saveOperationEnd verified => Sys2Proof.Machine.execSaveOperationEnd verified s
  | .eraseOperationEnd => Sys2Proof.Machine.execEraseOperationEnd s
  | .fadeTick => Sys2Proof.Machine.execFadeTick s
  | .fadeComplete circuit layer => Sys2Proof.Machine.execFadeComplete circuit layer s
  | .handoverEnd circuit => Sys2Proof.Machine.execHandoverEnd circuit s
  | .nextExchange line => Sys2Proof.Machine.execNextExchange line s
  | .exchangeSent line => Sys2Proof.Machine.execExchangeSent line s
  | .collision line => Sys2Proof.Machine.execCollision line s
  | .reply line chars => Sys2Proof.Machine.execReply line chars s
  | .replyWindowEnd line => Sys2Proof.Machine.execReplyWindowEnd line s
  | .lineBreak line => Sys2Proof.Machine.execLineBreak line s
  | .faultRecovery line => Sys2Proof.Machine.execFaultRecovery line s
  | .acceptedClose input => Sys2Proof.Machine.execAcceptedClose input s
  | .holdTimeReached input => Sys2Proof.Machine.execHoldTimeReached input s
  | .stuckTimeReached input => Sys2Proof.Machine.execStuckTimeReached input s
  | .acceptedOpen input => Sys2Proof.Machine.execAcceptedOpen input s
  | .maintainedChange input closed => Sys2Proof.Machine.execMaintainedChange input closed s
  | .safeAssert input => Sys2Proof.Machine.execSafeAssert input s
  | .safeDeassert input => Sys2Proof.Machine.execSafeDeassert input s
  | .cueEvent line => Sys2Proof.Machine.execCueEvent line s
  | .frameStart => Sys2Proof.Machine.execFrameStart s
  | .frameEnd => Sys2Proof.Machine.execFrameEnd s
  | .contactSample pins order => Sys2Proof.Machine.execContactSample pins order s
  | .supplyLost => Sys2Proof.Machine.execSupplyLost s
  | .roundWaitEnd line => Sys2Proof.Machine.execRoundWaitEnd line s

end Sys2Proof.Machine
end

