-- ==== Sys2Proof/Safety.lean ====
section
/-!
DEFINITION. What the manual promises of every state: the laws that each block keeps, as predicates on a state. A safe run is one whose
states keep them. Each names the rule it writes down.
-/
namespace Sys2Proof.Machine

/-! ## Configuration in range -/

/-- A circuit configuration within the ranges of R1. -/
def CircuitConfig.Legal (cfg : CircuitConfig) : Prop :=
  cfg.floor ≤ 500 ∧ cfg.floor ≤ cfg.cap ∧ 1 ≤ cfg.cap ∧ cfg.cap ≤ 1000 ∧ 1 ≤ cfg.threshold ∧ cfg.threshold ≤ 1000
    ∧ (∀ m, cfg.base.at m ≤ 1000) ∧ ∀ i l, cfg.safeLevel i = some l → 1 ≤ l ∧ l ≤ 1000

/-- A property of the image in the memory and of the copy a SAVE has taken. -/
def Store.All (p : Stored → Prop) (st : Store) : Prop := (∀ t, st.image = some t → p t) ∧ ∀ t, st.copy = some t → p t

/-- A circuit table of configurations: 384 of them, each within its ranges (R1). -/
def LegalCircuits (l : List CircuitConfig) : Prop := l.length = Config.circuits ∧ ∀ cfg ∈ l, cfg.Legal

/-! ## Circuits (R1, R4, R7, R9) -/

/-- The raw level follows from the claims and the handover (R7), and the output level from the raw level (R9). -/
def Circuit.Settled (c : Circuit) : Prop := c.raw = c.rawOf ∧ c.output = c.cfg.outputOf c.raw

/-- The limits of R9 on an output level: 0, or within floor and cap where Dimmed, or 1000 where Switched. -/
def Circuit.OutputInLimits (c : Circuit) : Prop :=
  c.output = 0 ∨ match c.cfg.kind with
    | .dimmed => c.cfg.floor ≤ c.output ∧ c.output ≤ c.cfg.cap
    | .switched => c.output = 1000

/-- The circuit table: 384 circuits, configurations in range, and levels that follow from the claims (R1, R7, R9). -/
def State.CircuitsSound (s : State) : Prop :=
  LegalCircuits (s.circuits.map (·.cfg)) ∧ (∀ c ∈ s.circuits, c.Settled) ∧ s.store.All fun t => LegalCircuits t.circuits

/-- From the end of start-up every circuit holds a Base claim; before it, every layer is empty and there is no handover (R4). -/
def State.BaseSound (s : State) : Prop :=
  (s.phase = .running → ∀ c ∈ s.circuits, c.base.isSome = true)
    ∧ (s.phase ≠ .running → ∀ c ∈ s.circuits, c = Circuit.bare c.cfg)

/-- A claim's form is Moving only on the Local layer of a Dimmed circuit, under an owner (R24, R31, R66). -/
def Circuit.MovementSound (c : Circuit) : Prop :=
  (∀ l f, c.form? l = some f → f.isMoving = true → l = .local')
    ∧ ∀ cl, c.local' = some cl → cl.form.isMoving = true → c.cfg.kind = .dimmed ∧ cl.owner.isSome = true

/-- Movement stands only where R24, R31 and R66 allow it. -/
def State.MovementSound (s : State) : Prop := ∀ c ∈ s.circuits, c.MovementSound

/-! ## The Safe layer (R15, R123 to R126) -/

/-- A circuit's Safe layer agrees with a set of asserted inputs: empty where none of them has a safe level, else a claim owned by those
that have, at the largest of their clamped safe levels. -/
def Circuit.SafeAgrees (asserted : SafeSet) (c : Circuit) : Prop :=
  match c.safe with
  | none => (c.cfg.wantedSet asserted).isEmpty = true
  | some cl =>
    (c.cfg.wantedSet asserted).isEmpty = false ∧ cl.owner = c.cfg.wantedSet asserted
      ∧ cl.form.target = some (c.cfg.wantedLevel asserted)

/-- From the end of start-up every circuit holds the Safe claim the asserted inputs call for, and no other (R123, R126). -/
def State.SafeSound (s : State) : Prop := s.phase = .running → ∀ c ∈ s.circuits, c.SafeAgrees s.asserted

/-! ## The binding table (R36 to R41) -/

/-- A source key within the ranges of R36. -/
def SourceKey.Legal : SourceKey → Prop
  | .station _ a b => 1 ≤ a ∧ a ≤ Config.maxAddress ∧ 1 ≤ b ∧ b ≤ 10
  | .contact n => 1 ≤ n ∧ n ≤ Config.contacts

/-- A target within the ranges of R36. -/
def Target.Legal : Target → Prop
  | .circuit n => 1 ≤ n ∧ n ≤ Config.circuits
  | .group n => 1 ≤ n ∧ n ≤ Config.groups
  | .scene n => 1 ≤ n ∧ n ≤ Config.scenes
  | .mode _ => True

/-- A record whose fields are in range and agree with one another (R36 to R38). -/
def Binding.Legal (b : Binding) : Prop :=
  b.key.Legal ∧ b.target.Legal ∧ (∃ m, b.mask.has m = true) ∧ b.agrees = true ∧ (∀ l, b.level = some l → l ≤ 1000)
    ∧ (∀ f, b.fade = some f → f ≤ 6000) ∧ ∀ r, b.rate = some r → 1 ≤ r ∧ r ≤ 600

/-- The laws of R40 on a slot table of 1024 slots. -/
def LegalSlots (slots : List Slot) : Prop :=
  slots.length = Config.slots ∧ (∀ n b, (slotAt slots n).record = some b → b.Legal)
    ∧ (∀ n m b c, (slotAt slots n).record = some b → (slotAt slots m).record = some c → b.same c = true → n = m)
    ∧ ∀ k e, (slotsHolding slots k e).length ≤ Config.perKey

/-- The key index: each pair's list holds, ascending, the slots with a record of the pair; no list is empty, and the lists stand in one
order (R41). -/
def IndexAgrees (index : List IndexEntry) (slots : List Slot) : Prop :=
  (∀ k e, indexList index k e = slotsHolding slots k e) ∧ (∀ x ∈ index, x.slots ≠ [])
    ∧ index.Pairwise fun x y => pairRank x.key x.kind < pairRank y.key y.kind

/-- The binding table and its index. The index is built with the tables (R160 step 2), so it is there in every phase. -/
def State.BindingsSound (s : State) : Prop :=
  LegalSlots s.slots ∧ IndexAgrees s.index s.slots ∧ s.store.All fun t => LegalSlots t.slots

/-! ## Groups and scenes (R71, R72, R77) -/

/-- A list ascending, each number once, all circuits. -/
def AscendingCircuits (l : List Nat) : Prop := l.Pairwise (· < ·) ∧ ∀ c ∈ l, 1 ≤ c ∧ c ≤ Config.circuits

/-- A scene within R77: at least one entry, ascending, levels and fade in range. -/
def Scene.Legal (sc : Scene) : Prop :=
  sc.entries ≠ [] ∧ AscendingCircuits (sc.entries.map (·.1)) ∧ (∀ e ∈ sc.entries, e.2 ≤ 1000) ∧ ∀ f, sc.fade = some f → f ≤ 6000

/-- The group table: 64 groups, lists by R71, within the member pool. -/
def LegalGroups (groups : List (Option (List Nat))) : Prop :=
  groups.length = Config.groups ∧ (∀ l, some l ∈ groups → AscendingCircuits l) ∧ membersUsed groups ≤ Config.memberPool

/-- The scene table: 32 scenes by R77, within the entry pool. -/
def LegalScenes (scenes : List (Option Scene)) : Prop :=
  scenes.length = Config.scenes ∧ (∀ sc, some sc ∈ scenes → sc.Legal) ∧ entriesUsed scenes ≤ Config.entryPool

/-- The target tables. -/
def State.TargetsSound (s : State) : Prop :=
  LegalGroups s.groups ∧ LegalScenes s.scenes ∧ s.store.All fun t => LegalGroups t.groups ∧ LegalScenes t.scenes

/-! ## Mode options (R86) -/

/-- The ranges of R86. -/
def ModeOptions.Legal (o : ModeOptions) : Prop :=
  o.modeFade ≤ 6000 ∧ o.defaultFade ≤ 6000 ∧ 1 ≤ o.defaultRate ∧ o.defaultRate ≤ 600 ∧ o.safeReleaseFade ≤ 600

/-- The mode options, live and stored, are in range. -/
def State.OptionsSound (s : State) : Prop := s.options.Legal ∧ s.store.All fun t => t.options.Legal

/-! ## Stages (R128) -/

/-- A staging bank: its entries in range, ascending by circuit, at most one per circuit; none exactly while it is Empty. -/
def Stage.Legal (x : Stage) : Prop :=
  AscendingCircuits (x.entries.map (·.1)) ∧ (∀ e ∈ x.entries, match e.2 with
    | .claim level fade => level ≤ 1000 ∧ fade ≤ 6000
    | .release fade => fade ≤ 6000) ∧ (x.state = .empty ↔ x.entries = [])

/-- Both stages and the ignored-cue counts. -/
def State.StagesSound (s : State) : Prop := s.stage1.Legal ∧ s.stage2.Legal ∧ s.ignored1 ≤ 255 ∧ s.ignored2 ≤ 255

/-! ## Station lines (R96 to R113) -/

/-- The ranges of a line configuration (R96). -/
def LineConfig.Legal (c : LineConfig) : Prop :=
  (c.divisor = 0 ∨ c.divisor = 16 ∨ c.divisor = 24 ∨ c.divisor = 48) ∧ 1 ≤ c.window ∧ c.window ≤ 10

/-- What R100 says of the enrolled fields of a poll list: at most 40, addresses ascending and distinct within 1..62, 1..10 buttons. -/
def LegalIdents (l : List StationIdent) : Prop :=
  l.length ≤ Config.stations ∧ l.Pairwise (fun x y => x.address < y.address)
    ∧ ∀ x ∈ l, 1 ≤ x.address ∧ x.address ≤ Config.maxAddress ∧ 1 ≤ x.buttons ∧ x.buttons ≤ 10

/-- A station's live fields: counts in range, a miss count of 3 only when Silent, an accepted bit only when Online (R100, R106, R107). -/
def Station.Legal (r : Station) : Prop :=
  r.misses ≤ 3 ∧ (r.state ≠ .silent → r.misses ≤ 2) ∧ (r.state ≠ .online → r.lastBit = none) ∧ r.eventsLost ≤ 255

/-- A line controller: its poll list by R100, its counts in range; only a Running line has anything in flight or pending (R98, R99); a
Running line that can no longer run has an exchange in flight (R97), and a line in Fault can run (R97). -/
def LineCtl.Legal (c : LineCtl) : Prop :=
  c.config.Legal ∧ LegalIdents (c.stations.map (·.ident)) ∧ (∀ r ∈ c.stations, r.Legal) ∧ c.round ≤ 15 ∧ c.collisions ≤ 8
    ∧ (c.state ≠ .running → c.exchange = none ∧ c.announce = none ∧ c.again = none ∧ c.waiting = false)
    ∧ (c.state = .running → c.collisions ≤ 7 ∧ (c.config.canRun = false → c.exchange.isSome = true))
    ∧ (c.state = .fault → c.config.canRun = true)

/-- The address a census exchange or a census repeat is for. -/
def LineCtl.CensusAt (c : LineCtl) (a : Nat) : Prop := (∃ x, c.exchange = some x ∧ x.kind = .census a) ∨ c.again = some (.census a)

/-- The census of a line (R112, R113): its list ascending, every entry below the census address; a census poll in flight or to be sent again
belongs to a Running census and is to an address not yet passed; and nothing waits to be sent again while a census poll is in flight. -/
def LineCtl.CensusLegal (c : LineCtl) : Prop :=
  1 ≤ c.censusAddr ∧ c.censusAddr ≤ Config.maxAddress + 1 ∧ c.censusList.Pairwise (fun x y => x.address < y.address)
    ∧ (∀ x ∈ c.censusList, 1 ≤ x.address ∧ x.address < c.censusAddr ∧ 1 ≤ x.buttons ∧ x.buttons ≤ 10)
    ∧ (∀ a, c.CensusAt a → c.census = .running ∧ c.censusAddr ≤ a ∧ a ≤ Config.maxAddress)
    ∧ ∀ x a, c.exchange = some x → x.kind = .census a → c.again = none

/-- The census of each line. -/
def State.CensusSound (s : State) : Prop := s.lineA.CensusLegal ∧ s.lineB.CensusLegal

/-- Both lines, and what the images store of them. -/
def State.LinesSound (s : State) : Prop :=
  s.lineA.Legal ∧ s.lineB.Legal
    ∧ s.store.All fun t => t.lineA.config.Legal ∧ LegalIdents t.lineA.stations ∧ t.lineB.config.Legal ∧ LegalIdents t.lineB.stations

/-! ## Contact inputs (R115 to R119) -/

/-- The ranges of a contact input configuration (R115). -/
def InputConfig.Legal (c : InputConfig) : Prop :=
  2 ≤ c.debounce ∧ c.debounce ≤ 64 ∧ 300 ≤ c.holdTime ∧ c.holdTime ≤ 3000 ∧ c.holdTime % 10 = 0
    ∧ (c.stuckTime = 0 ∨ 5 ≤ c.stuckTime ∧ c.stuckTime ≤ 600)

/-- A running part's input: its state is one its kind and accepted position allow (R115, R117 to R119). -/
def ContactInput.Legal (x : ContactInput) : Prop :=
  x.config.Legal ∧ x.pin.disagree < x.config.debounce ∧ x.closedCount ≤ Config.closedMax
    ∧ match x.config.kind with
      | .unused => x.state = .unused
      | .maintained => x.state = if x.config.isClosed x.pin.level then .closed else .open'
      | .momentary => x.state ≠ .unused ∧ (x.state = .open' ↔ x.config.isClosed x.pin.level = false)

/-- A table of input configurations (R115). -/
def LegalInputs (l : List InputConfig) : Prop := l.length = Config.contacts ∧ ∀ c ∈ l, c.Legal

/-- The contact inputs. -/
def State.InputsSound (s : State) : Prop :=
  LegalInputs (s.inputs.map (·.config)) ∧ (s.phase = .running → ∀ x ∈ s.inputs, x.Legal)
    ∧ s.store.All fun t => LegalInputs t.inputs

/-! ## Rack link (R139 to R143) -/

/-- The rack link: Sending exactly while the part runs; a start is owed only while a frame is in flight, and the next-start time stands
otherwise (R139, R143). -/
def State.LinkSound (s : State) : Prop :=
  (s.link.sending = true ↔ s.phase = .running) ∧ (s.link.sending = false → s.link.frame = none)
    ∧ (s.link.owed = true → s.link.frame.isSome = true ∧ s.link.nextStart = none)
    ∧ (s.link.sending = true → s.link.owed = false → s.link.nextStart = some s.link.inUse)
    ∧ 10 ≤ s.link.period ∧ s.link.period ≤ 100 ∧ s.link.late ≤ 255 ∧ s.store.All fun t => 10 ≤ t.period ∧ t.period ≤ 100

/-! ## Management port (R148, R149) -/

/-- The port: a reply stands in the slot exactly in Done, a request is carried out exactly in Working, and Starting is a state of start-up
alone (R148); the reply that a fetch in progress sends is the one in the slot (R150); a byte in progress has fewer than eight bits (R146); and no
transaction is in progress at a part that is held in reset or without supply (R146, R160). -/
def State.PortSound (s : State) : Prop :=
  (s.port.state = .done ↔ s.port.slot.isSome = true) ∧ (s.port.state = .working ↔ s.port.request.isSome = true)
    ∧ (s.phase = .running → s.port.state ≠ .starting)
    ∧ (s.phase = .settling → s.port.state = .starting ∨ s.port.state = .done)
    ∧ (s.phase = .held ∨ s.phase = .unpowered → s.port.state = .starting ∧ s.spi = none)
    ∧ (∀ x f, s.spi = some x → x.due = some f → s.port.state = .done ∧ ∃ r, s.port.slot = some r ∧ f = r.frame)
    ∧ ∀ x c, s.spi = some x → x.current = some c → c.bits.length < 8

/-- The RESET pin: a part that has its supply is held exactly while the pin is low (R160). -/
def State.ResetPinSound (s : State) : Prop := s.phase ≠ .unpowered → (s.phase = .held ↔ s.resetLow = true)

/-! ## Settings store (R156 to R159) -/

/-- The store: while it is Saving its copy is the live tables; while it is busy there is no image; the indicator tells whether there is one;
and it is Ready whenever the part does not run (R157 to R159). -/
def State.StoreSound (s : State) : Prop :=
  (s.store.state = .saving → s.store.copy = some s.stored) ∧ (s.store.state ≠ .ready → s.store.image = none)
    ∧ (s.store.valid = true ↔ s.store.image.isSome = true) ∧ (s.phase ≠ .running → s.store.state = .ready)

/-! ## The vocabulary of the statements -/

/-- The port takes a request to its completion: the part runs, and the port is Working on this request, or on none and no transaction is in
progress (R148, R149; log 4, log 31). -/
def State.Serves (i : Instr) (s : State) : Prop :=
  s.phase = .running ∧ if s.port.state = .working then s.port.request = some i else s.spi = none

/-- The port after a request's completion: the reply stands in the slot, the state is Done, and the overrun flag, the attention flags and
the mask are as they were (R149). -/
def Port.Holds (p q : Port) (i : Instr) (r : ResultCode) (payload : List Byte) : Prop :=
  q = { p with slot := some ⟨requestEcho i, r, payload⟩, state := .done, request := none }

/-- A request completes from `s` in `t`, with a reply; whatever else changes is for the statement to say. -/
def State.Completes (s t : State) (i : Instr) (r : ResultCode) (payload : List Byte) : Prop :=
  exec i s = .next t ∧ s.port.Holds t.port i r payload

/-- A request is refused: nothing is changed but the port (0.9). -/
def State.Refuses (s : State) (i : Instr) (r : ResultCode) : Prop :=
  ∃ t, s.Completes t i r [] ∧ t = { s with port := t.port }

/-- A read reports a payload and changes nothing but the port. -/
def State.Reports (s : State) (i : Instr) (payload : List Byte) : Prop :=
  s.Serves i → ∃ t, s.Completes t i .ok payload ∧ t = { s with port := t.port }

/-- The commands that a part takes while it does not run: those of supply, reset and start-up, and what reaches the port and the pins in
step 4 (R122, R148, R159 to R161). -/
def takenInAnyPhase : Instr → Bool
  | .powerOn => true
  | .resetPinLow => true
  | .resetPinRelease => true
  | .inputSettlingEnd => true
  | .requestTransaction _ => true
  | .fetch _ => true
  | .contactSample _ _ => true
  | .supplyLost => true
  | _ => false

/-- A circuit's configuration and four layers but one. -/
def Circuit.SameBut (x y : Circuit) (l : Layer) : Prop :=
  y.cfg = x.cfg ∧ (l ≠ .base → y.base = x.base) ∧ (l ≠ .local' → y.local' = x.local') ∧ (l ≠ .show' → y.show' = x.show')
    ∧ (l ≠ .safe → y.safe = x.safe)

/-- The requests that write a table of the image (R156), by the column STORE_BUSY of the request catalogue (11.6). -/
def writesImage (i : Instr) : Bool :=
  match requestCode i with
  | none => false
  | some c => [0x04, 0x10, 0x20, 0x21, 0x22, 0x23, 0x24, 0x25, 0x30, 0x31, 0x33, 0x34, 0x35, 0x36, 0x42, 0x50, 0x51, 0x52, 0x60,
      0x80, 0x90, 0x91].contains c

/-- A line whose exchange in flight has ended: a Running one that can still run goes on, and one that can no longer run is Off (R97, R98). -/
def LineCtl.over (c : LineCtl) : LineCtl :=
  if c.config.canRun then { c with exchange := none }
  else { c with
    state := .off, waiting := false, announce := none, again := none, exchange := none
    census := if c.census = .running then .abandoned else c.census }

/-- A sample is accepted as a change of a pin: it differs from the accepted level and completes the debounce (R116). -/
def Pin.Turns (p : Pin) (debounce : Nat) (level : Bool) : Prop := level ≠ p.level ∧ debounce ≤ p.disagree + 1

/-- What a sample makes of a pin (R116): agreement clears the disagree count, disagreement raises it, and the debounce-th in a row is accepted. -/
def Pin.SamplesTo (p : Pin) (debounce : Nat) (level : Bool) (q : Pin) : Prop :=
  (level = p.level → q = { p with disagree := 0 })
    ∧ (level ≠ p.level → p.disagree + 1 < debounce → q = { p with disagree := p.disagree + 1 })
    ∧ (p.Turns debounce level → q = { p with level := level, disagree := 0 })

/-- What a sample of step 4 of start-up makes of a pin (R122): it extends the run or begins one, and settles the pin where the run is as long as
the settling count. -/
def Pin.SettlesTo (p : Pin) (count : Nat) (level : Bool) (q : Pin) : Prop :=
  (p.settled = true → q = p)
    ∧ (p.settled = false → q.level = level ∧ q.disagree = 0
      ∧ q.run = (if p.run ≠ 0 ∧ p.level = level then p.run + 1 else 1) ∧ (q.settled = true ↔ count ≤ q.run))

/-- What a sample makes of a contact input's record (R116 to R119). -/
def ContactInput.SamplesTo (x : ContactInput) (level : Bool) (y : ContactInput) : Prop :=
  y.config = x.config ∧ x.pin.SamplesTo x.config.debounce level y.pin
    ∧ (x.config.kind = .unused → y.state = x.state ∧ y.closedCount = x.closedCount)
    ∧ (x.config.kind = .maintained → y.closedCount = x.closedCount
      ∧ (x.pin.Turns x.config.debounce level → y.state = if x.config.isClosed level then .closed else .open')
      ∧ (¬x.pin.Turns x.config.debounce level → y.state = x.state))
    ∧ (x.config.kind = .momentary →
      (x.pin.Turns x.config.debounce level → x.config.isClosed level = true →
        (x.state = .open' → y.state = .closed ∧ y.closedCount = 0)
        ∧ (x.state ≠ .open' → y.state = x.state ∧ y.closedCount = x.closedCount))
      ∧ (x.pin.Turns x.config.debounce level → x.config.isClosed level = false → y.state = .open' ∧ y.closedCount = x.closedCount)
      ∧ (¬x.pin.Turns x.config.debounce level →
        (x.state ≠ .closed → x.state ≠ .held → y.state = x.state ∧ y.closedCount = x.closedCount)
        ∧ (x.state = .closed ∨ x.state = .held → y.closedCount = min (x.closedCount + 1) 600000
          ∧ y.state = if x.state = .closed ∧ x.config.holdTime ≤ y.closedCount then .held
            else if x.config.stuckTime ≠ 0 ∧ x.config.stuckTime * 1000 ≤ y.closedCount then .stuck else x.state)))

/-- Two circuit tables that agree outside circuit `n`. -/
def AgreeOff (n : Nat) (l m : List Circuit) : Prop := m.length = l.length ∧ ∀ k, k ≠ n → circuitAt m k = circuitAt l k

end Sys2Proof.Machine
end

