-- ==== Sys2Proof/WellFormed.lean ====
section
/-!
DEFINITION. Well-formed commands: a request's items are numbers that its payload can carry (R165) in at most 250 bytes (R164), and an event
names a circuit or an input that exists.
-/
namespace Sys2Proof

/-- A 1-byte item. -/
def fitsByte (n : Nat) : Bool := decide (n < 256)

/-- A 2-byte item. -/
def fitsWord (n : Nat) : Bool := decide (n < 65536)

/-- An optional 2-byte item: FFFFh says absent, so a present value is below it. -/
def fitsOpt (o : Option Nat) : Bool := o.all fun n => decide (n < 65535)

/-- A circuit that exists (0.6). -/
def isCircuit (n : Nat) : Bool := decide (1 ≤ n) && decide (n ≤ Config.circuits)

/-- A contact input that exists (0.6). -/
def isContact (n : Nat) : Bool := decide (1 ≤ n) && decide (n ≤ Config.contacts)

/-- A source key of three bytes. -/
def RawKey.fits (k : RawKey) : Bool := fitsByte k.origin && fitsByte k.address && fitsByte k.number

/-- A binding record of 16 bytes. -/
def RawBinding.fits (r : RawBinding) : Bool :=
  r.key.fits && fitsByte r.kind && fitsByte r.mask && fitsByte r.action && fitsByte r.targetKind && fitsWord r.targetNo
    && fitsOpt r.level && fitsOpt r.fade && fitsOpt r.rate && fitsByte r.feedback

/-- Base levels of two bytes each. -/
def BaseLevels.fits (b : BaseLevels) : Bool :=
  fitsWord b.closed && fitsWord b.cleaning && fitsWord b.work && fitsWord b.rehearsal && fitsWord b.performance

/-- The fields of SET CIRCUIT CONFIG. -/
def CircuitFields.fits (f : CircuitFields) : Bool :=
  f.kind.all fitsByte && f.floor.all fitsWord && f.cap.all fitsWord && f.threshold.all fitsWord && f.inverted.all fitsByte
    && f.base.all BaseLevels.fits && f.safe1.all fitsOpt && f.safe2.all fitsOpt && f.localClear.all fitsByte

/-- The fields of SET MODE OPTIONS. -/
def OptionFields.fits (f : OptionFields) : Bool :=
  f.modeFade.all fitsWord && f.defaultFade.all fitsWord && f.defaultRate.all fitsWord && f.safeReleaseFade.all fitsWord
    && f.startMode.all fitsByte

/-- The fields of SET LINE CONFIG. -/
def LineFields.fits (f : LineFields) : Bool := f.enabled.all fitsByte && f.divisor.all fitsByte && f.window.all fitsByte

/-- The fields of SET INPUT CONFIG. -/
def InputFields.fits (f : InputFields) : Bool :=
  f.kind.all fitsByte && f.pullUp.all fitsByte && f.polarity.all fitsByte && f.debounce.all fitsByte && f.holdTime.all fitsWord
    && f.stuckTime.all fitsWord && f.edge.all fitsByte

/-- A stage entry's values. -/
def StageForm.fits : StageForm → Bool
  | .claim level fade => fitsWord level && fitsWord fade
  | .release fade => fitsWord fade

/-- A list of pairs of 2-byte items, at most so many. -/
def fitsPairs (most : Nat) (l : List (Nat × Nat)) : Bool := decide (l.length ≤ most) && l.all fun e => fitsWord e.1 && fitsWord e.2

/-- An order of inputs: numbers R165 gives them, each at most once. -/
def fitsOrder (order : List Nat) : Bool := order.all (fun n => decide (1 ≤ n) && decide (n ≤ Config.inputs)) && decide order.Nodup

/-- Whether a command is well formed. -/
def Instr.wellFormed : Instr → Bool
  | .powerOn => true
  | .resetPinLow => true
  | .resetPinRelease => true
  | .inputSettlingEnd => true
  | .requestTransaction _ => true
  | .fetch _ => true
  | .readIdentity => true
  | .readAttention => true
  | .clearAttention flags => fitsWord flags
  | .setAttentionMask mask => fitsWord mask
  | .restart => true
  | .setCircuitConfig first last fields => fitsWord first && fitsWord last && fields.fits
  | .readCircuitConfig first count => fitsWord first && fitsByte count
  | .claimLevel circuit layer level fade => fitsWord circuit && fitsByte layer && fitsWord level && fitsWord fade
  | .releaseLayer circuit layer fade => fitsWord circuit && fitsByte layer && fitsWord fade
  | .readCircuitState first count => fitsWord first && fitsByte count
  | .addBinding record => record.fits
  | .replaceBinding slot record => fitsWord slot && record.fits
  | .retireBinding slot => fitsWord slot
  | .retireSource key => key.fits
  | .disable slot => fitsWord slot
  | .enable slot => fitsWord slot
  | .readBinding slot => fitsWord slot
  | .findBindings key kind => key.fits && fitsByte kind
  | .injectEvent key kind => key.fits && fitsByte kind
  | .writeGroup group ranges => fitsByte group && fitsPairs 62 ranges
  | .deleteGroup group => fitsByte group
  | .readGroup group first count => fitsByte group && fitsWord first && fitsByte count
  | .writeScene scene fade entries => fitsByte scene && fitsOpt fade && fitsPairs 61 entries
  | .extendScene scene entries => fitsByte scene && fitsPairs 62 entries
  | .captureScene scene fade ranges => fitsByte scene && fitsOpt fade && fitsPairs 61 ranges
  | .deleteScene scene => fitsByte scene
  | .readScene scene first count => fitsByte scene && fitsWord first && fitsByte count
  | .setMode mode fade => fitsByte mode && fitsOpt fade
  | .readMode => true
  | .setModeOptions fields => fields.fits
  | .setLineConfig line fields => fitsByte line && fields.fits
  | .enrolStation line address buttons indicators =>
    fitsByte line && fitsByte address && fitsByte buttons && fitsByte indicators
  | .unenrolStation line address => fitsByte line && fitsByte address
  | .readStation line address => fitsByte line && fitsByte address
  | .readLine line => fitsByte line
  | .censusStart line => fitsByte line
  | .censusRead line => fitsByte line
  | .setInputConfig input fields => fitsByte input && fields.fits
  | .readInput input => fitsByte input
  | .stageEntry stage circuit entry => fitsByte stage && fitsWord circuit && entry.fits
  | .stageClear stage => fitsByte stage
  | .setStageTrigger stage trigger => fitsByte stage && fitsByte trigger
  | .standby stage => fitsByte stage
  | .unstandby stage => fitsByte stage
  | .go stage => fitsByte stage
  | .readStage stage first count => fitsByte stage && fitsWord first && fitsByte count
  | .setLinkConfig period => fitsByte period
  | .readRackLink => true
  | .save => true
  | .eraseStore => true
  | .readStoreState => true
  | .saveOperationEnd _ => true
  | .eraseOperationEnd => true
  | .fadeTick => true
  | .fadeComplete circuit _ => isCircuit circuit
  | .handoverEnd circuit => isCircuit circuit
  | .nextExchange _ => true
  | .exchangeSent _ => true
  | .collision _ => true
  | .reply _ _ => true
  | .replyWindowEnd _ => true
  | .lineBreak _ => true
  | .faultRecovery _ => true
  | .acceptedClose input => isContact input
  | .holdTimeReached input => isContact input
  | .stuckTimeReached input => isContact input
  | .acceptedOpen input => isContact input
  | .maintainedChange input _ => isContact input
  | .safeAssert _ => true
  | .safeDeassert _ => true
  | .cueEvent _ => true
  | .frameStart => true
  | .frameEnd => true
  | .contactSample _ order => fitsOrder order
  | .supplyLost => true
  | .roundWaitEnd _ => true

end Sys2Proof
end

