-- ==== Sys2Proof/Certificates/Slice0/Obligations.lean ====
section
/-!
DEFINITION. The statements for the provers. Each names the rules it writes down; OBLIGATIONS.json says which sentence it formalises.
-/
section
open Sys2Proof Sys2Proof.Machine

/-! ## The machine -/

/-- O: a step runs the command at the front of the queue, and waits on an empty one (log 21). -/
def Obligations.StepRunsTheFrontCommand : Prop :=
  (∀ (c : Instr) (rest : List Instr) (s : State), step (s.withPending (c :: rest)) = exec c (s.withPending rest))
    ∧ ∀ s : State, s.pending = [] → step s = .next s

/-- O: every command answers a next state, without a fault or a refusal, and leaves the queue alone (log 8, log 21). -/
def Obligations.EveryCommandAnswersANextState : Prop :=
  ∀ (c : Instr) (s : State), ∃ t, exec c s = .next t ∧ t.pending = s.pending

/-- O: the state after reset keeps every law that the invariants below say each step keeps (log 1, log 2, log 15: the reset chosen). -/
def Obligations.ResetKeepsEveryLaw : Prop :=
  State.reset.CircuitsSound ∧ State.reset.BaseSound ∧ State.reset.MovementSound ∧ State.reset.SafeSound ∧ State.reset.BindingsSound
    ∧ State.reset.TargetsSound ∧ State.reset.OptionsSound ∧ State.reset.StagesSound ∧ State.reset.LinesSound
    ∧ State.reset.CensusSound ∧ State.reset.InputsSound ∧ State.reset.LinkSound ∧ State.reset.PortSound ∧ State.reset.StoreSound
    ∧ State.reset.ResetPinSound

/-! ## Invariants -/

/-- O: every step keeps the circuit table's law: configurations in range (R1), and levels that follow from the claims (R7, R9). -/
def Obligations.EveryStepKeepsCircuitsSound : Prop := ∀ s t : State, s.CircuitsSound → step s = .next t → t.CircuitsSound

/-- O: the output levels of a circuit table that keeps its law are those of R9 and within its limits. -/
def Obligations.OutputsAreWithinLimits : Prop :=
  ∀ s : State, s.CircuitsSound → ∀ c ∈ s.circuits, c.OutputInLimits
    ∧ c.output = match c.cfg.kind with
      | .dimmed => if c.raw = 0 then 0 else max c.cfg.floor (min c.cfg.cap c.raw)
      | .switched => if c.cfg.threshold ≤ c.raw then 1000 else 0

/-- O: every step keeps a Base claim on every circuit while the part runs, and empty layers while it does not (R4); Moving claims where R24, R31
and R66 allow them, on the Local layer of a Dimmed circuit, under an owner; and the Safe layer of every circuit in agreement with the safety
inputs (R15, R123 to R126). -/
def Obligations.EveryStepKeepsLayersSound : Prop :=
  ∀ s t : State, s.BaseSound → s.MovementSound → s.SafeSound → step s = .next t → t.BaseSound ∧ t.MovementSound ∧ t.SafeSound

/-- O: every step keeps the laws of the binding table and its key index (R36 to R41). -/
def Obligations.EveryStepKeepsBindingsSound : Prop := ∀ s t : State, s.BindingsSound → step s = .next t → t.BindingsSound

/-- O: every step keeps the laws of the group and scene tables and their pools (R71, R72, R77), and of the staging banks (R128). -/
def Obligations.EveryStepKeepsTargetsAndStagesSound : Prop :=
  ∀ s t : State, s.CircuitsSound → s.TargetsSound → s.StagesSound → step s = .next t → t.TargetsSound ∧ t.StagesSound

/-- O: every step keeps the laws of both station lines: poll lists, live fields, line states, what is in flight (R96 to R107), and the census
of each (R112, R113). -/
def Obligations.EveryStepKeepsLinesAndCensusSound : Prop :=
  ∀ s t : State, s.LinesSound → s.CensusSound → step s = .next t → t.LinesSound ∧ t.CensusSound

/-- O: every step keeps the laws of the contact inputs (R115 to R119). -/
def Obligations.EveryStepKeepsInputsSound : Prop := ∀ s t : State, s.InputsSound → step s = .next t → t.InputsSound

/-- O: every step keeps the laws of the rack link and of the mode options (R86, R139, R143). -/
def Obligations.EveryStepKeepsLinkAndOptionsSound : Prop :=
  ∀ s t : State, s.LinkSound → s.OptionsSound → step s = .next t → t.LinkSound ∧ t.OptionsSound

/-- O: every step keeps the law of the port: a reply in Done alone, a request in Working alone, Starting during start-up alone (R148), and the
reply a fetch in progress sends in the slot (R150), no byte in progress of eight bits (R146); that of the settings store: while it is Saving its copy equals the live tables (R157 to
R159); and that of the RESET pin: a part that has its supply is held exactly while the pin is low (R160). -/
def Obligations.EveryStepKeepsPortAndStoreSound : Prop :=
  (∀ s t : State, s.PortSound → s.StoreSound → step s = .next t → t.PortSound ∧ t.StoreSound)
    ∧ ∀ s t : State, s.ResetPinSound → step s = .next t → t.ResetPinSound

/-! ## Start-up -/

/-- O: a start-up begins (R160 steps 1 to 3): what POWER_ON with the RESET pin high, RESET_PIN_RELEASE and RESTART leave; the tables are those of
the image whose check is correct, or the blank defaults; RTX is at the mark level and both lines' drivers are disabled (log 14: the image's bytes;
log 31: a transaction goes on through RESTART). -/
def Obligations.StartUpArrivalsBeginStartUp : Prop :=
  ∀ (c : Instr) (cause : StartCause) (s : State),
    (c = .powerOn ∧ cause = .powerOn ∧ s.resetLow = false)
      ∨ (c = .resetPinRelease ∧ cause = .pin ∧ s.phase ≠ .unpowered)
      ∨ (c = .restart ∧ cause = .restart ∧ s.Serves .restart ∧ s.store.state = .ready) →
    ∃ t, exec c s = .next t ∧ t.phase = .settling ∧ t.startCause = cause
      ∧ t.stored = s.store.image.getD Stored.blank ∧ t.index = buildIndex t.slots
      ∧ (t.port.state = .starting ∧ t.port.slot = none ∧ t.port.request = none ∧ t.port.overrun = false
        ∧ t.port.flags = if s.store.image.isNone then Flag.storeBlank.only else 0)
      ∧ (∀ x ∈ t.circuits, x = Circuit.bare x.cfg)
      ∧ (t.link.sending = false ∧ t.link.frame = none ∧ t.link.owed = false ∧ t.link.late = 0 ∧ ∀ bit, t.rtxLevel bit = true)
      ∧ (∀ l, t.driverEnabled l = false ∧ (t.line l).state = .off ∧ (t.line l).exchange = none ∧ (t.line l).announce = none ∧ (t.line l).again = none
        ∧ (t.line l).round = 0 ∧ (t.line l).collisions = 0 ∧ (t.line l).census = .idle ∧ (t.line l).censusList = []
        ∧ (t.line l).stations = (t.line l).stored.stations.map Station.fresh)
      ∧ (t.stage1 = ⟨.empty, .go, []⟩ ∧ t.stage2 = ⟨.empty, .go, []⟩ ∧ t.ignored1 = 0 ∧ t.ignored2 = 0)
      ∧ t.store = ⟨.ready, s.store.image.isSome, s.store.memory, none⟩ ∧ t.settleSamples = 0 ∧ t.sdo = s.sdo
      ∧ (c = .restart → t.resetLow = s.resetLow ∧ t.spi = s.spi) ∧ (c ≠ .restart → t.resetLow = false ∧ t.spi = none)

/-- O: the end of settling runs start-up to its end (R85, R98, R122, R148, R160 steps 5 to 7; log 25: an end before the 250th sample that finds an
input not settled; log 26: what a closed count holds that no rule sets). -/
def Obligations.SettlingEndRunsStartUpToItsEnd : Prop :=
  ∀ s : State, s.phase = .settling → (∀ x ∈ s.circuits, x = Circuit.bare x.cfg) →
    ∃ t, exec .inputSettlingEnd s = .next t
      ∧ t = { s with
          phase := .running, mode := s.options.startMode, circuits := t.circuits, lineA := t.lineA, lineB := t.lineB, inputs := t.inputs,
          safe1 := t.safe1, safe2 := t.safe2, cue1 := t.cue1, cue2 := t.cue2, settleSamples := 0, link := t.link, port := t.port }
      ∧ (∀ n x, circuitAt s.circuits n = some x → ∃ y, circuitAt t.circuits n = some y ∧ y.cfg = x.cfg
        ∧ y.base = some ⟨.steady (x.cfg.clamp (x.cfg.base.at s.options.startMode)), s.options.startMode⟩
        ∧ y.local' = none ∧ y.show' = none ∧ y.handover = none ∧ y.Settled ∧ y.SafeAgrees t.asserted
        ∧ ∀ cl, y.safe = some cl → cl.form = .steady (x.cfg.wantedLevel t.asserted))
      ∧ t.asserted = ⟨!s.safe1.settled || s.safe1.level, !s.safe2.settled || s.safe2.level⟩
      ∧ (∀ n x, s.contact n = some x → ∃ y, t.contact n = some y ∧ y.config = x.config ∧ y.pin.level = x.pin.level
        ∧ y.pin.disagree = 0
        ∧ y.state = match x.config.kind with
          | .unused => .unused
          | .maintained => if x.config.isClosed x.pin.level then .closed else .open'
          | .momentary => if x.config.isClosed x.pin.level then .stuck else .open')
      ∧ (t.cue1.edge = s.cue1.edge ∧ t.cue1.pin.level = s.cue1.pin.level ∧ t.cue2.edge = s.cue2.edge
        ∧ t.cue2.pin.level = s.cue2.pin.level)
      ∧ t.link = { s.link with
          sending := true, frame := some (rackFrame t.circuits), inUse := s.link.period, nextStart := some s.link.period, owed := false }
      ∧ (∀ l, t.line l = if (s.line l).config.canRun then { s.line l with
          state := .running, round := 0, collisions := 0, lastPolled := none, waiting := false, announce := none, again := none
          exchange := none } else s.line l)
      ∧ (∀ bit, t.rtxLevel bit = (t.rtx[bit]?).getD true) ∧ (∀ l, (s.line l).config.canRun = true → t.driverEnabled l = false)
      ∧ t.port = { s.port with state := if s.port.state = .starting then .idle else s.port.state, flags := t.port.flags }
      ∧ ∀ f : Flag, t.port.isSet f = true ↔ s.port.isSet f = true ∨ f = .started
        ∨ f = .inputStuck ∧ ∃ x ∈ s.inputs, x.config.kind = .momentary ∧ x.config.isClosed x.pin.level = true

/-- O: the supply lost, the RESET pin pulled low, and the supply rising while the pin is low, stop everything at the beginning of step 1 (R139,
R146, R152, R159, R160; log 22, log 23): no claim, no frame, no exchange, no flag, no transaction, RTX at the mark level, both lines' drivers
disabled, ATTN released, SDO at high impedance, the stored tables (log 39) and the store's memory as they were, and no image in it where a Saving
or Erasing operation was stopped; without supply the pin's level alone changes. -/
def Obligations.SupplyLossAndResetStopThePart : Prop :=
  (∀ (c : Instr) (p : Phase) (low : Bool) (s : State),
    (c = .supplyLost ∧ p = .unpowered ∧ low = s.resetLow) ∨ (c = .resetPinLow ∧ p = .held ∧ low = true ∧ s.phase ≠ .unpowered)
      ∨ (c = .powerOn ∧ p = .held ∧ low = true ∧ s.resetLow = true) →
    ∃ t, exec c s = .next t ∧ t.phase = p ∧ t.resetLow = low ∧ t.circuits = s.circuits.map (fun x => Circuit.bare x.cfg)
      ∧ t.port.state = .starting ∧ t.port.slot = none ∧ t.port.flags = 0 ∧ t.attnLow = false ∧ t.spi = none ∧ t.sdoDriven = false
      ∧ t.link.sending = false ∧ t.link.frame = none ∧ t.link.owed = false ∧ t.startCause = s.startCause ∧ (∀ bit, t.rtxLevel bit = true)
      ∧ (∀ l, (t.line l).state = .off ∧ (t.line l).exchange = none ∧ t.driverEnabled l = false ∧ t.tx l = []) ∧ t.stored = s.stored
      ∧ t.store.state = .ready ∧ t.store.copy = none ∧ t.store.memory = s.store.memory
      ∧ (s.StoreSound → s.store.state ≠ .ready → t.store.image = none))
    ∧ ∀ s : State, s.phase = .unpowered →
      (∃ t, exec .resetPinLow s = .next t ∧ t = { s with resetLow := true })
      ∧ ∃ t, exec .resetPinRelease s = .next t ∧ t = { s with resetLow := false }

/-- O: a part that does not run takes no other command: an event brings nothing, and a request brings nothing or, in step 4 of start-up, a
STARTING reply, where no transaction is in progress (R148, R161; log 8, log 31). -/
def Obligations.NothingIsCarriedOutOutsideRunning : Prop :=
  ∀ (c : Instr) (s : State), takenInAnyPhase c = false → s.phase ≠ .running →
    exec c s = .next (if (requestCode c).isSome ∧ s.phase = .settling ∧ s.spi = none then s.answer (requestEcho c) .starting [] else s)

/-! ## Management port -/

/-- O: the request codec: reading the payload that carries a well-formed request's items gives the request back, and it fits in 250 bytes
(R149, R164, R165; log 17, log 19, log 20: sizes and orders inferred). -/
def Obligations.ReadingARequestUndoesWritingIt : Prop :=
  ∀ (i : Instr) (code : Nat), i.wellFormed = true → requestCode i = some code →
    parseRequest code (payloadOf i) = .request i ∧ (payloadOf i).length ≤ 250 ∧ code < 256

/-- O: a request frame is judged at the rise of SEL (R147): short, of length over 250 (as short), of wrong check, or complete. -/
def Obligations.RequestFramesAreJudged : Prop :=
  judgeFrame [] = .short 0 ∧ (∀ code, judgeFrame [code] = .short code)
    ∧ (∀ (code len : Byte) (rest : List Byte), 250 < len.toNat → judgeFrame (code :: len :: rest) = .short code)
    ∧ (∀ (code len : Byte) (rest : List Byte), rest.length ≤ len.toNat → judgeFrame (code :: len :: rest) = .short code)
    ∧ ∀ (code len check : Byte) (payload extra : List Byte), len.toNat ≤ 250 → payload.length = len.toNat →
      judgeFrame (code :: len :: (payload ++ check :: extra))
        = if check = crc8 (code :: len :: payload) then .complete code payload else .wrongCheck code

/-- O: a request transaction at a port that is there, whole or in pieces (R146 to R149, R151): its bytes are their bits, most significant first,
and pieces follow one another bit by bit; SDO carries FFh, then in each byte position the status byte as it stands at the start of that byte,
whatever arrived since the piece before, and a byte that has begun keeps it; at the rise of SEL the bits of a byte that is not complete are
discarded, and the port answers, accepts or discards by its state and the judged frame; a transaction whose first byte is neither selector, or that
has none, carries FFh and brings nothing; and SDO is driven only while SEL is low (log 5: the two checks made at once; log 31: pieces; log 35: a
byte starts at the fall of SCK before its first bit). -/
def Obligations.RequestTransactionsAreTakenByThePortState : Prop :=
  ∀ s : State, s.phase = .settling ∨ s.phase = .running →
    (∀ rest, s.spi = none → ∃ t, exec (.requestTransaction ⟨0xC3 :: rest, [], false⟩) s = .next t ∧ t.sdoDriven = true
      ∧ t = { s with
          spi := some ⟨0xC3 :: rest, none, false, none⟩, sdo := spiBits (0xFF :: List.replicate rest.length s.statusByte) })
    ∧ (∀ before due showed more, s.spi = some ⟨0xC3 :: before, due, showed, none⟩ →
      ∃ t, exec (.requestTransaction ⟨more, [], false⟩) s = .next t ∧ t.sdoDriven = true
        ∧ t = { s with
            spi := some ⟨0xC3 :: (before ++ more), due, showed, none⟩
            sdo := s.sdo ++ spiBits (List.replicate more.length s.statusByte) })
    ∧ (∀ bytes first due showed before, first ≠ 0xC3 → first ≠ 0x3C → s.spi = some ⟨first :: before, due, showed, none⟩ →
      (∃ t, exec (.requestTransaction ⟨bytes, [], false⟩) s = .next t
        ∧ t = { s with
            spi := some ⟨first :: (before ++ bytes), due, showed, none⟩
            sdo := s.sdo ++ spiBits (List.replicate bytes.length 0xFF) })
      ∧ ∃ t, exec (.requestTransaction ⟨bytes, [], true⟩) s = .next t
        ∧ t = { s with spi := none, sdo := s.sdo ++ spiBits (List.replicate bytes.length 0xFF) })
    ∧ (∀ bytes, s.spi = none → bytes.head? ≠ some 0xC3 → bytes.head? ≠ some 0x3C →
      (∃ t, exec (.requestTransaction ⟨bytes, [], false⟩) s = .next t
        ∧ t = { s with spi := some ⟨bytes, none, false, none⟩, sdo := spiBits (List.replicate bytes.length 0xFF) })
      ∧ ∃ t, exec (.requestTransaction ⟨bytes, [], true⟩) s = .next t
        ∧ t = { s with sdo := spiBits (List.replicate bytes.length 0xFF) })
    ∧ (∀ bytes bits rises, s.spi = some ⟨[], none, false, none⟩ → s.sdo = [] →
      exec (.requestTransaction ⟨bytes, bits, rises⟩) s = exec (.requestTransaction ⟨bytes, bits, rises⟩) { s with spi := none })
    ∧ (∀ bytes bits rises,
      exec (.requestTransaction ⟨bytes, bits, rises⟩) s = exec (.requestTransaction ⟨[], spiBits bytes ++ bits, rises⟩) s)
    ∧ (∀ bits more rises, ∃ u, exec (.requestTransaction ⟨[], bits, false⟩) s = .next u
      ∧ exec (.requestTransaction ⟨[], bits ++ more, rises⟩) s = exec (.requestTransaction ⟨[], more, rises⟩) u)
    ∧ (∀ before due showed sdi out, s.spi = some ⟨before, due, showed, none⟩ →
      (before = [] ∧ out = 0xFF ∨ before.head? = some 0xC3 ∧ out = s.statusByte) →
      ∃ t, exec (.requestTransaction ⟨[], [sdi], false⟩) s = .next t ∧ t.sdoPin = some (out.getLsbD 7)
        ∧ t = { s with spi := some ⟨before, due, showed, some ⟨out, [sdi]⟩⟩, sdo := s.sdo ++ [out.getLsbD 7] })
    ∧ (∀ before due showed out bits sdi, s.spi = some ⟨before, due, showed, some ⟨out, bits⟩⟩ →
      (bits.length < 7 → ∃ t, exec (.requestTransaction ⟨[], [sdi], false⟩) s = .next t
        ∧ t.sdoPin = some (out.getLsbD (7 - bits.length))
        ∧ t = { s with
            spi := some ⟨before, due, showed, some ⟨out, bits ++ [sdi]⟩⟩, sdo := s.sdo ++ [out.getLsbD (7 - bits.length)] })
      ∧ ∀ b : Byte, bits ++ [sdi] = [b.getLsbD 7, b.getLsbD 6, b.getLsbD 5, b.getLsbD 4, b.getLsbD 3, b.getLsbD 2, b.getLsbD 1, b.getLsbD 0] →
        ∃ t, exec (.requestTransaction ⟨[], [sdi], false⟩) s = .next t
          ∧ t = { s with spi := some ⟨before ++ [b], due, showed, none⟩, sdo := s.sdo ++ [out.getLsbD 0] })
    ∧ (∀ before due showed current, s.spi = some ⟨before, due, showed, current⟩ →
      exec (.requestTransaction ⟨[], [], true⟩) s
        = exec (.requestTransaction ⟨[], [], true⟩) { s with spi := some ⟨before, due, showed, none⟩ })
    ∧ ∀ bytes rest shown, (s.spi = none ∧ bytes = 0xC3 :: rest ∧ shown = spiBits (0xFF :: List.replicate rest.length s.statusByte))
        ∨ (∃ before due showed, s.spi = some ⟨0xC3 :: before, due, showed, none⟩ ∧ rest = before ++ bytes
          ∧ shown = s.sdo ++ spiBits (List.replicate bytes.length s.statusByte)) →
      ∃ t, exec (.requestTransaction ⟨bytes, [], true⟩) s = .next t ∧ t = { s with port := t.port, spi := none, sdo := shown }
        ∧ t.sdoDriven = false ∧ t.sdoPin = none
        ∧ (s.phase = .running → s.port.state = .working → t.port = { s.port with overrun := true })
        ∧ (s.phase = .settling → ∃ code, (judgeFrame rest = .short code ∨ judgeFrame rest = .wrongCheck code
            ∨ ∃ p, judgeFrame rest = .complete code p)
          ∧ t.port = { s.port with slot := some ⟨code, .starting, []⟩, state := .done, request := none })
        ∧ (s.phase = .running → s.port.state ≠ .working →
          (∀ code, judgeFrame rest = .short code →
            t.port = { s.port with slot := some ⟨code, .frameFail, []⟩, state := .done, request := none })
          ∧ (∀ code, judgeFrame rest = .wrongCheck code →
            t.port = { s.port with slot := some ⟨code, .checkFail, []⟩, state := .done, request := none })
          ∧ ∀ code p, judgeFrame rest = .complete code p →
            (parseRequest code.toNat p = .unknown →
              t.port = { s.port with slot := some ⟨code, .unknownRequest, []⟩, state := .done, request := none })
            ∧ (parseRequest code.toNat p = .badLength →
              t.port = { s.port with slot := some ⟨code, .length, []⟩, state := .done, request := none })
            ∧ ∀ i, parseRequest code.toNat p = .request i →
              t.port = { s.port with slot := none, state := .working, request := some i })

/-- O: a fetch of `n` whole bytes after its selector, whole or in pieces (R146, R150): the status byte, the reply that is due at it, FFh after; a
reply shifted out through its check byte leaves the slot empty and the port Idle, or Starting while start-up runs; a shorter fetch leaves it; the
overrun flag is cleared where its status byte was shifted out whole and showed it set; what SDI carries after the selector is ignored; and the
fetch's content, as each further byte, is fixed at the start of its byte (log 8: no fetch within another transaction; log 31: pieces; log 35: the
start of a byte). -/
def Obligations.FetchesShiftTheReplyOut : Prop :=
  ∀ (n : Nat) (s : State), s.phase = .settling ∨ s.phase = .running → s.PortSound →
    (∀ sent, (s.spi = none ∧ sent = spiBits [0xFF]) ∨ (∃ due showed, s.spi = some ⟨[0x3C], due, showed, none⟩ ∧ sent = s.sdo) →
      (∃ t, exec (.fetch ⟨n, 0, true⟩) s = .next t ∧ t = { s with port := t.port, spi := none, sdo := t.sdo }
        ∧ (s.port.state ≠ .done → t.sdo = sent ++ spiBits ((s.statusByte :: List.replicate n 0xFF).take n)
          ∧ t.port = { s.port with overrun := s.port.overrun && decide (n = 0) })
        ∧ ∀ r, s.port.state = .done → s.port.slot = some r →
          t.sdo = sent ++ spiBits ((s.statusByte :: (r.frame ++ List.replicate n 0xFF)).take n)
          ∧ (n < 1 + r.frame.length → t.port = { s.port with overrun := s.port.overrun && decide (n = 0) })
          ∧ (1 + r.frame.length ≤ n → t.port = { s.port with
              slot := none, state := if s.phase = .settling then .starting else .idle, overrun := false }))
      ∧ (1 ≤ n → ∃ t, exec (.fetch ⟨n, 0, false⟩) s = .next t ∧ t = { s with
          spi := some ⟨0x3C :: List.replicate n 0, if s.port.state = .done then s.port.slot.map Reply.frame else none, s.port.overrun, none⟩
          sdo := t.sdo }
        ∧ (s.port.state ≠ .done → t.sdo = sent ++ spiBits ((s.statusByte :: List.replicate n 0xFF).take n))
        ∧ ∀ r, s.port.state = .done → s.port.slot = some r →
          t.sdo = sent ++ spiBits ((s.statusByte :: (r.frame ++ List.replicate n 0xFF)).take n)))
    ∧ (s.spi = none → ∃ t, exec (.fetch ⟨0, 0, false⟩) s = .next t ∧ t = { s with spi := some ⟨[0x3C], none, false, none⟩, sdo := spiBits [0xFF] })
    ∧ (∀ first after due showed shown, s.spi = some ⟨0x3C :: first :: after, due, showed, none⟩ →
      shown = s.sdo ++ spiBits (((due.getD []).drop after.length ++ List.replicate n 0xFF).take n) →
      (∃ t, exec (.fetch ⟨n, 0, false⟩) s = .next t
        ∧ t = { s with spi := some ⟨0x3C :: first :: (after ++ List.replicate n 0), due, showed, none⟩, sdo := shown })
      ∧ ∃ t, exec (.fetch ⟨n, 0, true⟩) s = .next t ∧ t = { s with port := t.port, spi := none, sdo := shown }
        ∧ (due = none → t.port = { s.port with overrun := s.port.overrun && !showed })
        ∧ ∀ f, due = some f →
          (after.length + n < f.length → t.port = { s.port with overrun := s.port.overrun && !showed })
          ∧ (f.length ≤ after.length + n → t.port = { s.port with
              slot := none, state := if s.phase = .settling then .starting else .idle, overrun := s.port.overrun && !showed }))
    ∧ (∀ bits rises, s.spi = some ⟨[], none, false, none⟩ → s.sdo = [] →
      exec (.fetch ⟨n, bits, rises⟩) s = exec (.fetch ⟨n, bits, rises⟩) { s with spi := none })
    ∧ (∀ bits rises, (∃ first before due showed current, first ≠ 0x3C ∧ s.spi = some ⟨first :: before, due, showed, current⟩)
        ∨ (∃ due showed c, s.spi = some ⟨[], due, showed, some c⟩) →
      exec (.fetch ⟨n, bits, rises⟩) s = .next s)
    ∧ (∀ bits rises, s.spi = none → exec (.fetch ⟨n, bits, rises⟩) s
      = exec (.requestTransaction ⟨0x3C :: List.replicate n 0, List.replicate bits false, rises⟩) s)
    ∧ (∀ bits rises before due showed current, s.spi = some ⟨0x3C :: before, due, showed, current⟩ → exec (.fetch ⟨n, bits, rises⟩) s
      = exec (.requestTransaction ⟨List.replicate n 0, List.replicate bits false, rises⟩) s)
    ∧ (∀ sdi due showed, s.spi = some ⟨[0x3C], due, showed, none⟩ →
      ∃ t, exec (.requestTransaction ⟨[], [sdi], false⟩) s = .next t ∧ t = { s with
        spi := some ⟨[0x3C], if s.port.state = .done then s.port.slot.map Reply.frame else none, s.port.overrun, some ⟨s.statusByte, [sdi]⟩⟩
        sdo := s.sdo ++ [s.statusByte.getLsbD 7] })
    ∧ (∀ sdi first after due showed out, s.spi = some ⟨0x3C :: first :: after, due, showed, none⟩ →
      out = (due.getD []).getD after.length 0xFF →
      ∃ t, exec (.requestTransaction ⟨[], [sdi], false⟩) s = .next t ∧ t = { s with
        spi := some ⟨0x3C :: first :: after, due, showed, some ⟨out, [sdi]⟩⟩, sdo := s.sdo ++ [out.getLsbD 7] })
    ∧ ∀ bytes : List Byte, bytes.length = n →
      (s.spi = none → exec (.requestTransaction ⟨0x3C :: bytes, [], true⟩) s = exec (.fetch ⟨n, 0, true⟩) s)
      ∧ ∀ before due showed, s.spi = some ⟨0x3C :: before, due, showed, none⟩ →
        exec (.requestTransaction ⟨bytes, [], true⟩) s = exec (.fetch ⟨n, 0, true⟩) s

/-- O: the status byte reports the port state, overrun, attention, store busy and safe active in the bits of R164 (R151), and is never
FFh; and ATTN is low exactly while an unmasked flag is set at a part that has its supply and is not held in reset, in start-up as after it
(R152; log 18: a set bit of the mask marks its flag masked). -/
def Obligations.TheStatusByteReportsItsItems : Prop :=
  ∀ s : State, s.statusByte ≠ 0xFF ∧ s.statusByte.toNat % 4 = s.port.state.code
    ∧ s.statusByte.getLsbD 2 = s.port.overrun ∧ (s.statusByte.getLsbD 3 = true ↔ s.port.flags &&& ~~~s.port.mask ≠ 0)
    ∧ (s.statusByte.getLsbD 4 = true ↔ s.store.state = .saving ∨ s.store.state = .erasing)
    ∧ (s.phase = .running → s.statusByte.getLsbD 5 = (s.safe1.level || s.safe2.level))
    ∧ s.statusByte.getLsbD 6 = false ∧ s.statusByte.getLsbD 7 = false
    ∧ (s.attnLow = true ↔ (s.phase = .settling ∨ s.phase = .running) ∧ ∃ f : Flag, s.port.isSet f = true ∧ s.port.mask.getLsbD f.bit = false)

/-- O: CLEAR ATTENTION clears the flags it names and no other, SET ATTENTION MASK writes the mask, and each is refused with RANGE for a bit
that names none of the thirteen (R153). -/
def Obligations.AttentionRequestsClearAndMask : Prop :=
  ∀ (n : Nat) (s : State),
    (s.Serves (.clearAttention n) →
      (n < 2 ^ 13 → ∃ t, exec (.clearAttention n) s = .next t ∧ t = { s with port := t.port }
        ∧ t.port = { s.port with
            flags := t.port.flags, slot := some ⟨requestEcho (.clearAttention n), .ok, []⟩, state := .done, request := none }
        ∧ ∀ f : Flag, t.port.isSet f = (s.port.isSet f && !n.testBit f.bit))
      ∧ (2 ^ 13 ≤ n → s.Refuses (.clearAttention n) .range))
    ∧ (s.Serves (.setAttentionMask n) → s.store.state = .ready →
      (n < 2 ^ 13 → ∃ t, exec (.setAttentionMask n) s = .next t ∧ t = { s with port := t.port }
        ∧ t.port = { s.port with
            mask := t.port.mask, slot := some ⟨requestEcho (.setAttentionMask n), .ok, []⟩, state := .done, request := none }
        ∧ ∀ f : Flag, t.port.mask.getLsbD f.bit = n.testBit f.bit)
      ∧ (2 ^ 13 ≤ n → s.Refuses (.setAttentionMask n) .range))

/-- O: while the store is Saving or Erasing every request that writes a table of the image is refused with STORE_BUSY and RESTART with
OCCUPIED; the rest of the part is as it was (R155, R157, R158). -/
def Obligations.WritesAreRefusedWhileTheStoreIsBusy : Prop :=
  ∀ (i : Instr) (s : State), s.Serves i → s.store.state ≠ .ready →
    (writesImage i = true → s.Refuses i .storeBusy) ∧ (i = .restart → s.Refuses i .occupied)

/-- O: the reads of the port, the circuits (the record of R1 and the 47 bytes of R166), mode control, the rack link and the store report their state and change nothing (R3, R19, R88,
R145, R153, R154, R159, R165, R166; log 17, log 18). -/
def Obligations.ReadsOfThePartReportAndChangeNothing : Prop :=
  ∀ s : State,
    s.Reports .readIdentity (be1 0x53 ++ be2 0x180 ++ be1 1 ++ be1 (startCauseCode s.startCause))
    ∧ s.Reports .readAttention (be2 s.port.flags.toNat ++ be2 s.port.mask.toNat)
    ∧ (∀ first count, 1 ≤ first → first ≤ 384 → 1 ≤ count → count ≤ 16 → first + count - 1 ≤ 384 →
      s.Reports (.readCircuitConfig first count)
        ((List.range count).flatMap fun k => ((circuitAt s.circuits (first + k)).map fun c => configBytes c.cfg).getD [])
      ∧ s.Reports (.readCircuitState first count)
        ((List.range count).flatMap fun k => ((circuitAt s.circuits (first + k)).map circuitBytes).getD []))
    ∧ (∀ n, be1 n = [BitVec.ofNat 8 n] ∧ be2 n = [BitVec.ofNat 8 (n / 256), BitVec.ofNat 8 n])
    ∧ (∀ c : CircuitConfig, configBytes c = be1 (if c.kind = .dimmed then 0 else 1) ++ be2 c.floor ++ be2 c.cap ++ be2 c.threshold
      ++ be1 (if c.inverted then 0 else 1) ++ be2 c.base.closed ++ be2 c.base.cleaning ++ be2 c.base.work ++ be2 c.base.rehearsal
      ++ be2 c.base.performance ++ be2 (c.safe1.getD 0xFFFF) ++ be2 (c.safe2.getD 0xFFFF) ++ be1 (modeSetCode c.localClear))
    ∧ (∀ c : Circuit, (circuitBytes c).length = 47 ∧ (circuitBytes c).take 4 = be2 c.output ++ be2 c.raw
      ∧ (∀ l, c.deciding = some l → (circuitBytes c)[4]? = some (BitVec.ofNat 8 (layerCode l)))
      ∧ (circuitBytes c).drop 45 = be2 (match c.handover with | none => 0 | some h => h.duration - h.count)
      ∧ (∀ l block, block = ((circuitBytes c).drop (5 + 10 * layerCode l)).take 10 →
        (c.form? l = none → block = List.replicate 10 0)
        ∧ (∀ v, c.form? l = some (.steady v) → block.take 5 = be1 1 ++ be2 v ++ be2 v)
        ∧ (∀ a b d k, c.form? l = some (.fading a b d k) → block.take 5 = be1 2 ++ be2 (fadeValue a b d k) ++ be2 b)
        ∧ (∀ a dir r k v, c.form? l = some (.moving a dir r k v) →
          block.take 5 = be1 (match dir with | .up => 3 | .down => 4) ++ be2 v ++ be2 r)
        ∧ (∀ cl, l = .base → c.base = some cl → block.drop 5 = be1 (modeCode cl.owner) ++ List.replicate 4 0)
        ∧ (∀ cl, l = .local' → c.local' = some cl → block.drop 5 = match cl.owner with
          | none => List.replicate 5 0xFF
          | some (n, .station line a b) => be2 n ++ be1 (match line with | .a => 0 | .b => 1) ++ be1 a ++ be1 b
          | some (n, .contact i) => be2 n ++ be1 2 ++ be1 0 ++ be1 i)
        ∧ (∀ cl, l = .show' → c.show' = some cl →
          block.drop 5 = be1 (match cl.owner with | .stage1 => 1 | .stage2 => 2 | .port => 3) ++ List.replicate 4 0)
        ∧ ∀ cl, l = .safe → c.safe = some cl →
          block.drop 5 = be1 ((if cl.owner.safe1 then 1 else 0) + if cl.owner.safe2 then 2 else 0) ++ List.replicate 4 0))
    ∧ s.Reports .readMode (be1 (modeCode s.mode) ++ be2 s.options.modeFade ++ be2 s.options.defaultFade ++ be2 s.options.defaultRate
      ++ be2 s.options.safeReleaseFade ++ be1 (modeCode s.options.startMode))
    ∧ s.Reports .readRackLink (be1 (if s.link.sending then 1 else 0) ++ be1 s.link.period ++ be1 s.link.inUse
      ++ be1 (if s.link.frame.isSome then 0 else 1) ++ be1 (if s.link.owed then 0 else 1) ++ be1 s.link.late)
    ∧ s.Reports .readStoreState (be1 (storeStateCode s.store.state) ++ be1 (if s.store.valid then 0 else 1))

/-- O: the reads of the binding table, the target tables, the stages, the station lines and the inputs report their records and change nothing
(R49, R50, R75, R82, R111, R114, R121, R138; log 17; log 26: the closed count of a Maintained input). -/
def Obligations.ReadsOfTheRecordsReportAndChangeNothing : Prop :=
  ∀ s : State,
    (∀ n b, n ≤ 1023 → (slotAt s.slots n).record = some b →
      s.Reports (.readBinding n) (be1 (slotAt s.slots n).code ++ bindingBytes b))
    ∧ (∀ k e key kind, keyOf k = some key → kindOf e = some kind →
      s.Reports (.findBindings k e) ((indexList s.index key kind).flatMap fun n => be2 n ++ be1 (slotAt s.slots n).code))
    ∧ (∀ g first count l, 1 ≤ g → g ≤ 64 → first ≤ 383 → 1 ≤ count → count ≤ 100 → groupAt s.groups g = some l →
      s.Reports (.readGroup g first count)
        (be2 l.length ++ be2 (1536 - membersUsed s.groups) ++ ((l.drop first).take count).flatMap be2))
    ∧ (∀ n first count sc, 1 ≤ n → n ≤ 32 → first ≤ 383 → 1 ≤ count → count ≤ 60 → sceneAt s.scenes n = some sc →
      s.Reports (.readScene n first count)
        (opt2 sc.fade ++ be2 sc.entries.length ++ be2 (2048 - entriesUsed s.scenes) ++ be1 (if s.sceneActive n then 0 else 1)
          ++ ((sc.entries.drop first).take count).flatMap fun e => be2 e.1 ++ be2 e.2))
    ∧ (∀ n i first count, stageIdOf n = some i → first ≤ 383 → 1 ≤ count → count ≤ 60 →
      s.Reports (.readStage n first count)
        (be1 (stageStateCode (s.stage i).state) ++ be1 (triggerCode (s.stage i).trigger) ++ be2 (s.stage i).entries.length
          ++ be1 s.ignored1 ++ be1 s.ignored2 ++ (((s.stage i).entries.drop first).take count).flatMap stageEntryBytes))
    ∧ (∀ n l a r, lineOf n = some l → 1 ≤ a → a ≤ 62 → stationAt (s.line l).stations a = some r →
      s.Reports (.readStation n a) (be1 r.ident.address ++ be1 r.ident.buttons ++ be1 (if r.ident.indicators then 0 else 1)
        ++ be1 (stationStateCode r.state) ++ be1 r.misses ++ be1 (lastBitCode r.lastBit) ++ be1 r.eventsLost))
    ∧ (∀ n l, lineOf n = some l →
      s.Reports (.readLine n) (lineBytes (s.line l))
      ∧ s.Reports (.censusRead n) (be1 (censusStateCode (s.line l).census)
        ++ (s.line l).censusList.flatMap fun i => be1 i.address ++ be1 i.buttons ++ be1 (if i.indicators then 0 else 1)))
    ∧ (∀ n x, 1 ≤ n → n ≤ 24 → s.contact n = some x →
      s.Reports (.readInput n) (be1 (inputKindCode x.config.kind) ++ be1 (if x.config.pullUp then 0 else 1)
        ++ be1 (if x.config.closedHigh then 1 else 0) ++ be1 x.config.debounce ++ be2 x.config.holdTime ++ be2 x.config.stuckTime
        ++ be1 (if x.pin.level = x.config.closedHigh then 1 else 0) ++ be1 (inputStateCode x.state)
        ++ if x.state = .closed ∨ x.state = .held then be3 x.closedCount else []))
    ∧ s.Reports (.readInput 25) (be1 (if s.safe1.level then 0 else 1) ++ be1 (if s.safe1.level then 0 else 1))
    ∧ s.Reports (.readInput 26) (be1 (if s.safe2.level then 0 else 1) ++ be1 (if s.safe2.level then 0 else 1))
    ∧ s.Reports (.readInput 27) (be1 (edgeCode s.cue1.edge) ++ be1 (if s.cue1.pin.level then 0 else 1))
    ∧ s.Reports (.readInput 28) (be1 (edgeCode s.cue2.edge) ++ be1 (if s.cue2.pin.level then 0 else 1))

/-! ## Circuits -/

/-- O: CLAIM LEVEL makes the claim (R5, R8, R10, R17, R23): the layer's claim runs from the raw level where it decides and from the layer's own
value where it is hidden, to the clamped level; a decided circuit's handover is removed; every other circuit and layer is as it was;
and a circuit, layer, level or fade outside its range, Base and Safe among the layers, is refused with RANGE. -/
def Obligations.ClaimLevelMakesTheClaim : Prop :=
  (∀ (n code v fade : Nat) (l : Layer) (s : State) (x : Circuit), s.Serves (.claimLevel n code v fade) →
    (code = 1 ∧ l = .local' ∨ code = 2 ∧ l = .show') → v ≤ 1000 → fade ≤ 6000 → n ≤ 384 → circuitAt s.circuits n = some x →
    ∃ t y, s.Completes t (.claimLevel n code v fade) .ok [] ∧ t = { s with circuits := t.circuits, port := t.port }
      ∧ AgreeOff n s.circuits t.circuits ∧ circuitAt t.circuits n = some y ∧ x.SameBut y l
      ∧ y.form? l = some (if fade = 0 then .steady (x.cfg.clamp v) else .fading (x.startLevel l) (x.cfg.clamp v) (10 * fade) 0)
      ∧ (l = .local' → y.local'.map (·.owner) = some none) ∧ (l = .show' → y.show'.map (·.owner) = some .port)
      ∧ y.handover = (if x.decides l then none else x.handover) ∧ y.Settled
      ∧ (x.Settled → y.raw = if x.decides l ∧ fade = 0 then x.cfg.clamp v else x.raw))
    ∧ ∀ (n code v fade : Nat) (s : State), s.Serves (.claimLevel n code v fade) →
      n < 1 ∨ 384 < n ∨ (code ≠ 1 ∧ code ≠ 2) ∨ 1000 < v ∨ 6000 < fade → s.Refuses (.claimLevel n code v fade) .range

/-- O: RELEASE LAYER releases the layer (R11, R18): an empty layer changes nothing; a hidden one goes unseen; a deciding one hands over from the
raw level in 10 ticks a tenth, or at once with fade 0; every other circuit and layer is as it was; and a circuit,
layer or fade outside its range, Base and Safe among the layers, is refused with RANGE. -/
def Obligations.ReleaseLayerReleasesTheLayer : Prop :=
  (∀ (n code fade : Nat) (l : Layer) (s : State) (x : Circuit), s.Serves (.releaseLayer n code fade) →
    (code = 1 ∧ l = .local' ∨ code = 2 ∧ l = .show') → fade ≤ 6000 → n ≤ 384 → circuitAt s.circuits n = some x → x.Settled →
    x.base.isSome = true →
    ∃ t y, s.Completes t (.releaseLayer n code fade) .ok [] ∧ t = { s with circuits := t.circuits, port := t.port }
      ∧ AgreeOff n s.circuits t.circuits ∧ circuitAt t.circuits n = some y ∧ x.SameBut y l ∧ y.form? l = none ∧ y.Settled
      ∧ (x.form? l = none → y = x)
      ∧ (x.form? l ≠ none → x.deciding ≠ some l → y.raw = x.raw ∧ y.handover = x.handover)
      ∧ (x.deciding = some l → fade = 0 → y.handover = none ∧ y.raw = y.decidingValue)
      ∧ (x.deciding = some l → 0 < fade → y.handover = some ⟨x.raw, 10 * fade, 0⟩ ∧ y.raw = x.raw))
    ∧ ∀ (n code fade : Nat) (s : State), s.Serves (.releaseLayer n code fade) →
      n < 1 ∨ 384 < n ∨ (code ≠ 1 ∧ code ≠ 2) ∨ 6000 < fade → s.Refuses (.releaseLayer n code fade) .range

/-- O: SET CIRCUIT CONFIG writes every circuit of its span and no other (R2): a write that keeps the kind keeps the claims below Safe (R13), a kind
change drops Local and Show and re-makes Base at once (R14); after either, the Safe layer agrees with the safety inputs (R15) and the levels
follow; and a span, a field (R1) or a resulting record outside its range is refused with RANGE (log 19, log 20: the codes). -/
def Obligations.SetCircuitConfigWritesItsSpan : Prop :=
  (∀ (first last : Nat) (f : CircuitFields) (s : State), s.Serves (.setCircuitConfig first last f) → s.store.state = .ready →
    1 ≤ first → first ≤ last → last ≤ 384 → circuitFieldsInRange f = true →
    (∀ n x, first ≤ n → n ≤ last → circuitAt s.circuits n = some x → (x.cfg.withFields f).floor ≤ (x.cfg.withFields f).cap
      ∧ 1 ≤ (x.cfg.withFields f).cap) →
    ∃ t, s.Completes t (.setCircuitConfig first last f) .ok [] ∧ t = { s with circuits := t.circuits, port := t.port }
      ∧ t.circuits.length = s.circuits.length ∧ (∀ n, ¬(first ≤ n ∧ n ≤ last) → circuitAt t.circuits n = circuitAt s.circuits n)
      ∧ ∀ n x, first ≤ n → n ≤ last → circuitAt s.circuits n = some x → ∃ y, circuitAt t.circuits n = some y
        ∧ y.cfg = x.cfg.withFields f ∧ y.SafeAgrees s.asserted ∧ y.Settled
        ∧ (y.cfg.kind = x.cfg.kind → y.base = x.base ∧ y.local' = x.local' ∧ y.show' = x.show'
          ∧ (y.safe = x.safe → y.handover = x.handover ∧ (x.Settled → y.raw = x.raw)))
        ∧ (y.cfg.kind ≠ x.cfg.kind → y.local' = none ∧ y.show' = none ∧ y.handover = none
          ∧ y.base = some ⟨.steady (y.cfg.clamp (y.cfg.base.at s.mode)), s.mode⟩
          ∧ ∀ cl, y.safe = some cl → cl.form = .steady (y.cfg.wantedLevel s.asserted)))
    ∧ (∀ (first last : Nat) (f : CircuitFields) (s : State), s.Serves (.setCircuitConfig first last f) → s.store.state = .ready →
      first < 1 ∨ 384 < first ∨ last < 1 ∨ 384 < last ∨ last < first ∨ circuitFieldsInRange f = false
        ∨ (∃ n x, first ≤ n ∧ n ≤ last ∧ circuitAt s.circuits n = some x ∧ ((x.cfg.withFields f).cap < (x.cfg.withFields f).floor
          ∨ (x.cfg.withFields f).cap < 1)) →
      s.Refuses (.setCircuitConfig first last f) .range)
    ∧ ∀ f : CircuitFields, circuitFieldsInRange f = true ↔ (∀ v, f.kind = some v → v ≤ 1) ∧ (∀ v, f.floor = some v → v ≤ 500)
      ∧ (∀ v, f.cap = some v → 1 ≤ v ∧ v ≤ 1000) ∧ (∀ v, f.threshold = some v → 1 ≤ v ∧ v ≤ 1000)
      ∧ (∀ v, f.inverted = some v → v ≤ 1) ∧ (∀ b m, f.base = some b → b.at m ≤ 1000)
      ∧ (∀ v, f.safe1 = some (some v) → 1 ≤ v ∧ v ≤ 1000) ∧ (∀ v, f.safe2 = some (some v) → 1 ≤ v ∧ v ≤ 1000)
      ∧ ∀ v, f.localClear = some v → v < 32

/-- O: a fade tick advances every claim and handover of every circuit by one count, completes those that reach their duration, and recomputes
the levels; nothing else changes (R16, R26, R29, R33). -/
def Obligations.FadeTickAdvancesEveryClaim : Prop :=
  ∀ s : State, s.phase = .running →
    ∃ t, exec .fadeTick s = .next t ∧ t = { s with circuits := t.circuits } ∧ t.circuits.length = s.circuits.length
      ∧ ∀ n x, circuitAt s.circuits n = some x → ∃ y, circuitAt t.circuits n = some y ∧ y.cfg = x.cfg ∧ y.Settled
        ∧ (y.base.map (·.owner) = x.base.map (·.owner) ∧ y.local'.map (·.owner) = x.local'.map (·.owner)
          ∧ y.show'.map (·.owner) = x.show'.map (·.owner) ∧ y.safe.map (·.owner) = x.safe.map (·.owner))
        ∧ (∀ l, y.form? l = (x.form? l).map fun f => match f with
          | .steady v => .steady v
          | .fading a b d k => if d ≤ k + 1 then .steady b else .fading a b d (k + 1)
          | .moving a dir r k _ => .moving a dir r (min (k + 1) 65535) (moveValue x.cfg a dir r (min (k + 1) 65535)))
        ∧ y.handover = match x.handover with
          | none => none
          | some h => if h.duration ≤ h.count + 1 then none else some { h with count := h.count + 1 }

/-- O: FADE_COMPLETE makes a Fading claim Steady at its target (R22), and HANDOVER_END removes a handover so that the raw level is the deciding
claim's value (R32); both leave every other circuit (log 7). -/
def Obligations.FadesAndHandoversComplete : Prop :=
  ∀ (n : Nat) (l : Layer) (s : State) (x : Circuit), s.phase = .running → circuitAt s.circuits n = some x →
    (∀ a b d k, x.form? l = some (.fading a b d k) →
      ∃ t y, exec (.fadeComplete n l) s = .next t ∧ t = { s with circuits := t.circuits } ∧ AgreeOff n s.circuits t.circuits
        ∧ circuitAt t.circuits n = some y ∧ x.SameBut y l ∧ y.form? l = some (.steady b) ∧ y.handover = x.handover ∧ y.Settled)
    ∧ (x.handover.isSome = true →
      ∃ t y, exec (.handoverEnd n) s = .next t ∧ t = { s with circuits := t.circuits } ∧ AgreeOff n s.circuits t.circuits
        ∧ circuitAt t.circuits n = some y ∧ (∀ k, y.form? k = x.form? k) ∧ y.cfg = x.cfg ∧ y.handover = none
        ∧ y.raw = x.decidingValue ∧ y.Settled)

/-- O: the fade formula (R20, R21): the exact product divided with truncation toward zero, up and down; its product stays within 60 000 000, its value at 0 and at D is from and to, it lies between from and to, it
never moves back toward its start, and each tick changes it by the whole part of the quotient or one more; and a claim made with a fade of F
tenths is Steady at once for F = 0, still Fading before its 10 F-th tick, and Steady at its target from it on (R22). -/
def Obligations.AFadeRunsMonotonelyForItsDuration : Prop :=
  (∀ a b d k : Nat, a ≤ 1000 → b ≤ 1000 → 1 ≤ d → d ≤ 60000 → k ≤ d →
    (((b : Int) - a) * k).natAbs ≤ 60000000
      ∧ (a ≤ b → fadeValue a b d k = a + (b - a) * k / d) ∧ (b ≤ a → fadeValue a b d k = a - (a - b) * k / d)
      ∧ fadeValue a b d 0 = a ∧ fadeValue a b d d = b
      ∧ min a b ≤ fadeValue a b d k ∧ fadeValue a b d k ≤ max a b
      ∧ (k < d →
        (a ≤ b → fadeValue a b d k ≤ fadeValue a b d (k + 1)
          ∧ (b - a) / d ≤ fadeValue a b d (k + 1) - fadeValue a b d k ∧ fadeValue a b d (k + 1) - fadeValue a b d k ≤ (b - a) / d + 1)
        ∧ (b ≤ a → fadeValue a b d (k + 1) ≤ fadeValue a b d k
          ∧ (a - b) / d ≤ fadeValue a b d k - fadeValue a b d (k + 1) ∧ fadeValue a b d k - fadeValue a b d (k + 1) ≤ (a - b) / d + 1)))
    ∧ ∀ (cfg : CircuitConfig) (start target fade k : Nat),
      (fade = 0 → Form.ofFade start target fade = .steady target)
        ∧ (k < 10 * fade → (Form.tick cfg)^[k] (Form.ofFade start target fade) = .fading start target (10 * fade) k)
        ∧ (10 * fade ≤ k → (Form.tick cfg)^[k] (Form.ofFade start target fade) = .steady target)

/-- O: a raise or lower on one circuit (R10, R24, R25, R26, R31): where it starts, its value by the step of R25 from then on, up and down,
that it stands within floor and cap, that it is at its limit from 10 R ticks on, and that a Switched circuit takes a Steady claim. -/
def Obligations.RaiseAndLowerStartWithinTheLimitsAndSaturate : Prop :=
  ∀ (o : LocalOwner) (dir : Direction) (r k : Nat) (x : Circuit), x.cfg.floor ≤ x.cfg.cap → x.cfg.cap ≤ 1000 → 1 ≤ r →
    (x.move o dir r).local' = some ⟨match x.cfg.kind, dir with
      | .switched, .up => .steady 1000
      | .switched, .down => .steady 0
      | .dimmed, .up => .moving (max x.cfg.floor (min x.cfg.cap (x.startLevel .local'))) .up r 0
          (max x.cfg.floor (min x.cfg.cap (x.startLevel .local')))
      | .dimmed, .down => if x.startLevel .local' = 0 then .steady 0
          else .moving (max x.cfg.floor (min x.cfg.cap (x.startLevel .local'))) .down r 0
            (max x.cfg.floor (min x.cfg.cap (x.startLevel .local'))), o⟩
      ∧ x.SameBut (x.move o dir r) .local'
      ∧ (∀ start, moveValue x.cfg start .up r k = min x.cfg.cap (max x.cfg.floor (start + 1000 * k / (10 * r)))
        ∧ ((moveValue x.cfg start .down r k : Nat) : Int)
          = max (x.cfg.floor : Int) (min (x.cfg.cap : Int) ((start : Int) - ((1000 * k / (10 * r) : Nat) : Int))))
      ∧ (1000 * (k + 1) / (10 * r) = 1000 * k / (10 * r) + 100 / r ∨ 1000 * (k + 1) / (10 * r) = 1000 * k / (10 * r) + 100 / r + 1)
      ∧ ∀ start, start ≤ 1000 → x.cfg.floor ≤ moveValue x.cfg start dir r k ∧ moveValue x.cfg start dir r k ≤ x.cfg.cap
        ∧ (10 * r ≤ k → moveValue x.cfg start dir r k = match dir with
          | .up => x.cfg.cap
          | .down => x.cfg.floor)

/-! ## The binding table -/

/-- O: ADD BINDING (R40, R41, R43): an accepted record stands Live in the lowest-numbered Free slot and in its pair's list of the index, and
nothing else changes; each check that fails refuses with its result. -/
def Obligations.AddBindingWritesTheLowestFreeSlot : Prop :=
  ∀ (r : RawBinding) (s : State), s.Serves (.addBinding r) → s.store.state = .ready →
    (∀ b n, s.BindingsSound → checkBinding r = .ok b → n < 1024 → slotAt s.slots n = .free → (∀ m, m < n → slotAt s.slots m ≠ .free) →
      (∀ m c, (slotAt s.slots m).record = some c → b.same c = false) → (slotsHolding s.slots b.key b.kind).length < 8 →
      ∃ t, s.Completes t (.addBinding r) .ok (be2 n) ∧ t = { s with slots := t.slots, index := t.index, port := t.port }
        ∧ slotAt t.slots n = .live b ∧ (∀ m, m ≠ n → slotAt t.slots m = slotAt s.slots m)
        ∧ ∀ m k e, m ∈ indexList t.index k e ↔ m ∈ indexList s.index k e ∨ m = n ∧ k = b.key ∧ e = b.kind)
    ∧ (bindingOf r = none → s.Refuses (.addBinding r) .range)
    ∧ (∀ b, bindingOf r = some b → b.agrees = false → s.Refuses (.addBinding r) .mismatch)
    ∧ ∀ b, checkBinding r = .ok b →
      ((∀ x ∈ s.slots, x ≠ .free) → s.Refuses (.addBinding r) .tableFull)
      ∧ ((∃ x ∈ s.slots, x = .free) →
        (∀ m c, (slotAt s.slots m).record = some c → b.same c = true → s.Refuses (.addBinding r) .duplicate)
        ∧ ((∀ m c, (slotAt s.slots m).record = some c → b.same c = false) → 8 ≤ (indexList s.index b.key b.kind).length →
          s.Refuses (.addBinding r) .keyFull))

/-- O: REPLACE BINDING (R42, R44): the slot's claims are cleared on every circuit, its record is the new one, its state is kept, the index
follows, and nothing else changes. -/
def Obligations.ReplaceBindingRewritesItsSlot : Prop :=
  ∀ (n : Nat) (r : RawBinding) (old b : Binding) (s : State), s.Serves (.replaceBinding n r) → s.store.state = .ready →
    s.BindingsSound → n ≤ 1023 → (slotAt s.slots n).record = some old → checkBinding r = .ok b →
    (∀ m c, m ≠ n → (slotAt s.slots m).record = some c → b.same c = false) →
    ((slotsHolding s.slots b.key b.kind).filter (· ≠ n)).length < 8 →
    ∃ t, s.Completes t (.replaceBinding n r) .ok []
      ∧ t = { s with circuits := s.circuits.map (Circuit.clearSlot n), slots := t.slots, index := t.index, port := t.port }
      ∧ (slotAt s.slots n = .live old → slotAt t.slots n = .live b) ∧ (slotAt s.slots n = .disabled old → slotAt t.slots n = .disabled b)
      ∧ (∀ m, m ≠ n → slotAt t.slots m = slotAt s.slots m)
      ∧ ∀ m k e, m ∈ indexList t.index k e ↔ m ≠ n ∧ m ∈ indexList s.index k e ∨ m = n ∧ k = b.key ∧ e = b.kind

/-- O: RETIRE BINDING and RETIRE SOURCE (R42, R45, R46): the slot, or every slot with a record of the source key, becomes Free and leaves the
index, its claims are cleared, and nothing else changes; RETIRE SOURCE replies with the number of slots. -/
def Obligations.RetiringFreesTheSlotsAndClearsTheirClaims : Prop :=
  ∀ s : State, s.store.state = .ready → s.BindingsSound →
    (∀ n b, s.Serves (.retireBinding n) → n ≤ 1023 → (slotAt s.slots n).record = some b →
      ∃ t, s.Completes t (.retireBinding n) .ok []
        ∧ t = { s with circuits := s.circuits.map (Circuit.clearSlot n), slots := t.slots, index := t.index, port := t.port }
        ∧ slotAt t.slots n = .free ∧ (∀ m, m ≠ n → slotAt t.slots m = slotAt s.slots m)
        ∧ ∀ m k e, m ∈ indexList t.index k e ↔ m ≠ n ∧ m ∈ indexList s.index k e)
    ∧ ∀ raw key, s.Serves (.retireSource raw) → keyOf raw = some key →
      ∃ t, s.Completes t (.retireSource raw) .ok
          (be1 ((List.range 1024).filter fun n => (slotAt s.slots n).record.any fun b => decide (b.key = key)).length)
        ∧ t = { s with circuits := t.circuits, slots := t.slots, index := t.index, port := t.port }
        ∧ (∀ n, slotAt t.slots n
          = if (slotAt s.slots n).record.any (fun b => decide (b.key = key)) then .free else slotAt s.slots n)
        ∧ (∀ k e, indexList t.index k e = if k = key then [] else indexList s.index k e)
        ∧ t.circuits.length = s.circuits.length
        ∧ ∀ c x, circuitAt s.circuits c = some x → circuitAt t.circuits c = some (match x.local' with
          | some ⟨_, some (n, _)⟩ =>
            if (slotAt s.slots n).record.any (fun b => decide (b.key = key)) then x.clearSlot n else x
          | _ => x)

/-- O: DISABLE and ENABLE (R47, R48): a Live slot becomes Disabled and its movement ends, its claims keeping their owner; a Disabled slot
becomes Live; a slot already so is left; the index and everything else stay; a Free slot is NOT_FOUND. -/
def Obligations.DisableAndEnableTurnASlot : Prop :=
  ∀ (n : Nat) (s : State), s.store.state = .ready → s.slots.length = 1024 → n ≤ 1023 →
    (s.Serves (.disable n) →
      (∀ b, slotAt s.slots n = .live b → ∃ t, s.Completes t (.disable n) .ok []
        ∧ t = { s with circuits := s.circuits.map (Circuit.endMovement (LocalOwner.hasSlot n)), slots := t.slots, port := t.port }
        ∧ slotAt t.slots n = .disabled b ∧ ∀ m, m ≠ n → slotAt t.slots m = slotAt s.slots m)
      ∧ (∀ b, slotAt s.slots n = .disabled b → ∃ t, s.Completes t (.disable n) .ok [] ∧ t = { s with port := t.port })
      ∧ (slotAt s.slots n = .free → s.Refuses (.disable n) .notFound))
    ∧ (s.Serves (.enable n) →
      (∀ b, slotAt s.slots n = .disabled b → ∃ t, s.Completes t (.enable n) .ok []
        ∧ t = { s with slots := t.slots, port := t.port }
        ∧ slotAt t.slots n = .live b ∧ ∀ m, m ≠ n → slotAt t.slots m = slotAt s.slots m)
      ∧ (∀ b, slotAt s.slots n = .live b → ∃ t, s.Completes t (.enable n) .ok [] ∧ t = { s with port := t.port })
      ∧ (slotAt s.slots n = .free → s.Refuses (.enable n) .notFound))

/-! ## Events -/

/-- O: ending movement and clearing a slot's claims (R28, R42, R66): a Moving claim that is picked becomes Steady at its held value, the slot's
claim loses its owner, and neither the raw nor the output level of any circuit changes. -/
def Obligations.EndingMovementIsNotSeen : Prop :=
  ∀ (pick : LocalOwner → Bool) (n : Nat) (x : Circuit), x.Settled →
    (∀ y, y = x.endMovement pick → x.SameBut y .local' ∧ y.handover = x.handover ∧ y.raw = x.raw ∧ y.output = x.output
      ∧ y.local' = x.local'.map fun cl => if pick cl.owner then ⟨cl.form.stop, cl.owner⟩ else cl)
    ∧ ∀ y, y = x.clearSlot n → x.SameBut y .local' ∧ y.handover = x.handover ∧ y.raw = x.raw ∧ y.output = x.output
      ∧ y.local' = x.local'.map fun cl => if LocalOwner.hasSlot n cl.owner then ⟨cl.form.stop, none⟩ else cl

/-- O: INJECT EVENT resolves its event as an arrival of it is resolved, and replies with the size of the matching set (R51, R54, R69), the Live
slots of its key and kind whose mask holds the house mode, in slot order; an event
changes nothing but circuits, the house mode, the lines' announces and MODE_CHANGED. -/
def Obligations.AnInjectedEventIsResolvedAsAnArrival : Prop :=
  ∀ (raw : RawKey) (kind : Nat) (k : SourceKey) (e : EventKind) (s : State), s.Serves (.injectEvent raw kind) → keyOf raw = some k →
    kindOf kind = some e →
    (kindSuits k e = true → ∃ t, exec (.injectEvent raw kind) s = .next t ∧ t = { s.resolve k e with port := t.port }
      ∧ (s.resolve k e).port.Holds t.port (.injectEvent raw kind) .ok (be1 (s.matching k e).length)
      ∧ t = { s with circuits := t.circuits, mode := t.mode, lineA := t.lineA, lineB := t.lineB, port := t.port }
      ∧ (∀ f : Flag, f ≠ .modeChanged → t.port.isSet f = s.port.isSet f)
      ∧ ∀ l, t.line l = { s.line l with announce := (t.line l).announce, exchange := (t.line l).exchange })
    ∧ (s.BindingsSound → ((s.matching k e).map (·.1)).Pairwise (· < ·)
      ∧ ∀ n b, (n, b) ∈ s.matching k e ↔ slotAt s.slots n = .live b ∧ b.key = k ∧ b.kind = e ∧ b.mask.has s.mode = true)
    ∧ (kindSuits k e = false → s.Refuses (.injectEvent raw kind) .mismatch)

/-- O: an event with one matching binding on a circuit or a group (R54 to R61, R64, R65, R67): what each action does to every circuit of its target, as it
stands after movement by the source has ended; a toggle sends all of them one way; every other circuit is left (R10, R24). A MODE binding makes the mode
change that SET MODE makes; and where several match, the last one that reaches a circuit leaves its claim and its owner there, or, a release,
no Local claim. -/
def Obligations.ABindingActsOnEveryCircuitOfItsTarget : Prop :=
  (∀ (k : SourceKey) (e : EventKind) (n : Nat) (b : Binding) (s : State), s.matching k e = [(n, b)] → s.TargetsSound →
    (∃ c, b.target = .circuit c) ∨ (∃ g, b.target = .group g) →
    ∀ (c : Nat) (x : Circuit), circuitAt (s.endBySource k e).circuits c = some x →
      (c ∉ s.targetCircuits b.target → circuitAt (s.resolve k e).circuits c = some x)
      ∧ (c ∈ s.targetCircuits b.target → ∃ y, circuitAt (s.resolve k e).circuits c = some y ∧ y.cfg = x.cfg ∧ y.base = x.base
        ∧ y.show' = x.show' ∧ y.safe = x.safe
        ∧ (b.action = .on → y.local' = some ⟨Form.ofFade (x.startLevel .local') (x.cfg.clamp (b.level.getD 1000))
            (b.fade.getD s.options.defaultFade), some (n, k)⟩)
        ∧ (b.action = .off → y.local' = some ⟨Form.ofFade (x.startLevel .local') (x.cfg.clamp 0)
            (b.fade.getD s.options.defaultFade), some (n, k)⟩)
        ∧ (b.action = .toggle → y.local' = some ⟨Form.ofFade (x.startLevel .local')
            (x.cfg.clamp (if (s.targetCircuits b.target).any (s.endBySource k e).circuitOn then 0 else b.level.getD 1000))
            (b.fade.getD s.options.defaultFade), some (n, k)⟩)
        ∧ (b.action = .raise → y = x.move (some (n, k)) .up (b.rate.getD s.options.defaultRate))
        ∧ (b.action = .lower → y = x.move (some (n, k)) .down (b.rate.getD s.options.defaultRate))
        ∧ (b.action = .release → y = x.release .local' (b.fade.getD s.options.defaultFade))
        ∧ (b.action = .recall ∨ b.action = .mode → y = x)))
    ∧ (∀ (k : SourceKey) (e : EventKind) (n : Nat) (b : Binding) (m : Mode) (s : State), s.matching k e = [(n, b)] →
      b.action = .mode → b.target = .mode m →
      s.resolve k e = (s.endBySource k e).changeMode m (b.fade.getD s.options.modeFade))
    ∧ (∀ (m : Mode) (fade : Nat) (s : State), s.Serves (.setMode (modeCode m) (some fade)) → fade ≤ 6000 →
      ∃ t, exec (.setMode (modeCode m) (some fade)) s = .next t ∧ t = { s.changeMode m fade with port := t.port }
        ∧ t.port.flags = (s.changeMode m fade).port.flags)
    ∧ ∀ (k : SourceKey) (e : EventKind) (before after : List (Nat × Binding)) (n c : Nat) (b : Binding) (s : State),
      s.matching k e = before ++ (n, b) :: after → s.TargetsSound → (circuitAt s.circuits c).isSome = true →
      c ∈ s.targetCircuits b.target →
      (∀ p ∈ after, c ∉ s.targetCircuits p.2.target ∧ p.2.action ≠ .recall ∧ p.2.action ≠ .mode) →
      ∃ y, circuitAt (s.resolve k e).circuits c = some y
        ∧ (b.action = .on ∨ b.action = .off ∨ b.action = .toggle ∨ b.action = .raise ∨ b.action = .lower →
          y.local'.map (·.owner) = some (some (n, k)))
        ∧ (b.action = .release → y.local' = none)

/-- O: an event with one matching Recall of a Defined scene (R62, R83): every entry's circuit takes a Local claim at its clamped level with the
recall's fade and owner, every other circuit is left, and the scene is then active. -/
def Obligations.ARecallMakesItsSceneActive : Prop :=
  ∀ (k : SourceKey) (e : EventKind) (n m : Nat) (b : Binding) (sc : Scene) (s : State), s.matching k e = [(n, b)] → s.TargetsSound →
    s.CircuitsSound → b.action = .recall → b.target = .scene m → sceneAt s.scenes m = some sc →
    (s.resolve k e).sceneActive m = true
      ∧ ∀ (c : Nat) (x : Circuit), circuitAt (s.endBySource k e).circuits c = some x →
        (∀ v, (c, v) ∉ sc.entries) ∧ circuitAt (s.resolve k e).circuits c = some x
        ∨ ∃ v y, (c, v) ∈ sc.entries ∧ circuitAt (s.resolve k e).circuits c = some y ∧ x.SameBut y .local'
          ∧ y.local' = some ⟨Form.ofFade (x.startLevel .local') (x.cfg.clamp v)
            (b.fade.getD (sc.fade.getD s.options.defaultFade)), some (n, k)⟩

/-! ## Groups, scenes and modes -/

/-- O: WRITE GROUP and DELETE GROUP (R71 to R74): the union of the pairs, ascending, stands as the group's list where the member pool has room,
and POOL_FULL refuses it where it has not; a deleted group is Undefined; the reply carries the free count; nothing else changes; and a
number outside its range is refused with RANGE. -/
def Obligations.GroupsAreWrittenAndDeleted : Prop :=
  (∀ (g : Nat) (s : State), s.store.state = .ready → s.groups.length = 64 → 1 ≤ g → g ≤ 64 →
    (∀ ranges, s.Serves (.writeGroup g ranges) → ranges.length ≤ 60 → rangesInRange ranges = true →
      ((s.members g).length + (1536 - membersUsed s.groups) < (unionOf ranges).length → s.Refuses (.writeGroup g ranges) .poolFull)
      ∧ ((unionOf ranges).length ≤ (s.members g).length + (1536 - membersUsed s.groups) →
        ∃ t l, s.Completes t (.writeGroup g ranges) .ok (be2 l.length ++ be2 (1536 - membersUsed t.groups))
          ∧ t = { s with groups := t.groups, port := t.port } ∧ groupAt t.groups g = some l ∧ l.Pairwise (· < ·)
          ∧ (∀ c, c ∈ l ↔ 1 ≤ c ∧ c ≤ 384 ∧ ∃ r ∈ ranges, min r.1 r.2 ≤ c ∧ c ≤ max r.1 r.2)
          ∧ ∀ h, h ≠ g → groupAt t.groups h = groupAt s.groups h))
    ∧ (s.Serves (.deleteGroup g) →
      (groupAt s.groups g = none → s.Refuses (.deleteGroup g) .notFound)
      ∧ ∀ l, groupAt s.groups g = some l → ∃ t, s.Completes t (.deleteGroup g) .ok (be2 (1536 - membersUsed t.groups))
        ∧ t = { s with groups := t.groups, port := t.port } ∧ groupAt t.groups g = none
        ∧ ∀ h, h ≠ g → groupAt t.groups h = groupAt s.groups h))
    ∧ ∀ (g : Nat) (s : State), s.store.state = .ready →
      (∀ ranges, s.Serves (.writeGroup g ranges) →
        g < 1 ∨ 64 < g ∨ 60 < ranges.length ∨ (∃ p ∈ ranges, p.1 < 1 ∨ 384 < p.1 ∨ p.2 < 1 ∨ 384 < p.2) →
        s.Refuses (.writeGroup g ranges) .range)
      ∧ (s.Serves (.deleteGroup g) → g < 1 ∨ 64 < g → s.Refuses (.deleteGroup g) .range)

/-- O: WRITE, EXTEND, CAPTURE and DELETE SCENE (R71, R77 to R81): which entries the scene then has, a later entry of the request giving a
circuit's level over an earlier one, and captured entries at output levels; the reply; every other scene and everything else is left;
a list that the entry pool has no room for is refused with POOL_FULL, an Undefined scene with NOT_FOUND where one must be there, and a number
outside its range with RANGE. -/
def Obligations.ScenesAreWrittenExtendedCapturedAndDeleted : Prop :=
  (∀ (n : Nat) (s : State), s.store.state = .ready → s.TargetsSound → s.circuits.length = 384 → 1 ≤ n → n ≤ 32 →
    (∀ fade entries, s.Serves (.writeScene n fade entries) → (∀ f, fade = some f → f ≤ 6000) → 1 ≤ entries.length →
      entries.length ≤ 60 → entriesInRange entries = true → (sceneList entries).length ≤ s.sceneLength n + s.entriesFree →
      ∃ t sc, s.Completes t (.writeScene n fade entries) .ok (be2 sc.entries.length ++ be2 t.entriesFree)
        ∧ t = { s with scenes := t.scenes, port := t.port } ∧ sceneAt t.scenes n = some sc ∧ sc.Legal ∧ sc.fade = fade
        ∧ (∀ c v, (c, v) ∈ sc.entries ↔ levelIn entries c = some v) ∧ ∀ m, m ≠ n → sceneAt t.scenes m = sceneAt s.scenes m)
    ∧ (∀ entries old, s.Serves (.extendScene n entries) → 1 ≤ entries.length → entries.length ≤ 60 → entriesInRange entries = true →
      sceneAt s.scenes n = some old → (mergeEntries old.entries entries).length ≤ s.sceneLength n + s.entriesFree →
      ∃ t sc, s.Completes t (.extendScene n entries) .ok (be2 sc.entries.length ++ be2 t.entriesFree)
        ∧ t = { s with scenes := t.scenes, port := t.port } ∧ sceneAt t.scenes n = some sc ∧ sc.Legal ∧ sc.fade = old.fade
        ∧ (∀ c v, (c, v) ∈ sc.entries ↔ levelIn entries c = some v ∨ levelIn entries c = none ∧ (c, v) ∈ old.entries)
        ∧ ∀ m, m ≠ n → sceneAt t.scenes m = sceneAt s.scenes m)
    ∧ (∀ fade ranges, s.Serves (.captureScene n fade ranges) → (∀ f, fade = some f → f ≤ 6000) → 1 ≤ ranges.length →
      ranges.length ≤ 60 → rangesInRange ranges = true → (unionOf ranges).length ≤ s.sceneLength n + s.entriesFree →
      (∀ x ∈ s.circuits, x.output ≤ 1000) →
      ∃ t sc, s.Completes t (.captureScene n fade ranges) .ok (be2 sc.entries.length ++ be2 t.entriesFree)
        ∧ t = { s with scenes := t.scenes, port := t.port } ∧ sceneAt t.scenes n = some sc ∧ sc.Legal ∧ sc.fade = fade
        ∧ (∀ c v, (c, v) ∈ sc.entries ↔ (∃ r ∈ ranges, min r.1 r.2 ≤ c ∧ c ≤ max r.1 r.2)
          ∧ ∃ x, circuitAt s.circuits c = some x ∧ v = x.output)
        ∧ ∀ m, m ≠ n → sceneAt t.scenes m = sceneAt s.scenes m)
    ∧ (s.Serves (.deleteScene n) →
      (sceneAt s.scenes n = none → s.Refuses (.deleteScene n) .notFound)
      ∧ ∀ sc, sceneAt s.scenes n = some sc → ∃ t, s.Completes t (.deleteScene n) .ok (be2 t.entriesFree)
        ∧ t = { s with scenes := t.scenes, port := t.port } ∧ sceneAt t.scenes n = none
        ∧ ∀ m, m ≠ n → sceneAt t.scenes m = sceneAt s.scenes m))
    ∧ (∀ (n : Nat) (s : State), s.store.state = .ready → s.TargetsSound → s.circuits.length = 384 → 1 ≤ n → n ≤ 32 →
      (∀ fade entries, s.Serves (.writeScene n fade entries) → (∀ f, fade = some f → f ≤ 6000) → 1 ≤ entries.length →
        entries.length ≤ 60 → entriesInRange entries = true → s.sceneLength n + s.entriesFree < (sceneList entries).length →
        s.Refuses (.writeScene n fade entries) .poolFull)
      ∧ (∀ entries, s.Serves (.extendScene n entries) → 1 ≤ entries.length → entries.length ≤ 60 → entriesInRange entries = true →
        (sceneAt s.scenes n = none → s.Refuses (.extendScene n entries) .notFound)
        ∧ ∀ old, sceneAt s.scenes n = some old → s.sceneLength n + s.entriesFree < (mergeEntries old.entries entries).length →
          s.Refuses (.extendScene n entries) .poolFull)
      ∧ (∀ fade ranges, s.Serves (.captureScene n fade ranges) → (∀ f, fade = some f → f ≤ 6000) → 1 ≤ ranges.length →
        ranges.length ≤ 60 → rangesInRange ranges = true → s.sceneLength n + s.entriesFree < (unionOf ranges).length →
        s.Refuses (.captureScene n fade ranges) .poolFull))
    ∧ ∀ (n : Nat) (s : State), s.store.state = .ready →
      (∀ fade entries, s.Serves (.writeScene n fade entries) →
        n < 1 ∨ 32 < n ∨ entries.length < 1 ∨ 60 < entries.length ∨ (∃ f, fade = some f ∧ 6000 < f)
          ∨ (∃ p ∈ entries, p.1 < 1 ∨ 384 < p.1 ∨ 1000 < p.2) → s.Refuses (.writeScene n fade entries) .range)
      ∧ (∀ entries, s.Serves (.extendScene n entries) →
        n < 1 ∨ 32 < n ∨ entries.length < 1 ∨ 60 < entries.length ∨ (∃ p ∈ entries, p.1 < 1 ∨ 384 < p.1 ∨ 1000 < p.2) →
        s.Refuses (.extendScene n entries) .range)
      ∧ (∀ fade ranges, s.Serves (.captureScene n fade ranges) →
        n < 1 ∨ 32 < n ∨ ranges.length < 1 ∨ 60 < ranges.length ∨ (∃ f, fade = some f ∧ 6000 < f)
          ∨ (∃ p ∈ ranges, p.1 < 1 ∨ 384 < p.1 ∨ p.2 < 1 ∨ 384 < p.2) → s.Refuses (.captureScene n fade ranges) .range)
      ∧ (s.Serves (.deleteScene n) → n < 1 ∨ 32 < n → s.Refuses (.deleteScene n) .range)

/-- O: SET MODE (R87, R89 to R93): the present mode changes nothing; another becomes the house mode, every circuit takes a Base claim at its base
level for it, Local claims are cleared or left without movement by it, the Running lines take its announce, and MODE_CHANGED is raised (log 12: an
announce asked for between two exchanges is begun by the next choice, one asked for in a round wait at once; log 38: that wait then goes on; log 17: the reply's yes or no). -/
def Obligations.SetModeChangesTheHouseMode : Prop :=
  ∀ (code : Nat) (m : Mode) (fade : Option Nat) (s : State), s.Serves (.setMode code fade) → modeOf code = some m →
    (∀ f, fade = some f → f ≤ 6000) →
    (m = s.mode → ∃ t, s.Completes t (.setMode code fade) .ok (be1 code ++ be1 1) ∧ t = { s with port := t.port })
    ∧ (m ≠ s.mode → ∃ t, exec (.setMode code fade) s = .next t
      ∧ t = { s with mode := m, circuits := t.circuits, lineA := t.lineA, lineB := t.lineB, port := t.port }
      ∧ (s.port.raise .modeChanged).Holds t.port (.setMode code fade) .ok (be1 code ++ be1 0)
      ∧ (∀ l, t.line l = { s.line l with announce := (t.line l).announce, exchange := (t.line l).exchange }
        ∧ ((s.line l).state ≠ .running → t.line l = s.line l)
        ∧ ((s.line l).state = .running → (t.line l).announce = some m
          ∧ (t.line l).exchange = if (s.line l).waiting ∧ (s.line l).exchange = none then
              some ⟨.announce m, announceMessage m, (s.line l).config.divisor, (s.line l).config.window, false, false⟩
            else (s.line l).exchange))
      ∧ t.circuits.length = s.circuits.length
      ∧ ∀ c x, circuitAt s.circuits c = some x → x.Settled → ∃ y, circuitAt t.circuits c = some y ∧ y.cfg = x.cfg ∧ y.Settled
        ∧ y.show' = x.show' ∧ y.safe = x.safe
        ∧ y.base = some ⟨Form.ofFade (x.startLevel .base) (x.cfg.clamp (x.cfg.base.at m)) (fade.getD s.options.modeFade), m⟩
        ∧ y.local' = (if x.cfg.localClear.has m then none
          else x.local'.map fun cl => if pickMode s.slots m cl.owner then ⟨cl.form.stop, cl.owner⟩ else cl)
        ∧ (x.deciding = some .local' → x.cfg.localClear.has m = true → y.handover =
          if fade.getD s.options.modeFade = 0 then none else some ⟨x.raw, 10 * fade.getD s.options.modeFade, 0⟩)
        ∧ (x.decides .base = false → x.cfg.localClear.has m = false → y.raw = x.raw ∧ y.handover = x.handover))

/-- O: SET MODE OPTIONS and SET LINK CONFIG (R86, R94, R144): the given values are written, the others and everything else stay, a frame in
flight and its next start among it; a value outside its range refuses the whole with RANGE. -/
def Obligations.OptionsAndPeriodAreWritten : Prop :=
  ∀ s : State, s.store.state = .ready →
    (∀ f, s.Serves (.setModeOptions f) →
      (optionFieldsInRange f = true → ∃ t, s.Completes t (.setModeOptions f) .ok []
        ∧ t = { s with options := t.options, port := t.port } ∧ t.options.modeFade = f.modeFade.getD s.options.modeFade
        ∧ t.options.defaultFade = f.defaultFade.getD s.options.defaultFade
        ∧ t.options.defaultRate = f.defaultRate.getD s.options.defaultRate
        ∧ t.options.safeReleaseFade = f.safeReleaseFade.getD s.options.safeReleaseFade
        ∧ (f.startMode = none → t.options.startMode = s.options.startMode)
        ∧ ∀ m, f.startMode = some (modeCode m) → t.options.startMode = m)
      ∧ (optionFieldsInRange f = false → s.Refuses (.setModeOptions f) .range))
    ∧ ∀ p, s.Serves (.setLinkConfig p) →
      (10 ≤ p ∧ p ≤ 100 → ∃ t, s.Completes t (.setLinkConfig p) .ok []
        ∧ t = { s with link := { s.link with period := p }, port := t.port })
      ∧ (p < 10 ∨ 100 < p → s.Refuses (.setLinkConfig p) .range)

/-! ## Station lines -/

/-- O: SET LINE CONFIG (R96 to R98): the given fields are written and the line state follows: Off to Running where the line can run now, to Off
where it cannot, at once or, with an exchange in flight, when that ends; a Running line that still can run goes on (log 30: a line that becomes Off drops its
repeat). -/
def Obligations.ALineFollowsItsConfiguration : Prop :=
  ∀ (n : Nat) (l : Line) (f : LineFields) (s : State), s.Serves (.setLineConfig n f) → s.store.state = .ready → lineOf n = some l →
    lineFieldsInRange f = true →
    ∃ t, s.Completes t (.setLineConfig n f) .ok [] ∧ t = { s.withLine l (t.line l) with port := t.port }
      ∧ (t.line l).config.enabled = (match f.enabled with | none => (s.line l).config.enabled | some v => decide (v = 0))
      ∧ (t.line l).config.divisor = f.divisor.getD (s.line l).config.divisor
      ∧ (t.line l).config.window = f.window.getD (s.line l).config.window
      ∧ ((s.line l).state = .off → (t.line l).config.canRun = true → t.line l = { s.line l with
          config := (t.line l).config, state := .running, round := 0, collisions := 0, lastPolled := none, waiting := false,
          announce := none, again := none, exchange := none })
      ∧ ((t.line l).config.canRun = false → (s.line l).state = .off → t.line l = { s.line l with config := (t.line l).config })
      ∧ ((t.line l).config.canRun = false → (s.line l).state = .fault ∨ (s.line l).state = .running ∧ (s.line l).exchange = none →
        t.line l = { s.line l with
          config := (t.line l).config, state := .off, waiting := false, announce := none, again := none, exchange := none,
          census := if (s.line l).census = .running then .abandoned else (s.line l).census })
      ∧ ((s.line l).state ≠ .off → (t.line l).config.canRun = true → t.line l = { s.line l with config := (t.line l).config })
      ∧ ((s.line l).state = .running → (s.line l).exchange ≠ none → t.line l = { s.line l with config := (t.line l).config })

/-- O: ENROL STATION, UNENROL STATION and CENSUS START (R100, R109, R110, R112): what each leaves of the poll list, of what is in flight and of
the census, that movement of the unenrolled station ends, and that nothing else changes. -/
def Obligations.StationsAreEnrolledUnenrolledAndCounted : Prop :=
  ∀ (n a : Nat) (l : Line) (s : State), lineOf n = some l → 1 ≤ a → a ≤ 62 →
    (∀ b code has, s.Serves (.enrolStation n a b code) → s.store.state = .ready → 1 ≤ b → b ≤ 10 → yesNoOf code = some has →
      (∀ r, stationAt (s.line l).stations a = some r → s.Refuses (.enrolStation n a b code) .enrolled)
      ∧ (stationAt (s.line l).stations a = none → 40 ≤ (s.line l).stations.length → s.Refuses (.enrolStation n a b code) .tableFull)
      ∧ (stationAt (s.line l).stations a = none → (s.line l).stations.length < 40 →
        ∃ t, s.Completes t (.enrolStation n a b code) .ok []
          ∧ t = { s.withLine l { s.line l with stations := (t.line l).stations } with port := t.port }
          ∧ stationAt (t.line l).stations a = some ⟨⟨a, b, has⟩, .absent, 0, none, 0⟩
          ∧ ∀ d, d ≠ a → stationAt (t.line l).stations d = stationAt (s.line l).stations d))
    ∧ (s.Serves (.unenrolStation n a) → s.store.state = .ready →
      (stationAt (s.line l).stations a = none → s.Refuses (.unenrolStation n a) .notFound)
      ∧ ∀ r, stationAt (s.line l).stations a = some r → ∃ t, s.Completes t (.unenrolStation n a) .ok []
        ∧ t = { s.withLine l (t.line l) with
            circuits := s.circuits.map (Circuit.endMovement (pickStation l a)), port := t.port }
        ∧ t.line l = { s.line l with
            stations := (t.line l).stations, exchange := (t.line l).exchange, again := (t.line l).again }
        ∧ stationAt (t.line l).stations a = none
        ∧ (∀ d, d ≠ a → stationAt (t.line l).stations d = stationAt (s.line l).stations d)
        ∧ (t.line l).exchange = (s.line l).exchange.map (fun x => if x.kind = .poll a then { x with discard := true } else x)
        ∧ (t.line l).again = if (s.line l).again = some (.station a) then none else (s.line l).again)
    ∧ (s.Serves (.censusStart n) →
      ((s.line l).state ≠ .running → s.Refuses (.censusStart n) .lineOff)
      ∧ ((s.line l).state = .running → (s.line l).census = .running → s.Refuses (.censusStart n) .censusBusy)
      ∧ ((s.line l).state = .running → (s.line l).census ≠ .running → ∃ t, s.Completes t (.censusStart n) .ok []
        ∧ t = { s.withLine l { s.line l with census := .running, censusList := [], censusAddr := 1 } with port := t.port }))

/-- O: NEXT EXCHANGE (R101, R102, R108, R113, R162): a Running line with no exchange in flight takes, in this order, its pending announce, nothing during
a round wait (log 38: also after an announce sent within it), its repeat, the next station due, or the end of the round, with a census poll where
a census runs; the driver is enabled exactly where an exchange then begins (log 40); and the characters of an announce and of a census poll. -/
def Obligations.ALineChoosesItsNextExchange : Prop :=
  (∀ (l : Line) (s : State), s.phase = .running → (s.line l).state = .running → (s.line l).exchange = none →
    ∃ t, exec (.nextExchange l) s = .next t ∧ t = { s.withLine l (t.line l) with port := t.port }
      ∧ t.driverEnabled l = (t.line l).exchange.isSome ∧ (∀ x, (t.line l).exchange = some x → t.tx l = x.chars.flatMap TxChar.bits)
      ∧ (∀ m, (s.line l).announce = some m → t = s.withLine l { s.line l with
          exchange := some ⟨.announce m, announceMessage m, (s.line l).config.divisor, (s.line l).config.window, false, false⟩ })
      ∧ ((s.line l).announce = none → (s.line l).waiting = true → t = s)
      ∧ ((s.line l).announce = none → (s.line l).waiting = false →
        (∀ a r, (s.line l).again = some (.station a) → stationAt (s.line l).stations a = some r → t = s.poll l r)
        ∧ (∀ a, (s.line l).again = some (.census a) → stationAt (s.line l).stations a = none → t = s.withLine l { s.line l with
            again := none
            exchange := some ⟨.census a, censusMessage a, (s.line l).config.divisor, (s.line l).config.window, false, false⟩ })
        ∧ ((s.line l).again = none →
          (∀ before r after, (s.line l).stations = before ++ r :: after →
            (∀ q ∈ before, ¬((∀ p, (s.line l).lastPolled = some p → p < q.ident.address)
              ∧ (q.state ≠ .silent ∨ (s.line l).round = 0))) →
            (∀ p, (s.line l).lastPolled = some p → p < r.ident.address) → r.state ≠ .silent ∨ (s.line l).round = 0 → t = s.poll l r)
          ∧ ((∀ q ∈ (s.line l).stations, ¬((∀ p, (s.line l).lastPolled = some p → p < q.ident.address)
              ∧ (q.state ≠ .silent ∨ (s.line l).round = 0))) →
            ((s.line l).census ≠ .running → t = s.withLine l { s.line l with
              round := ((s.line l).round + 1) % 16, lastPolled := none, waiting := (s.line l).lastPolled.isNone })
            ∧ (∀ a, (s.line l).census = .running → 1 ≤ a → a ≤ 62 → (s.line l).censusAddr ≤ a → stationAt (s.line l).stations a = none →
              (∀ d, 1 ≤ d → (s.line l).censusAddr ≤ d → d < a → (stationAt (s.line l).stations d).isSome = true) →
              t = s.withLine l { s.line l with
                round := ((s.line l).round + 1) % 16, lastPolled := none
                exchange := some ⟨.census a, censusMessage a, (s.line l).config.divisor, (s.line l).config.window, false, false⟩ })
            ∧ ((s.line l).census = .running →
              (∀ d, 1 ≤ d → d ≤ 62 → (s.line l).censusAddr ≤ d → (stationAt (s.line l).stations d).isSome = true) →
              t = (s.withLine l { s.line l with
                round := ((s.line l).round + 1) % 16, lastPolled := none, census := .done }).raise .censusDone)))))
    ∧ (∀ m : Mode, announceMessage m = [⟨true, 0x80⟩, ⟨false, 0⟩, ⟨false, BitVec.ofNat 8 (modeCode m)⟩,
      ⟨false, crc8 [0x80, 0, BitVec.ofNat 8 (modeCode m)]⟩])
    ∧ ∀ a : Nat, censusMessage a = [⟨true, BitVec.ofNat 8 (64 + a)⟩, ⟨false, 0⟩, ⟨false, crc8 [BitVec.ofNat 8 (64 + a), 0]⟩]

/-- O: a poll to a station (R102, R103, R162): its first character is the address with mark bit 1; the second has the last accepted bit (0 where
absent) in bit 0 and the number of indicator characters in bits 2..1; then the state of each button of a station with indicators, two bits each,
00 above its buttons; last the CRC-8; a character is a start bit, its data bits from bit 0, its mark bit and a stop bit (log 33: their levels);
the line takes the divisor and the window as they stand; nothing else changes. -/
def Obligations.APollCarriesTheAcknowledgementAndTheIndicators : Prop :=
  (∀ (l : Line) (r : Station) (s : State), r.ident.buttons ≤ 10 → ∃ chars,
    s.poll l r = s.withLine l { s.line l with
      again := none, lastPolled := some r.ident.address
      exchange := some ⟨.poll r.ident.address, chars, (s.line l).config.divisor, (s.line l).config.window, false, false⟩ }
    ∧ (∃ k second pairs, k = (if r.ident.indicators then (r.ident.buttons + 3) / 4 else 0) ∧ pairs.length = k
      ∧ chars = ⟨true, BitVec.ofNat 8 r.ident.address⟩ :: ⟨false, second⟩ :: (pairs.map (TxChar.mk false)
        ++ [⟨false, crc8 (BitVec.ofNat 8 r.ident.address :: second :: pairs)⟩])
      ∧ second.getLsbD 0 = r.lastBit.getD false ∧ second.toNat / 2 = k
      ∧ (∀ b ind, 1 ≤ b → (s.indicators l r)[b - 1]? = some ind → ∃ c, pairs[(b - 1) / 4]? = some c
        ∧ c.toNat / 4 ^ ((b - 1) % 4) % 4 = match ind with | .off => 0 | .on => 1 | .blink => 2)
      ∧ ∀ b c, r.ident.buttons < b → pairs[(b - 1) / 4]? = some c → c.toNat / 4 ^ ((b - 1) % 4) % 4 = 0)
    ∧ (s.indicators l r).length = (if r.ident.indicators then r.ident.buttons else 0)
    ∧ ∀ b, r.ident.indicators = true → 1 ≤ b → b ≤ r.ident.buttons →
      ((∀ n c, slotAt s.slots n = .live c → c.feedback = true → c.key ≠ .station l r.ident.address b) →
        (s.indicators l r)[b - 1]? = some .off)
      ∧ ∀ n c, slotAt s.slots n = .live c → c.feedback = true → c.key = .station l r.ident.address b →
        (∀ m d, m < n → slotAt s.slots m = .live d → d.feedback = true → d.key ≠ .station l r.ident.address b) →
        (s.indicators l r)[b - 1]? = some (match c.target with
          | .circuit k => if s.circuitOverridden k then .blink else if s.circuitOn k then .on else .off
          | .group g => if (s.members g).any s.circuitOverridden then .blink else if (s.members g).any s.circuitOn then .on else .off
          | .scene k => if s.sceneActive k then .on else .off
          | .mode m => if s.mode = m then .on else .off))
    ∧ ∀ c : TxChar, c.bits.length = 11 ∧ c.bits[0]? = some false ∧ (∀ i, i < 8 → c.bits[i + 1]? = some (c.data.getLsbD i))
      ∧ c.bits[9]? = some c.mark ∧ c.bits[10]? = some true

/-- O: EXCHANGE SENT and COLLISION (R97, R99, R104, R105, R108): the collision count, what is to be sent again, the announce sent, the reply window
opened, and the Fault of the eighth collision in a row with its LINE_FAULT (log 11: an announce replaced while it is sent stays pending; log 38: a
round wait that an announce was sent within goes on; log 13: a
discarded exchange leaves no repeat and its collision counts; log 30: a line that becomes Off drops its repeat; log 40: the driver is enabled until
then, with the exchange's characters on the line, and disabled after). -/
def Obligations.ExchangesAreSentOrCollide : Prop :=
  ∀ (l : Line) (x : Exchange) (s : State), s.phase = .running → (s.line l).state = .running → (s.line l).exchange = some x →
    x.sent = false →
    s.driverEnabled l = true ∧ s.tx l = x.chars.flatMap TxChar.bits
    ∧ (∃ t, exec (.exchangeSent l) s = .next t ∧ t = s.withLine l (t.line l) ∧ (t.line l).collisions = 0 ∧ t.driverEnabled l = false
      ∧ ((∀ m, x.kind ≠ .announce m) → t.line l = { s.line l with collisions := 0, exchange := some { x with sent := true } })
      ∧ ∀ m, x.kind = .announce m → (t.line l).exchange = none
        ∧ ((s.line l).config.canRun = true → t.line l = { s.line l with
            collisions := 0, exchange := none, announce := if (s.line l).announce = some m then none else (s.line l).announce })
        ∧ ((s.line l).config.canRun = false → (t.line l).state = .off ∧ (t.line l).announce = none))
    ∧ ∃ t, exec (.collision l) s = .next t ∧ t = { s.withLine l (t.line l) with port := t.port } ∧ (t.line l).exchange = none ∧ t.driverEnabled l = false
      ∧ ((s.line l).collisions ≤ 6 → t.port = s.port ∧ (t.line l).collisions = (s.line l).collisions + 1
        ∧ ((s.line l).config.canRun = true → t.line l = { s.line l with
            collisions := (s.line l).collisions + 1, exchange := none, again := (t.line l).again }
          ∧ (∀ a, x.kind = .poll a → (t.line l).again = if x.discard then (s.line l).again else some (.station a))
          ∧ (∀ a, x.kind = .census a → (t.line l).again = some (.census a))
          ∧ ∀ m, x.kind = .announce m → (t.line l).again = (s.line l).again)
        ∧ ((s.line l).config.canRun = false → (t.line l).state = .off ∧ (t.line l).again = none))
      ∧ (7 ≤ (s.line l).collisions → t.port = s.port.raise .lineFault
        ∧ t.line l = { s.line l with
            state := if (s.line l).config.canRun then .fault else .off
            collisions := (s.line l).collisions + 1, waiting := false, announce := none, again := none, exchange := none
            census := if (s.line l).census = .running then .abandoned else (s.line l).census })

/-- O: REPLY and REPLY WINDOW END (R97, R105 to R107, R110, R113): a valid reply makes its station Online and delivers its events,
in order, where its bit is new; a wrong or absent one is a miss, and Silent at the third; a discarded one brings nothing; a census poll's
reply goes to the census list; and the exchange is then over, which takes a Running line that can no longer run to Off (log 30: its repeat). -/
def Obligations.RepliesAndMissesAreJudged : Prop :=
  ∀ (l : Line) (x : Exchange) (chars : Option (List RxChar)) (c : Instr) (s : State),
    (c = .replyWindowEnd l ∧ chars = none) ∨ (∃ w, c = .reply l w ∧ chars = some w) →
    s.phase = .running → (s.line l).state = .running → (s.line l).exchange = some x → x.sent = true →
    ∃ t, exec c s = .next t
      ∧ (∀ a r rep, x.kind = .poll a → x.discard = false → stationAt (s.line l).stations a = some r →
        chars.bind (judgeReply a) = some rep →
        ∃ u : State, u = { s.withLine l { s.line l with stations := (u.line l).stations } with port := { s.port with flags := u.port.flags } }
          ∧ stationAt (u.line l).stations a = some { r with
              state := .online, misses := 0, lastBit := some rep.bit
              eventsLost := if (r.state = .silent ∨ r.lastBit ≠ some rep.bit) ∧ rep.lost = true then min (r.eventsLost + 1) 255
                else r.eventsLost }
          ∧ (∀ d, d ≠ a → stationAt (u.line l).stations d = stationAt (s.line l).stations d)
          ∧ (r.state ≠ .silent → r.lastBit = some rep.bit → u.port = s.port ∧ t = u.withLine l (u.line l).over)
          ∧ (r.state = .silent ∨ r.lastBit ≠ some rep.bit →
            (∀ f : Flag, u.port.isSet f = true ↔ s.port.isSet f = true ∨ f = .stationBack ∧ r.state = .silent
              ∨ f = .eventsLost ∧ rep.lost = true)
            ∧ t = (u.deliver l a rep.events).withLine l ((u.deliver l a rep.events).line l).over))
      ∧ (∀ a r, x.kind = .poll a → x.discard = false → stationAt (s.line l).stations a = some r → chars.bind (judgeReply a) = none →
        t.line l = { (s.line l).over with stations := (t.line l).stations }
        ∧ (∀ d, d ≠ a → stationAt (t.line l).stations d = stationAt (s.line l).stations d)
        ∧ (r.state ≠ .silent → r.misses + 1 < 3 → t = s.withLine l (t.line l)
          ∧ stationAt (t.line l).stations a = some { r with misses := r.misses + 1 })
        ∧ (r.state ≠ .silent → 3 ≤ r.misses + 1 → t = { s.withLine l (t.line l) with
            circuits := s.circuits.map (Circuit.endMovement (pickStation l a)), port := s.port.raise .stationSilent }
          ∧ stationAt (t.line l).stations a = some { r with misses := 3, state := .silent, lastBit := none })
        ∧ (r.state = .silent → t = s.withLine l (t.line l) ∧ stationAt (t.line l).stations a = some { r with misses := 3 }))
      ∧ (∀ a, x.kind = .poll a → x.discard = true ∨ stationAt (s.line l).stations a = none → t = s.withLine l (s.line l).over)
      ∧ ∀ a, x.kind = .census a → t = { s.withLine l ({ s.line l with
            censusList := (s.line l).censusList ++ (chars.bind (judgeCensus a)).toList, censusAddr := a + 1
            census := if a = 62 then .done else (s.line l).census } : LineCtl).over with
          port := if a = 62 then s.port.raise .censusDone else s.port }

/-- O: LINE BREAK, FAULT RECOVERY and ROUND WAIT END (R97, R99, R101): a Running line goes to Fault, or, where it can no longer run, to Off,
with LINE_FAULT and its census Abandoned; a
line in Fault that ends is Running with every miss count 0; a round wait ends. -/
def Obligations.BreaksFaultsAndWaitsBeginAndEnd : Prop :=
  ∀ (l : Line) (s : State), s.phase = .running →
    ((s.line l).state = .running → ∃ t, exec (.lineBreak l) s = .next t
      ∧ t = { s.withLine l { s.line l with
            state := if (s.line l).config.canRun then .fault else .off, waiting := false, announce := none, again := none, exchange := none
            census := if (s.line l).census = .running then .abandoned else (s.line l).census } with port := s.port.raise .lineFault })
    ∧ ((s.line l).state = .fault → ∃ t, exec (.faultRecovery l) s = .next t
      ∧ t = s.withLine l { s.line l with
          state := .running, round := 0, collisions := 0, lastPolled := none, waiting := false, announce := none, again := none
          exchange := none, stations := (s.line l).stations.map fun r => { r with misses := 0 } })
    ∧ ((s.line l).waiting = true → ∃ t, exec (.roundWaitEnd l) s = .next t ∧ t = s.withLine l { s.line l with waiting := false })

/-! ## Contact, safety and cue inputs -/

/-- O: SET INPUT CONFIG (R120): a contact input's given fields are written, its accepted level stays, its disagree count is 0 and it adopts the state
its level and kind call for, without an event; a cue line takes its edge; the wrong field for its kind is a MISMATCH, and a safety input, a number of no input or a value outside
its range is RANGE (log 26: the closed count 0 of an input that is not adopted Closed as a Momentary one). -/
def Obligations.InputsAreConfiguredWithoutEvents : Prop :=
  (∀ (n : Nat) (f : InputFields) (s : State), s.Serves (.setInputConfig n f) → s.store.state = .ready →
    (∀ x, n ≤ 24 → s.contact n = some x →
      (f.edge ≠ none → s.Refuses (.setInputConfig n f) .mismatch)
      ∧ (f.edge = none → inputFieldsInRange f = true → ∃ t y, s.Completes t (.setInputConfig n f) .ok []
        ∧ t = { s with inputs := t.inputs, port := t.port } ∧ t.contact n = some y ∧ (∀ m, m ≠ n → t.contact m = s.contact m)
        ∧ y.config = x.config.withFields f ∧ y.pin.level = x.pin.level ∧ y.pin.disagree = 0 ∧ y.closedCount = 0
        ∧ y.state = match y.config.kind with
          | .unused => .unused
          | _ => if y.config.isClosed x.pin.level then .closed else .open'))
    ∧ ∀ c, cueOf n = some c →
      (anyContactField f = true → s.Refuses (.setInputConfig n f) .mismatch)
      ∧ ∀ e, anyContactField f = false → f.edge = some (edgeCode e) → ∃ t, s.Completes t (.setInputConfig n f) .ok []
        ∧ t = { s.withCue c { s.cue c with edge := e } with port := t.port })
    ∧ ∀ (n : Nat) (f : InputFields) (s : State), s.Serves (.setInputConfig n f) → s.store.state = .ready → s.inputs.length = 24 →
      (n < 1 ∨ n = 25 ∨ n = 26 ∨ 28 < n → s.Refuses (.setInputConfig n f) .range)
      ∧ (1 ≤ n → n ≤ 24 → f.edge = none → inputFieldsInRange f = false → s.Refuses (.setInputConfig n f) .range)
      ∧ (n = 27 ∨ n = 28 → anyContactField f = false → inputFieldsInRange f = false → s.Refuses (.setInputConfig n f) .range)

/-- O: the accepted changes and times of a contact input (R117 to R119): the input's new record, and then the Press, Release, Hold, Close or Open
it brings; a Stuck input's movement ends with INPUT_STUCK, and it opens without a Release (log 7). -/
def Obligations.ContactArrivalsBringTheirEvents : Prop :=
  ∀ (n : Nat) (x : ContactInput) (s : State), s.phase = .running → s.contact n = some x →
    (x.config.kind = .momentary →
      (x.state = .open' → ∃ t, exec (.acceptedClose n) s = .next t ∧ t = (s.withContact n { x with
          pin := { x.pin with level := x.config.closedHigh, disagree := 0 }, state := .closed, closedCount := 0 }).resolve
        (.contact n) .press)
      ∧ (x.state = .closed → ∃ t, exec (.holdTimeReached n) s = .next t
        ∧ t = (s.withContact n { x with state := .held, closedCount := x.config.holdTime }).resolve (.contact n) .hold)
      ∧ (x.state = .closed ∨ x.state = .held → x.config.stuckTime ≠ 0 → ∃ t, exec (.stuckTimeReached n) s = .next t
        ∧ t = { s.withContact n { x with state := .stuck, closedCount := x.config.stuckTime * 1000 } with
            circuits := s.circuits.map (Circuit.endMovement (pickKey (.contact n))), port := s.port.raise .inputStuck })
      ∧ (x.state = .closed ∨ x.state = .held → ∃ t, exec (.acceptedOpen n) s = .next t ∧ t = (s.withContact n { x with
          pin := { x.pin with level := !x.config.closedHigh, disagree := 0 }, state := .open' }).resolve (.contact n) .release)
      ∧ (x.state = .stuck → ∃ t, exec (.acceptedOpen n) s = .next t ∧ t = s.withContact n { x with
          pin := { x.pin with level := !x.config.closedHigh, disagree := 0 }, state := .open' }))
    ∧ (x.config.kind = .maintained →
      (x.config.isClosed x.pin.level = false → ∃ t, exec (.maintainedChange n true) s = .next t ∧ t = (s.withContact n { x with
          pin := { x.pin with level := x.config.closedHigh, disagree := 0 }, state := .closed }).resolve (.contact n) .close)
      ∧ (x.config.isClosed x.pin.level = true → ∃ t, exec (.maintainedChange n false) s = .next t ∧ t = (s.withContact n { x with
          pin := { x.pin with level := !x.config.closedHigh, disagree := 0 }, state := .open' }).resolve (.contact n) .open'))

/-- O: a sample (R116 to R119, R122, R123, R127): in a running part every input takes its own level once, in the order given and then in ascending
number (log 6); its record counts, turns, is held or is stuck as R116 to R119 say; and what that brings to the rest of the part is what the row of
that arrival brings, a Press, a Hold, a Release, a stuck input, a Close, an Open, an assert, a deassert or a cue event. While the inputs settle
each contact, safety and cue pin extends or restarts its run, and nothing else happens, until all are settled or have taken 250 samples (log 25:
a sample after that changes nothing). -/
def Obligations.EveryPinTakesItsSample : Prop :=
  (∀ (pins : BitVec 28) (order : List Nat) (s : State), s.inputs.length = 24 →
    (s.phase = .running → ∃ t, exec (.contactSample pins order) s = .next t
      ∧ t = (sampleOrder order).foldl (State.sampleInput pins) s ∧ (sampleOrder order).Perm (List.range' 1 28)
      ∧ (order.Nodup → (∀ n ∈ order, 1 ≤ n ∧ n ≤ 28) → order <+: sampleOrder order)
      ∧ (∀ n x, s.contact n = some x → ∃ y, t.contact n = some y ∧ x.SamplesTo (pins.getLsbD (n - 1)) y)
      ∧ s.safe1.SamplesTo 20 (pins.getLsbD 24) t.safe1 ∧ s.safe2.SamplesTo 20 (pins.getLsbD 25) t.safe2
      ∧ t.cue1.edge = s.cue1.edge ∧ s.cue1.pin.SamplesTo 5 (pins.getLsbD 26) t.cue1.pin
      ∧ t.cue2.edge = s.cue2.edge ∧ s.cue2.pin.SamplesTo 5 (pins.getLsbD 27) t.cue2.pin)
    ∧ (s.phase = .settling → s.allSettled = false → s.settleSamples < 250 → ∃ t, exec (.contactSample pins order) s = .next t
      ∧ t = { s with inputs := t.inputs, safe1 := t.safe1, safe2 := t.safe2, cue1 := t.cue1, cue2 := t.cue2, settleSamples := t.settleSamples }
      ∧ t.settleSamples = s.settleSamples + 1
      ∧ (∀ n x, s.contact n = some x → ∃ y, t.contact n = some y ∧ y.config = x.config ∧ y.state = x.state
        ∧ y.closedCount = x.closedCount ∧ x.pin.SettlesTo x.config.debounce (pins.getLsbD (n - 1)) y.pin)
      ∧ s.safe1.SettlesTo 20 (pins.getLsbD 24) t.safe1 ∧ s.safe2.SettlesTo 20 (pins.getLsbD 25) t.safe2
      ∧ t.cue1.edge = s.cue1.edge ∧ s.cue1.pin.SettlesTo 5 (pins.getLsbD 26) t.cue1.pin
      ∧ t.cue2.edge = s.cue2.edge ∧ s.cue2.pin.SettlesTo 5 (pins.getLsbD 27) t.cue2.pin)
    ∧ (s.phase = .settling → s.allSettled = true ∨ 250 ≤ s.settleSamples → exec (.contactSample pins order) s = .next s))
    ∧ (∀ (pins : BitVec 28) (n : Nat) (level : Bool) (x : ContactInput) (s : State), s.phase = .running → s.contact n = some x → n ≤ 24 →
      level = pins.getLsbD (n - 1) →
      (x.config.kind = .momentary → x.pin.Turns x.config.debounce level → x.config.isClosed level = true → x.state = .open' →
        exec (.acceptedClose n) s = .next (s.sampleInput pins n))
      ∧ (x.config.kind = .momentary → x.pin.Turns x.config.debounce level → x.config.isClosed level = false →
        x.state = .closed ∨ x.state = .held ∨ x.state = .stuck → exec (.acceptedOpen n) s = .next (s.sampleInput pins n))
      ∧ (∀ q, x.config.kind = .momentary → ¬x.pin.Turns x.config.debounce level → x.pin.SamplesTo x.config.debounce level q →
        (x.state = .closed → x.closedCount + 1 = x.config.holdTime → x.config.holdTime ≤ 3000 →
          exec (.holdTimeReached n) (s.withContact n { x with pin := q }) = .next (s.sampleInput pins n))
        ∧ (x.state = .held → x.closedCount + 1 = x.config.stuckTime * 1000 → x.config.stuckTime ≤ 600 →
          exec (.stuckTimeReached n) (s.withContact n { x with pin := q }) = .next (s.sampleInput pins n)))
      ∧ (x.config.kind = .maintained → x.pin.Turns x.config.debounce level →
        exec (.maintainedChange n (x.config.isClosed level)) s = .next (s.sampleInput pins n))
      ∧ ((x.config.kind = .unused ∨ ¬x.pin.Turns x.config.debounce level)
          → (x.config.kind = .momentary → x.state = .closed → x.closedCount + 1 < x.config.holdTime ∧ x.config.holdTime ≤ 3000)
          → (x.config.kind = .momentary → x.state = .closed ∨ x.state = .held →
            x.config.stuckTime = 0 ∨ min (x.closedCount + 1) 600000 < x.config.stuckTime * 1000) →
        ∃ y, x.SamplesTo level y ∧ s.sampleInput pins n = s.withContact n y))
    ∧ (∀ (pins : BitVec 28) (i : SafeInput) (n : Nat) (level : Bool) (s : State), s.phase = .running →
      (i = .safe1 ∧ n = 25 ∨ i = .safe2 ∧ n = 26) → level = pins.getLsbD (n - 1) →
      ((s.safePin i).Turns 20 level → level = true → exec (.safeAssert i) s = .next (s.sampleInput pins n))
      ∧ ((s.safePin i).Turns 20 level → level = false → exec (.safeDeassert i) s = .next (s.sampleInput pins n))
      ∧ (¬(s.safePin i).Turns 20 level → ∃ q, (s.safePin i).SamplesTo 20 level q ∧ s.sampleInput pins n = s.withSafePin i q))
    ∧ ∀ (pins : BitVec 28) (c : CueLine) (n : Nat) (level : Bool) (s : State), s.phase = .running →
      (c = .cue1 ∧ n = 27 ∨ c = .cue2 ∧ n = 28) → level = pins.getLsbD (n - 1) →
      ((s.cue c).pin.Turns 5 level → (level = true ↔ (s.cue c).edge = .rising) → exec (.cueEvent c) s = .next (s.sampleInput pins n))
      ∧ (¬((s.cue c).pin.Turns 5 level ∧ (level = true ↔ (s.cue c).edge = .rising)) →
        ∃ q, (s.cue c).pin.SamplesTo 5 level q ∧ s.sampleInput pins n = s.withCue c { s.cue c with pin := q })

/-- O: SAFE ASSERT and SAFE DEASSERT (R116, R123 to R125; log 7: each row is the accepted change itself, whatever the disagree count): the input's accepted level turns and SAFE_CHANGE is raised; an asserting input takes every
circuit that has a level for it, at once and at the largest level asked for; a deasserting one lets go, by the safe release fade. -/
def Obligations.SafetyInputsTakeAndLetGoCircuits : Prop :=
  ∀ (i : SafeInput) (s : State), s.phase = .running → s.SafeSound →
    (s.asserted.has i = false → ∃ t, exec (.safeAssert i) s = .next t
      ∧ t = { s.withSafePin i { s.safePin i with level := true, disagree := 0 } with
          circuits := t.circuits, port := s.port.raise .safeChange }
      ∧ t.circuits.length = s.circuits.length
      ∧ ∀ n x, circuitAt s.circuits n = some x → ∃ y, circuitAt t.circuits n = some y
        ∧ (x.cfg.safeLevel i = none → y = x)
        ∧ (x.cfg.safeLevel i ≠ none → x.SameBut y .safe ∧ y.handover = none ∧ y.raw = x.cfg.wantedLevel t.asserted ∧ y.Settled
          ∧ y.safe = some ⟨.steady (x.cfg.wantedLevel t.asserted), x.cfg.wantedSet t.asserted⟩))
    ∧ (s.asserted.has i = true → ∃ t, exec (.safeDeassert i) s = .next t
      ∧ t = { s.withSafePin i { s.safePin i with level := false, disagree := 0 } with
          circuits := t.circuits, port := s.port.raise .safeChange }
      ∧ t.circuits.length = s.circuits.length
      ∧ ∀ n x, circuitAt s.circuits n = some x → ∃ y, circuitAt t.circuits n = some y
        ∧ (x.cfg.safeLevel i = none → y = x)
        ∧ (x.cfg.safeLevel i ≠ none → (x.cfg.wantedSet t.asserted).isEmpty = true → y = x.release .safe s.options.safeReleaseFade)
        ∧ (x.cfg.safeLevel i ≠ none → (x.cfg.wantedSet t.asserted).isEmpty = false → x.SameBut y .safe ∧ y.handover = none ∧ y.Settled
          ∧ y.safe = some ⟨Form.ofFade x.raw (x.cfg.wantedLevel t.asserted) s.options.safeReleaseFade, x.cfg.wantedSet t.asserted⟩))

/-! ## Stages -/

/-- O: the requests of the stages (R128 to R132): a stage that is not there is RANGE; outside Standby an entry goes to its ascending place or replaces its circuit's entry and leaves the
stage Loading, STAGE CLEAR empties it and SET STAGE TRIGGER sets its trigger, and in Standby each is STAGE_ARMED; STANDBY and UNSTANDBY turn
it. -/
def Obligations.StagesAreLoadedAndStoodBy : Prop :=
  (∀ (n : Nat) (s : State), n < 1 ∨ 2 < n →
    (∀ c e, s.Serves (.stageEntry n c e) → s.Refuses (.stageEntry n c e) .range)
      ∧ (s.Serves (.stageClear n) → s.Refuses (.stageClear n) .range)
      ∧ (∀ code, s.Serves (.setStageTrigger n code) → s.Refuses (.setStageTrigger n code) .range)
      ∧ (s.Serves (.standby n) → s.Refuses (.standby n) .range) ∧ (s.Serves (.unstandby n) → s.Refuses (.unstandby n) .range))
  ∧ ∀ (n : Nat) (i : StageId) (s : State), stageIdOf n = some i → s.StagesSound →
    (∀ c e, s.Serves (.stageEntry n c e) → 1 ≤ c → c ≤ 384 → entryInRange e = true →
      ((s.stage i).state = .standby → s.Refuses (.stageEntry n c e) .stageArmed)
      ∧ ((s.stage i).state ≠ .standby → ∃ t, s.Completes t (.stageEntry n c e) .ok (be2 (t.stage i).entries.length)
        ∧ t = { s.withStage i { s.stage i with state := .loading, entries := (t.stage i).entries } with port := t.port }
        ∧ ((t.stage i).entries.map (·.1)).Pairwise (· < ·)
        ∧ ∀ d f, (d, f) ∈ (t.stage i).entries ↔ d = c ∧ f = e ∨ d ≠ c ∧ (d, f) ∈ (s.stage i).entries))
    ∧ (s.Serves (.stageClear n) →
      ((s.stage i).state = .standby → s.Refuses (.stageClear n) .stageArmed)
      ∧ ((s.stage i).state ≠ .standby → ∃ t, s.Completes t (.stageClear n) .ok []
        ∧ t = { s.withStage i { s.stage i with state := .empty, entries := [] } with port := t.port }))
    ∧ (∀ code g, s.Serves (.setStageTrigger n code) → triggerOf code = some g →
      ((s.stage i).state = .standby → s.Refuses (.setStageTrigger n code) .stageArmed)
      ∧ ((s.stage i).state ≠ .standby → ∃ t, s.Completes t (.setStageTrigger n code) .ok []
        ∧ t = { s.withStage i { s.stage i with trigger := g } with port := t.port }))
    ∧ (s.Serves (.standby n) →
      ((s.stage i).state = .empty → s.Refuses (.standby n) .stageEmpty)
      ∧ ((s.stage i).state ≠ .empty → ∃ t, s.Completes t (.standby n) .ok []
        ∧ t = { s.withStage i { s.stage i with state := .standby } with port := t.port }))
    ∧ (s.Serves (.unstandby n) → ∃ t, s.Completes t (.unstandby n) .ok []
      ∧ t = { s.withStage i { s.stage i with state := if (s.stage i).state = .standby then .loading else (s.stage i).state } with
          port := t.port })

/-- O: GO and a cue event (R127, R133 to R137; log 7; log 34: each stage of GO's reply is followed by its count): a transfer lets each entry of its stage act on its circuit's Show layer, then those of a
linked stage, and empties them; GO transfers a stage in Standby, a cue event every stage in Standby that awaits it; a cue that none awaits is
counted with CUE_IGNORED. -/
def Obligations.GoAndCuesTransferTheirStages : Prop :=
  (∀ (i : StageId) (follows : Bool) (s t : State), s.StagesSound → t = s.transfer i →
    follows = decide ((s.stage i.other).state = .standby ∧ (s.stage i.other).trigger = .linked) →
    t = { (s.withStage i { s.stage i with state := .empty, entries := [] }).withStage i.other
          (if follows then { s.stage i.other with state := .empty, entries := [] } else s.stage i.other) with circuits := t.circuits }
      ∧ t.circuits.length = s.circuits.length
      ∧ ∀ c x, circuitAt s.circuits c = some x → ∃ y z, circuitAt t.circuits c = some z
        ∧ ((∀ e, (c, e) ∉ (s.stage i).entries) → y = x) ∧ (∀ e, (c, e) ∈ (s.stage i).entries → y = actEntry i.maker e x)
        ∧ (follows = false ∨ (∀ e, (c, e) ∉ (s.stage i.other).entries) → z = y)
        ∧ (follows = true → ∀ e, (c, e) ∈ (s.stage i.other).entries → z = actEntry i.other.maker e y))
    ∧ (∀ (m : Maker) (e : StageForm) (x : Circuit), x.SameBut (actEntry m e x) .show'
      ∧ (∀ v fade, e = .claim v fade → (actEntry m e x).show' = some ⟨Form.ofFade (x.startLevel .show') (x.cfg.clamp v) fade, m⟩)
      ∧ ∀ fade, e = .release fade → actEntry m e x = x.release .show' fade)
    ∧ (∀ (n : Nat) (i : StageId) (s : State), stageIdOf n = some i → s.Serves (.go n) →
      ((s.stage i).state ≠ .standby → s.Refuses (.go n) .notReady)
      ∧ ((s.stage i).state = .standby → ∃ t, s.Completes t (.go n) .ok (be1 n ++ be2 (s.stage i).entries.length
          ++ if (s.stage i.other).state = .standby ∧ (s.stage i.other).trigger = .linked then
              be1 (3 - n) ++ be2 (s.stage i.other).entries.length else [])
        ∧ t = { s.transfer i with port := t.port }))
    ∧ ∀ (c : CueLine) (s u : State), s.phase = .running → u = s.withCue c { s.cue c with
        pin := { (s.cue c).pin with level := decide ((s.cue c).edge = .rising), disagree := 0 } } →
      (∀ i, ¬((s.stage i).state = .standby ∧ (s.stage i).trigger = cueTrigger c) →
        (s.stage i.other).state = .standby ∧ (s.stage i.other).trigger = cueTrigger c →
        ∃ t, exec (.cueEvent c) s = .next t ∧ t = u.transfer i.other)
      ∧ ((∀ i, (s.stage i).state = .standby ∧ (s.stage i).trigger = cueTrigger c) →
        ∃ t, exec (.cueEvent c) s = .next t ∧ t = (u.transfer .one).transfer .two)
      ∧ ((∀ i, ¬((s.stage i).state = .standby ∧ (s.stage i).trigger = cueTrigger c)) →
        ∃ t, exec (.cueEvent c) s = .next t ∧ t = { u with
          ignored1 := if c = .cue1 then min (s.ignored1 + 1) 255 else s.ignored1
          ignored2 := if c = .cue2 then min (s.ignored2 + 1) 255 else s.ignored2
          port := s.port.raise .cueIgnored })

/-! ## Rack link and settings store -/

/-- O: frames (R139 to R143): a next-start time reached starts a frame of every circuit's drive, with the period in use loaded, or is owed while one
is in flight; a frame's end clears it, or starts the owed one, counted late; and RTX carries a break of 120 µs, a mark of
12 µs and then each character in 11 bits of 4 µs, and is at the mark level while the link is Off, between frames, and after a frame's last bit. -/
def Obligations.FramesStartEndAndAreOwed : Prop :=
  ∀ s : State, s.phase = .running → s.link.sending = true →
    (s.link.frame = none → ∃ t, exec .frameStart s = .next t ∧ t = { s with link := { s.link with
      frame := some (rackFrame s.circuits), inUse := s.link.period, nextStart := some s.link.period, owed := false } })
    ∧ (s.link.frame ≠ none → ∃ t, exec .frameStart s = .next t ∧ t = { s with link := { s.link with owed := true, nextStart := none } })
    ∧ (s.link.frame ≠ none → s.link.owed = false → ∃ t, exec .frameEnd s = .next t ∧ t = { s with link := { s.link with frame := none } })
    ∧ (s.link.frame ≠ none → s.link.owed = true → ∃ t, exec .frameEnd s = .next t ∧ t = { s with link := { s.link with
      frame := some (rackFrame s.circuits), inUse := s.link.period, nextStart := some s.link.period, owed := false
      late := min (s.link.late + 1) 255 } })
    ∧ (rackFrame s.circuits).length = s.circuits.length + 3
    ∧ (rackFrame s.circuits).take (s.circuits.length + 1) = 0x5A :: s.circuits.map driveByte
    ∧ (∀ u : State, u.link.frame = none → u.rtx = [])
    ∧ (∀ (u : State) (f : List Byte), u.link.frame = some f → u.rtx.length = 33 + 11 * f.length
      ∧ (∀ i, i < 30 → u.rtx[i]? = some false) ∧ (∀ i, 30 ≤ i → i < 33 → u.rtx[i]? = some true)
      ∧ ∀ k b, f[k]? = some b → u.rtx[33 + 11 * k]? = some false ∧ (∀ i, i < 8 → u.rtx[34 + 11 * k + i]? = some (b.getLsbD i))
        ∧ u.rtx[42 + 11 * k]? = some true ∧ u.rtx[43 + 11 * k]? = some true)
    ∧ (∀ (u : State) (i : Nat) (level : Bool), u.link.sending = true → u.rtx[i]? = some level → u.rtxLevel i = level)
    ∧ (∀ (u : State) (i : Nat), u.link.sending = false ∨ u.link.frame = none → u.rtxLevel i = true)
    ∧ (∀ (u : State) (f : List Byte) (i : Nat), u.link.frame = some f → 33 + 11 * f.length ≤ i → u.rtxLevel i = true)
    ∧ ∃ hi lo : Byte, (rackFrame s.circuits).drop (s.circuits.length + 1) = [hi, lo]
      ∧ hi.toNat * 256 + lo.toNat = (crc16 (0x5A :: s.circuits.map driveByte)).toNat

/-- O: a circuit's drive (R142): the output of 0 to 1000 in 255 parts, rounded half up, or all or nothing where Switched, and its difference to 255
where inverted; a frame start takes it for every circuit from the circuit's record of that moment. -/
def Obligations.DrivesFollowTheOutput : Prop :=
  (∀ x : Circuit, x.output ≤ 1000 →
    (x.cfg.kind = .dimmed → x.cfg.inverted = false → (driveByte x).toNat = (x.output * 255 + 500) / 1000)
      ∧ (x.cfg.kind = .dimmed → x.cfg.inverted = true → (driveByte x).toNat = 255 - (x.output * 255 + 500) / 1000)
      ∧ (x.cfg.kind = .switched → x.cfg.inverted = false → (driveByte x).toNat = if x.output = 1000 then 255 else 0)
      ∧ (x.cfg.kind = .switched → x.cfg.inverted = true → (driveByte x).toNat = if x.output = 1000 then 0 else 255)
      ∧ (x.output * 255 + 500) / 1000 ≤ 255 ∧ ∀ y : Circuit, y.cfg = x.cfg → x.cfg.kind = .dimmed → y.output = x.output + 1 →
        y.output ≤ 1000 → driveOf .dimmed y.output ≤ driveOf .dimmed x.output + 1 ∧ driveOf .dimmed x.output ≤ driveOf .dimmed y.output)
    ∧ ∀ s : State, s.phase = .running → s.link.sending = true → s.link.frame = none →
      ∃ t f, exec .frameStart s = .next t ∧ t.link.frame = some f
        ∧ ∀ n x, circuitAt s.circuits n = some x → f[n]? = some (driveByte x)

/-- O: SAVE, ERASE STORE and the ends of their operations (R156 to R158, R167; log 14: the order and size of the image's items, and what the pages hold
during an operation and after a failed one): SAVE copies every table and takes the image away until verification succeeds;
the ends leave Ready, with the copy as the image or with none, and raise STORE_DONE or STORE_FAIL; a busy store refuses;
an image is its tables' bytes and their 32-bit check, high byte first, and is valid, and read back as those tables, exactly with that check. -/
def Obligations.TheStoreSavesAndErases : Prop :=
  ∀ s : State,
    (s.Serves .save → s.store.state = .ready → ∃ t, s.Completes t .save .ok []
      ∧ t = { s with store := ⟨.saving, false, [], some s.stored⟩, port := t.port })
    ∧ (s.Serves .save → s.store.state ≠ .ready → s.Refuses .save .storeBusy)
    ∧ (s.Serves .eraseStore → s.store.state = .ready → ∃ t, s.Completes t .eraseStore .ok []
      ∧ t = { s with store := ⟨.erasing, false, [], none⟩, port := t.port })
    ∧ (s.Serves .eraseStore → s.store.state ≠ .ready → s.Refuses .eraseStore .storeBusy)
    ∧ (s.phase = .running → s.store.state = .saving →
      (∀ tables, s.store.copy = some tables → ∃ t, exec (.saveOperationEnd true) s = .next t
        ∧ t = { s with store := ⟨.ready, true, imageFile tables, none⟩, port := s.port.raise .storeDone } ∧ t.store.image = some tables)
      ∧ ∃ t, exec (.saveOperationEnd false) s = .next t
        ∧ t = { s with store := ⟨.ready, false, [], none⟩, port := s.port.raise .storeFail } ∧ t.store.image = none)
    ∧ (s.phase = .running → s.store.state = .erasing → ∃ t, exec .eraseOperationEnd s = .next t
      ∧ t = { s with store := ⟨.ready, false, [], none⟩, port := s.port.raise .storeDone } ∧ t.store.image = none)
    ∧ ∀ tables : Stored, ∃ body b3 b2 b1 b0, imageFile tables = body ++ [b3, b2, b1, b0]
      ∧ ((b3.toNat * 256 + b2.toNat) * 256 + b1.toNat) * 256 + b0.toNat = (crc32 body).toNat
      ∧ (∀ (after : List Byte) (u : Store), u.memory = imageFile tables ++ after → u.image = some tables)
      ∧ ∀ (check after : List Byte) (u : Store), check.length = 4 → check ≠ [b3, b2, b1, b0] → u.memory = body ++ check ++ after →
        u.image = none

end
end

