-- ==== Sys2Proof/Laws/State.lean ====
section
/-!
SUPPORT. One lemma per field per update: an update changes its own field and no other. All are true by `rfl`.
-/
namespace Sys2Proof.Machine

@[simp] theorem withPhase_phase (s : State) (x : Phase) : (s.withPhase x).phase = x := rfl
@[simp] theorem withPhase_resetLow (s : State) (x : Phase) : (s.withPhase x).resetLow = s.resetLow := rfl
@[simp] theorem withPhase_startCause (s : State) (x : Phase) : (s.withPhase x).startCause = s.startCause := rfl
@[simp] theorem withPhase_circuits (s : State) (x : Phase) : (s.withPhase x).circuits = s.circuits := rfl
@[simp] theorem withPhase_slots (s : State) (x : Phase) : (s.withPhase x).slots = s.slots := rfl
@[simp] theorem withPhase_index (s : State) (x : Phase) : (s.withPhase x).index = s.index := rfl
@[simp] theorem withPhase_groups (s : State) (x : Phase) : (s.withPhase x).groups = s.groups := rfl
@[simp] theorem withPhase_scenes (s : State) (x : Phase) : (s.withPhase x).scenes = s.scenes := rfl
@[simp] theorem withPhase_mode (s : State) (x : Phase) : (s.withPhase x).mode = s.mode := rfl
@[simp] theorem withPhase_options (s : State) (x : Phase) : (s.withPhase x).options = s.options := rfl
@[simp] theorem withPhase_lineA (s : State) (x : Phase) : (s.withPhase x).lineA = s.lineA := rfl
@[simp] theorem withPhase_lineB (s : State) (x : Phase) : (s.withPhase x).lineB = s.lineB := rfl
@[simp] theorem withPhase_inputs (s : State) (x : Phase) : (s.withPhase x).inputs = s.inputs := rfl
@[simp] theorem withPhase_safe1 (s : State) (x : Phase) : (s.withPhase x).safe1 = s.safe1 := rfl
@[simp] theorem withPhase_safe2 (s : State) (x : Phase) : (s.withPhase x).safe2 = s.safe2 := rfl
@[simp] theorem withPhase_cue1 (s : State) (x : Phase) : (s.withPhase x).cue1 = s.cue1 := rfl
@[simp] theorem withPhase_cue2 (s : State) (x : Phase) : (s.withPhase x).cue2 = s.cue2 := rfl
@[simp] theorem withPhase_settleSamples (s : State) (x : Phase) : (s.withPhase x).settleSamples = s.settleSamples := rfl
@[simp] theorem withPhase_stage1 (s : State) (x : Phase) : (s.withPhase x).stage1 = s.stage1 := rfl
@[simp] theorem withPhase_stage2 (s : State) (x : Phase) : (s.withPhase x).stage2 = s.stage2 := rfl
@[simp] theorem withPhase_ignored1 (s : State) (x : Phase) : (s.withPhase x).ignored1 = s.ignored1 := rfl
@[simp] theorem withPhase_ignored2 (s : State) (x : Phase) : (s.withPhase x).ignored2 = s.ignored2 := rfl
@[simp] theorem withPhase_link (s : State) (x : Phase) : (s.withPhase x).link = s.link := rfl
@[simp] theorem withPhase_port (s : State) (x : Phase) : (s.withPhase x).port = s.port := rfl
@[simp] theorem withPhase_store (s : State) (x : Phase) : (s.withPhase x).store = s.store := rfl
@[simp] theorem withPhase_spi (s : State) (x : Phase) : (s.withPhase x).spi = s.spi := rfl
@[simp] theorem withPhase_sdo (s : State) (x : Phase) : (s.withPhase x).sdo = s.sdo := rfl
@[simp] theorem withPhase_pending (s : State) (x : Phase) : (s.withPhase x).pending = s.pending := rfl
@[simp] theorem withResetLow_phase (s : State) (x : Bool) : (s.withResetLow x).phase = s.phase := rfl
@[simp] theorem withResetLow_resetLow (s : State) (x : Bool) : (s.withResetLow x).resetLow = x := rfl
@[simp] theorem withResetLow_startCause (s : State) (x : Bool) : (s.withResetLow x).startCause = s.startCause := rfl
@[simp] theorem withResetLow_circuits (s : State) (x : Bool) : (s.withResetLow x).circuits = s.circuits := rfl
@[simp] theorem withResetLow_slots (s : State) (x : Bool) : (s.withResetLow x).slots = s.slots := rfl
@[simp] theorem withResetLow_index (s : State) (x : Bool) : (s.withResetLow x).index = s.index := rfl
@[simp] theorem withResetLow_groups (s : State) (x : Bool) : (s.withResetLow x).groups = s.groups := rfl
@[simp] theorem withResetLow_scenes (s : State) (x : Bool) : (s.withResetLow x).scenes = s.scenes := rfl
@[simp] theorem withResetLow_mode (s : State) (x : Bool) : (s.withResetLow x).mode = s.mode := rfl
@[simp] theorem withResetLow_options (s : State) (x : Bool) : (s.withResetLow x).options = s.options := rfl
@[simp] theorem withResetLow_lineA (s : State) (x : Bool) : (s.withResetLow x).lineA = s.lineA := rfl
@[simp] theorem withResetLow_lineB (s : State) (x : Bool) : (s.withResetLow x).lineB = s.lineB := rfl
@[simp] theorem withResetLow_inputs (s : State) (x : Bool) : (s.withResetLow x).inputs = s.inputs := rfl
@[simp] theorem withResetLow_safe1 (s : State) (x : Bool) : (s.withResetLow x).safe1 = s.safe1 := rfl
@[simp] theorem withResetLow_safe2 (s : State) (x : Bool) : (s.withResetLow x).safe2 = s.safe2 := rfl
@[simp] theorem withResetLow_cue1 (s : State) (x : Bool) : (s.withResetLow x).cue1 = s.cue1 := rfl
@[simp] theorem withResetLow_cue2 (s : State) (x : Bool) : (s.withResetLow x).cue2 = s.cue2 := rfl
@[simp] theorem withResetLow_settleSamples (s : State) (x : Bool) : (s.withResetLow x).settleSamples = s.settleSamples := rfl
@[simp] theorem withResetLow_stage1 (s : State) (x : Bool) : (s.withResetLow x).stage1 = s.stage1 := rfl
@[simp] theorem withResetLow_stage2 (s : State) (x : Bool) : (s.withResetLow x).stage2 = s.stage2 := rfl
@[simp] theorem withResetLow_ignored1 (s : State) (x : Bool) : (s.withResetLow x).ignored1 = s.ignored1 := rfl
@[simp] theorem withResetLow_ignored2 (s : State) (x : Bool) : (s.withResetLow x).ignored2 = s.ignored2 := rfl
@[simp] theorem withResetLow_link (s : State) (x : Bool) : (s.withResetLow x).link = s.link := rfl
@[simp] theorem withResetLow_port (s : State) (x : Bool) : (s.withResetLow x).port = s.port := rfl
@[simp] theorem withResetLow_store (s : State) (x : Bool) : (s.withResetLow x).store = s.store := rfl
@[simp] theorem withResetLow_spi (s : State) (x : Bool) : (s.withResetLow x).spi = s.spi := rfl
@[simp] theorem withResetLow_sdo (s : State) (x : Bool) : (s.withResetLow x).sdo = s.sdo := rfl
@[simp] theorem withResetLow_pending (s : State) (x : Bool) : (s.withResetLow x).pending = s.pending := rfl
@[simp] theorem withStartCause_phase (s : State) (x : StartCause) : (s.withStartCause x).phase = s.phase := rfl
@[simp] theorem withStartCause_resetLow (s : State) (x : StartCause) : (s.withStartCause x).resetLow = s.resetLow := rfl
@[simp] theorem withStartCause_startCause (s : State) (x : StartCause) : (s.withStartCause x).startCause = x := rfl
@[simp] theorem withStartCause_circuits (s : State) (x : StartCause) : (s.withStartCause x).circuits = s.circuits := rfl
@[simp] theorem withStartCause_slots (s : State) (x : StartCause) : (s.withStartCause x).slots = s.slots := rfl
@[simp] theorem withStartCause_index (s : State) (x : StartCause) : (s.withStartCause x).index = s.index := rfl
@[simp] theorem withStartCause_groups (s : State) (x : StartCause) : (s.withStartCause x).groups = s.groups := rfl
@[simp] theorem withStartCause_scenes (s : State) (x : StartCause) : (s.withStartCause x).scenes = s.scenes := rfl
@[simp] theorem withStartCause_mode (s : State) (x : StartCause) : (s.withStartCause x).mode = s.mode := rfl
@[simp] theorem withStartCause_options (s : State) (x : StartCause) : (s.withStartCause x).options = s.options := rfl
@[simp] theorem withStartCause_lineA (s : State) (x : StartCause) : (s.withStartCause x).lineA = s.lineA := rfl
@[simp] theorem withStartCause_lineB (s : State) (x : StartCause) : (s.withStartCause x).lineB = s.lineB := rfl
@[simp] theorem withStartCause_inputs (s : State) (x : StartCause) : (s.withStartCause x).inputs = s.inputs := rfl
@[simp] theorem withStartCause_safe1 (s : State) (x : StartCause) : (s.withStartCause x).safe1 = s.safe1 := rfl
@[simp] theorem withStartCause_safe2 (s : State) (x : StartCause) : (s.withStartCause x).safe2 = s.safe2 := rfl
@[simp] theorem withStartCause_cue1 (s : State) (x : StartCause) : (s.withStartCause x).cue1 = s.cue1 := rfl
@[simp] theorem withStartCause_cue2 (s : State) (x : StartCause) : (s.withStartCause x).cue2 = s.cue2 := rfl
@[simp] theorem withStartCause_settleSamples (s : State) (x : StartCause) : (s.withStartCause x).settleSamples = s.settleSamples := rfl
@[simp] theorem withStartCause_stage1 (s : State) (x : StartCause) : (s.withStartCause x).stage1 = s.stage1 := rfl
@[simp] theorem withStartCause_stage2 (s : State) (x : StartCause) : (s.withStartCause x).stage2 = s.stage2 := rfl
@[simp] theorem withStartCause_ignored1 (s : State) (x : StartCause) : (s.withStartCause x).ignored1 = s.ignored1 := rfl
@[simp] theorem withStartCause_ignored2 (s : State) (x : StartCause) : (s.withStartCause x).ignored2 = s.ignored2 := rfl
@[simp] theorem withStartCause_link (s : State) (x : StartCause) : (s.withStartCause x).link = s.link := rfl
@[simp] theorem withStartCause_port (s : State) (x : StartCause) : (s.withStartCause x).port = s.port := rfl
@[simp] theorem withStartCause_store (s : State) (x : StartCause) : (s.withStartCause x).store = s.store := rfl
@[simp] theorem withStartCause_spi (s : State) (x : StartCause) : (s.withStartCause x).spi = s.spi := rfl
@[simp] theorem withStartCause_sdo (s : State) (x : StartCause) : (s.withStartCause x).sdo = s.sdo := rfl
@[simp] theorem withStartCause_pending (s : State) (x : StartCause) : (s.withStartCause x).pending = s.pending := rfl
@[simp] theorem withCircuits_phase (s : State) (x : List Circuit) : (s.withCircuits x).phase = s.phase := rfl
@[simp] theorem withCircuits_resetLow (s : State) (x : List Circuit) : (s.withCircuits x).resetLow = s.resetLow := rfl
@[simp] theorem withCircuits_startCause (s : State) (x : List Circuit) : (s.withCircuits x).startCause = s.startCause := rfl
@[simp] theorem withCircuits_circuits (s : State) (x : List Circuit) : (s.withCircuits x).circuits = x := rfl
@[simp] theorem withCircuits_slots (s : State) (x : List Circuit) : (s.withCircuits x).slots = s.slots := rfl
@[simp] theorem withCircuits_index (s : State) (x : List Circuit) : (s.withCircuits x).index = s.index := rfl
@[simp] theorem withCircuits_groups (s : State) (x : List Circuit) : (s.withCircuits x).groups = s.groups := rfl
@[simp] theorem withCircuits_scenes (s : State) (x : List Circuit) : (s.withCircuits x).scenes = s.scenes := rfl
@[simp] theorem withCircuits_mode (s : State) (x : List Circuit) : (s.withCircuits x).mode = s.mode := rfl
@[simp] theorem withCircuits_options (s : State) (x : List Circuit) : (s.withCircuits x).options = s.options := rfl
@[simp] theorem withCircuits_lineA (s : State) (x : List Circuit) : (s.withCircuits x).lineA = s.lineA := rfl
@[simp] theorem withCircuits_lineB (s : State) (x : List Circuit) : (s.withCircuits x).lineB = s.lineB := rfl
@[simp] theorem withCircuits_inputs (s : State) (x : List Circuit) : (s.withCircuits x).inputs = s.inputs := rfl
@[simp] theorem withCircuits_safe1 (s : State) (x : List Circuit) : (s.withCircuits x).safe1 = s.safe1 := rfl
@[simp] theorem withCircuits_safe2 (s : State) (x : List Circuit) : (s.withCircuits x).safe2 = s.safe2 := rfl
@[simp] theorem withCircuits_cue1 (s : State) (x : List Circuit) : (s.withCircuits x).cue1 = s.cue1 := rfl
@[simp] theorem withCircuits_cue2 (s : State) (x : List Circuit) : (s.withCircuits x).cue2 = s.cue2 := rfl
@[simp] theorem withCircuits_settleSamples (s : State) (x : List Circuit) : (s.withCircuits x).settleSamples = s.settleSamples := rfl
@[simp] theorem withCircuits_stage1 (s : State) (x : List Circuit) : (s.withCircuits x).stage1 = s.stage1 := rfl
@[simp] theorem withCircuits_stage2 (s : State) (x : List Circuit) : (s.withCircuits x).stage2 = s.stage2 := rfl
@[simp] theorem withCircuits_ignored1 (s : State) (x : List Circuit) : (s.withCircuits x).ignored1 = s.ignored1 := rfl
@[simp] theorem withCircuits_ignored2 (s : State) (x : List Circuit) : (s.withCircuits x).ignored2 = s.ignored2 := rfl
@[simp] theorem withCircuits_link (s : State) (x : List Circuit) : (s.withCircuits x).link = s.link := rfl
@[simp] theorem withCircuits_port (s : State) (x : List Circuit) : (s.withCircuits x).port = s.port := rfl
@[simp] theorem withCircuits_store (s : State) (x : List Circuit) : (s.withCircuits x).store = s.store := rfl
@[simp] theorem withCircuits_spi (s : State) (x : List Circuit) : (s.withCircuits x).spi = s.spi := rfl
@[simp] theorem withCircuits_sdo (s : State) (x : List Circuit) : (s.withCircuits x).sdo = s.sdo := rfl
@[simp] theorem withCircuits_pending (s : State) (x : List Circuit) : (s.withCircuits x).pending = s.pending := rfl
@[simp] theorem withSlots_phase (s : State) (x : List Slot) : (s.withSlots x).phase = s.phase := rfl
@[simp] theorem withSlots_resetLow (s : State) (x : List Slot) : (s.withSlots x).resetLow = s.resetLow := rfl
@[simp] theorem withSlots_startCause (s : State) (x : List Slot) : (s.withSlots x).startCause = s.startCause := rfl
@[simp] theorem withSlots_circuits (s : State) (x : List Slot) : (s.withSlots x).circuits = s.circuits := rfl
@[simp] theorem withSlots_slots (s : State) (x : List Slot) : (s.withSlots x).slots = x := rfl
@[simp] theorem withSlots_index (s : State) (x : List Slot) : (s.withSlots x).index = s.index := rfl
@[simp] theorem withSlots_groups (s : State) (x : List Slot) : (s.withSlots x).groups = s.groups := rfl
@[simp] theorem withSlots_scenes (s : State) (x : List Slot) : (s.withSlots x).scenes = s.scenes := rfl
@[simp] theorem withSlots_mode (s : State) (x : List Slot) : (s.withSlots x).mode = s.mode := rfl
@[simp] theorem withSlots_options (s : State) (x : List Slot) : (s.withSlots x).options = s.options := rfl
@[simp] theorem withSlots_lineA (s : State) (x : List Slot) : (s.withSlots x).lineA = s.lineA := rfl
@[simp] theorem withSlots_lineB (s : State) (x : List Slot) : (s.withSlots x).lineB = s.lineB := rfl
@[simp] theorem withSlots_inputs (s : State) (x : List Slot) : (s.withSlots x).inputs = s.inputs := rfl
@[simp] theorem withSlots_safe1 (s : State) (x : List Slot) : (s.withSlots x).safe1 = s.safe1 := rfl
@[simp] theorem withSlots_safe2 (s : State) (x : List Slot) : (s.withSlots x).safe2 = s.safe2 := rfl
@[simp] theorem withSlots_cue1 (s : State) (x : List Slot) : (s.withSlots x).cue1 = s.cue1 := rfl
@[simp] theorem withSlots_cue2 (s : State) (x : List Slot) : (s.withSlots x).cue2 = s.cue2 := rfl
@[simp] theorem withSlots_settleSamples (s : State) (x : List Slot) : (s.withSlots x).settleSamples = s.settleSamples := rfl
@[simp] theorem withSlots_stage1 (s : State) (x : List Slot) : (s.withSlots x).stage1 = s.stage1 := rfl
@[simp] theorem withSlots_stage2 (s : State) (x : List Slot) : (s.withSlots x).stage2 = s.stage2 := rfl
@[simp] theorem withSlots_ignored1 (s : State) (x : List Slot) : (s.withSlots x).ignored1 = s.ignored1 := rfl
@[simp] theorem withSlots_ignored2 (s : State) (x : List Slot) : (s.withSlots x).ignored2 = s.ignored2 := rfl
@[simp] theorem withSlots_link (s : State) (x : List Slot) : (s.withSlots x).link = s.link := rfl
@[simp] theorem withSlots_port (s : State) (x : List Slot) : (s.withSlots x).port = s.port := rfl
@[simp] theorem withSlots_store (s : State) (x : List Slot) : (s.withSlots x).store = s.store := rfl
@[simp] theorem withSlots_spi (s : State) (x : List Slot) : (s.withSlots x).spi = s.spi := rfl
@[simp] theorem withSlots_sdo (s : State) (x : List Slot) : (s.withSlots x).sdo = s.sdo := rfl
@[simp] theorem withSlots_pending (s : State) (x : List Slot) : (s.withSlots x).pending = s.pending := rfl
@[simp] theorem withIndex_phase (s : State) (x : List IndexEntry) : (s.withIndex x).phase = s.phase := rfl
@[simp] theorem withIndex_resetLow (s : State) (x : List IndexEntry) : (s.withIndex x).resetLow = s.resetLow := rfl
@[simp] theorem withIndex_startCause (s : State) (x : List IndexEntry) : (s.withIndex x).startCause = s.startCause := rfl
@[simp] theorem withIndex_circuits (s : State) (x : List IndexEntry) : (s.withIndex x).circuits = s.circuits := rfl
@[simp] theorem withIndex_slots (s : State) (x : List IndexEntry) : (s.withIndex x).slots = s.slots := rfl
@[simp] theorem withIndex_index (s : State) (x : List IndexEntry) : (s.withIndex x).index = x := rfl
@[simp] theorem withIndex_groups (s : State) (x : List IndexEntry) : (s.withIndex x).groups = s.groups := rfl
@[simp] theorem withIndex_scenes (s : State) (x : List IndexEntry) : (s.withIndex x).scenes = s.scenes := rfl
@[simp] theorem withIndex_mode (s : State) (x : List IndexEntry) : (s.withIndex x).mode = s.mode := rfl
@[simp] theorem withIndex_options (s : State) (x : List IndexEntry) : (s.withIndex x).options = s.options := rfl
@[simp] theorem withIndex_lineA (s : State) (x : List IndexEntry) : (s.withIndex x).lineA = s.lineA := rfl
@[simp] theorem withIndex_lineB (s : State) (x : List IndexEntry) : (s.withIndex x).lineB = s.lineB := rfl
@[simp] theorem withIndex_inputs (s : State) (x : List IndexEntry) : (s.withIndex x).inputs = s.inputs := rfl
@[simp] theorem withIndex_safe1 (s : State) (x : List IndexEntry) : (s.withIndex x).safe1 = s.safe1 := rfl
@[simp] theorem withIndex_safe2 (s : State) (x : List IndexEntry) : (s.withIndex x).safe2 = s.safe2 := rfl
@[simp] theorem withIndex_cue1 (s : State) (x : List IndexEntry) : (s.withIndex x).cue1 = s.cue1 := rfl
@[simp] theorem withIndex_cue2 (s : State) (x : List IndexEntry) : (s.withIndex x).cue2 = s.cue2 := rfl
@[simp] theorem withIndex_settleSamples (s : State) (x : List IndexEntry) : (s.withIndex x).settleSamples = s.settleSamples := rfl
@[simp] theorem withIndex_stage1 (s : State) (x : List IndexEntry) : (s.withIndex x).stage1 = s.stage1 := rfl
@[simp] theorem withIndex_stage2 (s : State) (x : List IndexEntry) : (s.withIndex x).stage2 = s.stage2 := rfl
@[simp] theorem withIndex_ignored1 (s : State) (x : List IndexEntry) : (s.withIndex x).ignored1 = s.ignored1 := rfl
@[simp] theorem withIndex_ignored2 (s : State) (x : List IndexEntry) : (s.withIndex x).ignored2 = s.ignored2 := rfl
@[simp] theorem withIndex_link (s : State) (x : List IndexEntry) : (s.withIndex x).link = s.link := rfl
@[simp] theorem withIndex_port (s : State) (x : List IndexEntry) : (s.withIndex x).port = s.port := rfl
@[simp] theorem withIndex_store (s : State) (x : List IndexEntry) : (s.withIndex x).store = s.store := rfl
@[simp] theorem withIndex_spi (s : State) (x : List IndexEntry) : (s.withIndex x).spi = s.spi := rfl
@[simp] theorem withIndex_sdo (s : State) (x : List IndexEntry) : (s.withIndex x).sdo = s.sdo := rfl
@[simp] theorem withIndex_pending (s : State) (x : List IndexEntry) : (s.withIndex x).pending = s.pending := rfl
@[simp] theorem withGroups_phase (s : State) (x : List (Option (List Nat))) : (s.withGroups x).phase = s.phase := rfl
@[simp] theorem withGroups_resetLow (s : State) (x : List (Option (List Nat))) : (s.withGroups x).resetLow = s.resetLow := rfl
@[simp] theorem withGroups_startCause (s : State) (x : List (Option (List Nat))) : (s.withGroups x).startCause = s.startCause := rfl
@[simp] theorem withGroups_circuits (s : State) (x : List (Option (List Nat))) : (s.withGroups x).circuits = s.circuits := rfl
@[simp] theorem withGroups_slots (s : State) (x : List (Option (List Nat))) : (s.withGroups x).slots = s.slots := rfl
@[simp] theorem withGroups_index (s : State) (x : List (Option (List Nat))) : (s.withGroups x).index = s.index := rfl
@[simp] theorem withGroups_groups (s : State) (x : List (Option (List Nat))) : (s.withGroups x).groups = x := rfl
@[simp] theorem withGroups_scenes (s : State) (x : List (Option (List Nat))) : (s.withGroups x).scenes = s.scenes := rfl
@[simp] theorem withGroups_mode (s : State) (x : List (Option (List Nat))) : (s.withGroups x).mode = s.mode := rfl
@[simp] theorem withGroups_options (s : State) (x : List (Option (List Nat))) : (s.withGroups x).options = s.options := rfl
@[simp] theorem withGroups_lineA (s : State) (x : List (Option (List Nat))) : (s.withGroups x).lineA = s.lineA := rfl
@[simp] theorem withGroups_lineB (s : State) (x : List (Option (List Nat))) : (s.withGroups x).lineB = s.lineB := rfl
@[simp] theorem withGroups_inputs (s : State) (x : List (Option (List Nat))) : (s.withGroups x).inputs = s.inputs := rfl
@[simp] theorem withGroups_safe1 (s : State) (x : List (Option (List Nat))) : (s.withGroups x).safe1 = s.safe1 := rfl
@[simp] theorem withGroups_safe2 (s : State) (x : List (Option (List Nat))) : (s.withGroups x).safe2 = s.safe2 := rfl
@[simp] theorem withGroups_cue1 (s : State) (x : List (Option (List Nat))) : (s.withGroups x).cue1 = s.cue1 := rfl
@[simp] theorem withGroups_cue2 (s : State) (x : List (Option (List Nat))) : (s.withGroups x).cue2 = s.cue2 := rfl
@[simp] theorem withGroups_settleSamples (s : State) (x : List (Option (List Nat))) : (s.withGroups x).settleSamples = s.settleSamples := rfl
@[simp] theorem withGroups_stage1 (s : State) (x : List (Option (List Nat))) : (s.withGroups x).stage1 = s.stage1 := rfl
@[simp] theorem withGroups_stage2 (s : State) (x : List (Option (List Nat))) : (s.withGroups x).stage2 = s.stage2 := rfl
@[simp] theorem withGroups_ignored1 (s : State) (x : List (Option (List Nat))) : (s.withGroups x).ignored1 = s.ignored1 := rfl
@[simp] theorem withGroups_ignored2 (s : State) (x : List (Option (List Nat))) : (s.withGroups x).ignored2 = s.ignored2 := rfl
@[simp] theorem withGroups_link (s : State) (x : List (Option (List Nat))) : (s.withGroups x).link = s.link := rfl
@[simp] theorem withGroups_port (s : State) (x : List (Option (List Nat))) : (s.withGroups x).port = s.port := rfl
@[simp] theorem withGroups_store (s : State) (x : List (Option (List Nat))) : (s.withGroups x).store = s.store := rfl
@[simp] theorem withGroups_spi (s : State) (x : List (Option (List Nat))) : (s.withGroups x).spi = s.spi := rfl
@[simp] theorem withGroups_sdo (s : State) (x : List (Option (List Nat))) : (s.withGroups x).sdo = s.sdo := rfl
@[simp] theorem withGroups_pending (s : State) (x : List (Option (List Nat))) : (s.withGroups x).pending = s.pending := rfl
@[simp] theorem withScenes_phase (s : State) (x : List (Option Scene)) : (s.withScenes x).phase = s.phase := rfl
@[simp] theorem withScenes_resetLow (s : State) (x : List (Option Scene)) : (s.withScenes x).resetLow = s.resetLow := rfl
@[simp] theorem withScenes_startCause (s : State) (x : List (Option Scene)) : (s.withScenes x).startCause = s.startCause := rfl
@[simp] theorem withScenes_circuits (s : State) (x : List (Option Scene)) : (s.withScenes x).circuits = s.circuits := rfl
@[simp] theorem withScenes_slots (s : State) (x : List (Option Scene)) : (s.withScenes x).slots = s.slots := rfl
@[simp] theorem withScenes_index (s : State) (x : List (Option Scene)) : (s.withScenes x).index = s.index := rfl
@[simp] theorem withScenes_groups (s : State) (x : List (Option Scene)) : (s.withScenes x).groups = s.groups := rfl
@[simp] theorem withScenes_scenes (s : State) (x : List (Option Scene)) : (s.withScenes x).scenes = x := rfl
@[simp] theorem withScenes_mode (s : State) (x : List (Option Scene)) : (s.withScenes x).mode = s.mode := rfl
@[simp] theorem withScenes_options (s : State) (x : List (Option Scene)) : (s.withScenes x).options = s.options := rfl
@[simp] theorem withScenes_lineA (s : State) (x : List (Option Scene)) : (s.withScenes x).lineA = s.lineA := rfl
@[simp] theorem withScenes_lineB (s : State) (x : List (Option Scene)) : (s.withScenes x).lineB = s.lineB := rfl
@[simp] theorem withScenes_inputs (s : State) (x : List (Option Scene)) : (s.withScenes x).inputs = s.inputs := rfl
@[simp] theorem withScenes_safe1 (s : State) (x : List (Option Scene)) : (s.withScenes x).safe1 = s.safe1 := rfl
@[simp] theorem withScenes_safe2 (s : State) (x : List (Option Scene)) : (s.withScenes x).safe2 = s.safe2 := rfl
@[simp] theorem withScenes_cue1 (s : State) (x : List (Option Scene)) : (s.withScenes x).cue1 = s.cue1 := rfl
@[simp] theorem withScenes_cue2 (s : State) (x : List (Option Scene)) : (s.withScenes x).cue2 = s.cue2 := rfl
@[simp] theorem withScenes_settleSamples (s : State) (x : List (Option Scene)) : (s.withScenes x).settleSamples = s.settleSamples := rfl
@[simp] theorem withScenes_stage1 (s : State) (x : List (Option Scene)) : (s.withScenes x).stage1 = s.stage1 := rfl
@[simp] theorem withScenes_stage2 (s : State) (x : List (Option Scene)) : (s.withScenes x).stage2 = s.stage2 := rfl
@[simp] theorem withScenes_ignored1 (s : State) (x : List (Option Scene)) : (s.withScenes x).ignored1 = s.ignored1 := rfl
@[simp] theorem withScenes_ignored2 (s : State) (x : List (Option Scene)) : (s.withScenes x).ignored2 = s.ignored2 := rfl
@[simp] theorem withScenes_link (s : State) (x : List (Option Scene)) : (s.withScenes x).link = s.link := rfl
@[simp] theorem withScenes_port (s : State) (x : List (Option Scene)) : (s.withScenes x).port = s.port := rfl
@[simp] theorem withScenes_store (s : State) (x : List (Option Scene)) : (s.withScenes x).store = s.store := rfl
@[simp] theorem withScenes_spi (s : State) (x : List (Option Scene)) : (s.withScenes x).spi = s.spi := rfl
@[simp] theorem withScenes_sdo (s : State) (x : List (Option Scene)) : (s.withScenes x).sdo = s.sdo := rfl
@[simp] theorem withScenes_pending (s : State) (x : List (Option Scene)) : (s.withScenes x).pending = s.pending := rfl
@[simp] theorem withMode_phase (s : State) (x : Mode) : (s.withMode x).phase = s.phase := rfl
@[simp] theorem withMode_resetLow (s : State) (x : Mode) : (s.withMode x).resetLow = s.resetLow := rfl
@[simp] theorem withMode_startCause (s : State) (x : Mode) : (s.withMode x).startCause = s.startCause := rfl
@[simp] theorem withMode_circuits (s : State) (x : Mode) : (s.withMode x).circuits = s.circuits := rfl
@[simp] theorem withMode_slots (s : State) (x : Mode) : (s.withMode x).slots = s.slots := rfl
@[simp] theorem withMode_index (s : State) (x : Mode) : (s.withMode x).index = s.index := rfl
@[simp] theorem withMode_groups (s : State) (x : Mode) : (s.withMode x).groups = s.groups := rfl
@[simp] theorem withMode_scenes (s : State) (x : Mode) : (s.withMode x).scenes = s.scenes := rfl
@[simp] theorem withMode_mode (s : State) (x : Mode) : (s.withMode x).mode = x := rfl
@[simp] theorem withMode_options (s : State) (x : Mode) : (s.withMode x).options = s.options := rfl
@[simp] theorem withMode_lineA (s : State) (x : Mode) : (s.withMode x).lineA = s.lineA := rfl
@[simp] theorem withMode_lineB (s : State) (x : Mode) : (s.withMode x).lineB = s.lineB := rfl
@[simp] theorem withMode_inputs (s : State) (x : Mode) : (s.withMode x).inputs = s.inputs := rfl
@[simp] theorem withMode_safe1 (s : State) (x : Mode) : (s.withMode x).safe1 = s.safe1 := rfl
@[simp] theorem withMode_safe2 (s : State) (x : Mode) : (s.withMode x).safe2 = s.safe2 := rfl
@[simp] theorem withMode_cue1 (s : State) (x : Mode) : (s.withMode x).cue1 = s.cue1 := rfl
@[simp] theorem withMode_cue2 (s : State) (x : Mode) : (s.withMode x).cue2 = s.cue2 := rfl
@[simp] theorem withMode_settleSamples (s : State) (x : Mode) : (s.withMode x).settleSamples = s.settleSamples := rfl
@[simp] theorem withMode_stage1 (s : State) (x : Mode) : (s.withMode x).stage1 = s.stage1 := rfl
@[simp] theorem withMode_stage2 (s : State) (x : Mode) : (s.withMode x).stage2 = s.stage2 := rfl
@[simp] theorem withMode_ignored1 (s : State) (x : Mode) : (s.withMode x).ignored1 = s.ignored1 := rfl
@[simp] theorem withMode_ignored2 (s : State) (x : Mode) : (s.withMode x).ignored2 = s.ignored2 := rfl
@[simp] theorem withMode_link (s : State) (x : Mode) : (s.withMode x).link = s.link := rfl
@[simp] theorem withMode_port (s : State) (x : Mode) : (s.withMode x).port = s.port := rfl
@[simp] theorem withMode_store (s : State) (x : Mode) : (s.withMode x).store = s.store := rfl
@[simp] theorem withMode_spi (s : State) (x : Mode) : (s.withMode x).spi = s.spi := rfl
@[simp] theorem withMode_sdo (s : State) (x : Mode) : (s.withMode x).sdo = s.sdo := rfl
@[simp] theorem withMode_pending (s : State) (x : Mode) : (s.withMode x).pending = s.pending := rfl
@[simp] theorem withOptions_phase (s : State) (x : ModeOptions) : (s.withOptions x).phase = s.phase := rfl
@[simp] theorem withOptions_resetLow (s : State) (x : ModeOptions) : (s.withOptions x).resetLow = s.resetLow := rfl
@[simp] theorem withOptions_startCause (s : State) (x : ModeOptions) : (s.withOptions x).startCause = s.startCause := rfl
@[simp] theorem withOptions_circuits (s : State) (x : ModeOptions) : (s.withOptions x).circuits = s.circuits := rfl
@[simp] theorem withOptions_slots (s : State) (x : ModeOptions) : (s.withOptions x).slots = s.slots := rfl
@[simp] theorem withOptions_index (s : State) (x : ModeOptions) : (s.withOptions x).index = s.index := rfl
@[simp] theorem withOptions_groups (s : State) (x : ModeOptions) : (s.withOptions x).groups = s.groups := rfl
@[simp] theorem withOptions_scenes (s : State) (x : ModeOptions) : (s.withOptions x).scenes = s.scenes := rfl
@[simp] theorem withOptions_mode (s : State) (x : ModeOptions) : (s.withOptions x).mode = s.mode := rfl
@[simp] theorem withOptions_options (s : State) (x : ModeOptions) : (s.withOptions x).options = x := rfl
@[simp] theorem withOptions_lineA (s : State) (x : ModeOptions) : (s.withOptions x).lineA = s.lineA := rfl
@[simp] theorem withOptions_lineB (s : State) (x : ModeOptions) : (s.withOptions x).lineB = s.lineB := rfl
@[simp] theorem withOptions_inputs (s : State) (x : ModeOptions) : (s.withOptions x).inputs = s.inputs := rfl
@[simp] theorem withOptions_safe1 (s : State) (x : ModeOptions) : (s.withOptions x).safe1 = s.safe1 := rfl
@[simp] theorem withOptions_safe2 (s : State) (x : ModeOptions) : (s.withOptions x).safe2 = s.safe2 := rfl
@[simp] theorem withOptions_cue1 (s : State) (x : ModeOptions) : (s.withOptions x).cue1 = s.cue1 := rfl
@[simp] theorem withOptions_cue2 (s : State) (x : ModeOptions) : (s.withOptions x).cue2 = s.cue2 := rfl
@[simp] theorem withOptions_settleSamples (s : State) (x : ModeOptions) : (s.withOptions x).settleSamples = s.settleSamples := rfl
@[simp] theorem withOptions_stage1 (s : State) (x : ModeOptions) : (s.withOptions x).stage1 = s.stage1 := rfl
@[simp] theorem withOptions_stage2 (s : State) (x : ModeOptions) : (s.withOptions x).stage2 = s.stage2 := rfl
@[simp] theorem withOptions_ignored1 (s : State) (x : ModeOptions) : (s.withOptions x).ignored1 = s.ignored1 := rfl
@[simp] theorem withOptions_ignored2 (s : State) (x : ModeOptions) : (s.withOptions x).ignored2 = s.ignored2 := rfl
@[simp] theorem withOptions_link (s : State) (x : ModeOptions) : (s.withOptions x).link = s.link := rfl
@[simp] theorem withOptions_port (s : State) (x : ModeOptions) : (s.withOptions x).port = s.port := rfl
@[simp] theorem withOptions_store (s : State) (x : ModeOptions) : (s.withOptions x).store = s.store := rfl
@[simp] theorem withOptions_spi (s : State) (x : ModeOptions) : (s.withOptions x).spi = s.spi := rfl
@[simp] theorem withOptions_sdo (s : State) (x : ModeOptions) : (s.withOptions x).sdo = s.sdo := rfl
@[simp] theorem withOptions_pending (s : State) (x : ModeOptions) : (s.withOptions x).pending = s.pending := rfl
@[simp] theorem withLineA_phase (s : State) (x : LineCtl) : (s.withLineA x).phase = s.phase := rfl
@[simp] theorem withLineA_resetLow (s : State) (x : LineCtl) : (s.withLineA x).resetLow = s.resetLow := rfl
@[simp] theorem withLineA_startCause (s : State) (x : LineCtl) : (s.withLineA x).startCause = s.startCause := rfl
@[simp] theorem withLineA_circuits (s : State) (x : LineCtl) : (s.withLineA x).circuits = s.circuits := rfl
@[simp] theorem withLineA_slots (s : State) (x : LineCtl) : (s.withLineA x).slots = s.slots := rfl
@[simp] theorem withLineA_index (s : State) (x : LineCtl) : (s.withLineA x).index = s.index := rfl
@[simp] theorem withLineA_groups (s : State) (x : LineCtl) : (s.withLineA x).groups = s.groups := rfl
@[simp] theorem withLineA_scenes (s : State) (x : LineCtl) : (s.withLineA x).scenes = s.scenes := rfl
@[simp] theorem withLineA_mode (s : State) (x : LineCtl) : (s.withLineA x).mode = s.mode := rfl
@[simp] theorem withLineA_options (s : State) (x : LineCtl) : (s.withLineA x).options = s.options := rfl
@[simp] theorem withLineA_lineA (s : State) (x : LineCtl) : (s.withLineA x).lineA = x := rfl
@[simp] theorem withLineA_lineB (s : State) (x : LineCtl) : (s.withLineA x).lineB = s.lineB := rfl
@[simp] theorem withLineA_inputs (s : State) (x : LineCtl) : (s.withLineA x).inputs = s.inputs := rfl
@[simp] theorem withLineA_safe1 (s : State) (x : LineCtl) : (s.withLineA x).safe1 = s.safe1 := rfl
@[simp] theorem withLineA_safe2 (s : State) (x : LineCtl) : (s.withLineA x).safe2 = s.safe2 := rfl
@[simp] theorem withLineA_cue1 (s : State) (x : LineCtl) : (s.withLineA x).cue1 = s.cue1 := rfl
@[simp] theorem withLineA_cue2 (s : State) (x : LineCtl) : (s.withLineA x).cue2 = s.cue2 := rfl
@[simp] theorem withLineA_settleSamples (s : State) (x : LineCtl) : (s.withLineA x).settleSamples = s.settleSamples := rfl
@[simp] theorem withLineA_stage1 (s : State) (x : LineCtl) : (s.withLineA x).stage1 = s.stage1 := rfl
@[simp] theorem withLineA_stage2 (s : State) (x : LineCtl) : (s.withLineA x).stage2 = s.stage2 := rfl
@[simp] theorem withLineA_ignored1 (s : State) (x : LineCtl) : (s.withLineA x).ignored1 = s.ignored1 := rfl
@[simp] theorem withLineA_ignored2 (s : State) (x : LineCtl) : (s.withLineA x).ignored2 = s.ignored2 := rfl
@[simp] theorem withLineA_link (s : State) (x : LineCtl) : (s.withLineA x).link = s.link := rfl
@[simp] theorem withLineA_port (s : State) (x : LineCtl) : (s.withLineA x).port = s.port := rfl
@[simp] theorem withLineA_store (s : State) (x : LineCtl) : (s.withLineA x).store = s.store := rfl
@[simp] theorem withLineA_spi (s : State) (x : LineCtl) : (s.withLineA x).spi = s.spi := rfl
@[simp] theorem withLineA_sdo (s : State) (x : LineCtl) : (s.withLineA x).sdo = s.sdo := rfl
@[simp] theorem withLineA_pending (s : State) (x : LineCtl) : (s.withLineA x).pending = s.pending := rfl
@[simp] theorem withLineB_phase (s : State) (x : LineCtl) : (s.withLineB x).phase = s.phase := rfl
@[simp] theorem withLineB_resetLow (s : State) (x : LineCtl) : (s.withLineB x).resetLow = s.resetLow := rfl
@[simp] theorem withLineB_startCause (s : State) (x : LineCtl) : (s.withLineB x).startCause = s.startCause := rfl
@[simp] theorem withLineB_circuits (s : State) (x : LineCtl) : (s.withLineB x).circuits = s.circuits := rfl
@[simp] theorem withLineB_slots (s : State) (x : LineCtl) : (s.withLineB x).slots = s.slots := rfl
@[simp] theorem withLineB_index (s : State) (x : LineCtl) : (s.withLineB x).index = s.index := rfl
@[simp] theorem withLineB_groups (s : State) (x : LineCtl) : (s.withLineB x).groups = s.groups := rfl
@[simp] theorem withLineB_scenes (s : State) (x : LineCtl) : (s.withLineB x).scenes = s.scenes := rfl
@[simp] theorem withLineB_mode (s : State) (x : LineCtl) : (s.withLineB x).mode = s.mode := rfl
@[simp] theorem withLineB_options (s : State) (x : LineCtl) : (s.withLineB x).options = s.options := rfl
@[simp] theorem withLineB_lineA (s : State) (x : LineCtl) : (s.withLineB x).lineA = s.lineA := rfl
@[simp] theorem withLineB_lineB (s : State) (x : LineCtl) : (s.withLineB x).lineB = x := rfl
@[simp] theorem withLineB_inputs (s : State) (x : LineCtl) : (s.withLineB x).inputs = s.inputs := rfl
@[simp] theorem withLineB_safe1 (s : State) (x : LineCtl) : (s.withLineB x).safe1 = s.safe1 := rfl
@[simp] theorem withLineB_safe2 (s : State) (x : LineCtl) : (s.withLineB x).safe2 = s.safe2 := rfl
@[simp] theorem withLineB_cue1 (s : State) (x : LineCtl) : (s.withLineB x).cue1 = s.cue1 := rfl
@[simp] theorem withLineB_cue2 (s : State) (x : LineCtl) : (s.withLineB x).cue2 = s.cue2 := rfl
@[simp] theorem withLineB_settleSamples (s : State) (x : LineCtl) : (s.withLineB x).settleSamples = s.settleSamples := rfl
@[simp] theorem withLineB_stage1 (s : State) (x : LineCtl) : (s.withLineB x).stage1 = s.stage1 := rfl
@[simp] theorem withLineB_stage2 (s : State) (x : LineCtl) : (s.withLineB x).stage2 = s.stage2 := rfl
@[simp] theorem withLineB_ignored1 (s : State) (x : LineCtl) : (s.withLineB x).ignored1 = s.ignored1 := rfl
@[simp] theorem withLineB_ignored2 (s : State) (x : LineCtl) : (s.withLineB x).ignored2 = s.ignored2 := rfl
@[simp] theorem withLineB_link (s : State) (x : LineCtl) : (s.withLineB x).link = s.link := rfl
@[simp] theorem withLineB_port (s : State) (x : LineCtl) : (s.withLineB x).port = s.port := rfl
@[simp] theorem withLineB_store (s : State) (x : LineCtl) : (s.withLineB x).store = s.store := rfl
@[simp] theorem withLineB_spi (s : State) (x : LineCtl) : (s.withLineB x).spi = s.spi := rfl
@[simp] theorem withLineB_sdo (s : State) (x : LineCtl) : (s.withLineB x).sdo = s.sdo := rfl
@[simp] theorem withLineB_pending (s : State) (x : LineCtl) : (s.withLineB x).pending = s.pending := rfl
@[simp] theorem withInputs_phase (s : State) (x : List ContactInput) : (s.withInputs x).phase = s.phase := rfl
@[simp] theorem withInputs_resetLow (s : State) (x : List ContactInput) : (s.withInputs x).resetLow = s.resetLow := rfl
@[simp] theorem withInputs_startCause (s : State) (x : List ContactInput) : (s.withInputs x).startCause = s.startCause := rfl
@[simp] theorem withInputs_circuits (s : State) (x : List ContactInput) : (s.withInputs x).circuits = s.circuits := rfl
@[simp] theorem withInputs_slots (s : State) (x : List ContactInput) : (s.withInputs x).slots = s.slots := rfl
@[simp] theorem withInputs_index (s : State) (x : List ContactInput) : (s.withInputs x).index = s.index := rfl
@[simp] theorem withInputs_groups (s : State) (x : List ContactInput) : (s.withInputs x).groups = s.groups := rfl
@[simp] theorem withInputs_scenes (s : State) (x : List ContactInput) : (s.withInputs x).scenes = s.scenes := rfl
@[simp] theorem withInputs_mode (s : State) (x : List ContactInput) : (s.withInputs x).mode = s.mode := rfl
@[simp] theorem withInputs_options (s : State) (x : List ContactInput) : (s.withInputs x).options = s.options := rfl
@[simp] theorem withInputs_lineA (s : State) (x : List ContactInput) : (s.withInputs x).lineA = s.lineA := rfl
@[simp] theorem withInputs_lineB (s : State) (x : List ContactInput) : (s.withInputs x).lineB = s.lineB := rfl
@[simp] theorem withInputs_inputs (s : State) (x : List ContactInput) : (s.withInputs x).inputs = x := rfl
@[simp] theorem withInputs_safe1 (s : State) (x : List ContactInput) : (s.withInputs x).safe1 = s.safe1 := rfl
@[simp] theorem withInputs_safe2 (s : State) (x : List ContactInput) : (s.withInputs x).safe2 = s.safe2 := rfl
@[simp] theorem withInputs_cue1 (s : State) (x : List ContactInput) : (s.withInputs x).cue1 = s.cue1 := rfl
@[simp] theorem withInputs_cue2 (s : State) (x : List ContactInput) : (s.withInputs x).cue2 = s.cue2 := rfl
@[simp] theorem withInputs_settleSamples (s : State) (x : List ContactInput) : (s.withInputs x).settleSamples = s.settleSamples := rfl
@[simp] theorem withInputs_stage1 (s : State) (x : List ContactInput) : (s.withInputs x).stage1 = s.stage1 := rfl
@[simp] theorem withInputs_stage2 (s : State) (x : List ContactInput) : (s.withInputs x).stage2 = s.stage2 := rfl
@[simp] theorem withInputs_ignored1 (s : State) (x : List ContactInput) : (s.withInputs x).ignored1 = s.ignored1 := rfl
@[simp] theorem withInputs_ignored2 (s : State) (x : List ContactInput) : (s.withInputs x).ignored2 = s.ignored2 := rfl
@[simp] theorem withInputs_link (s : State) (x : List ContactInput) : (s.withInputs x).link = s.link := rfl
@[simp] theorem withInputs_port (s : State) (x : List ContactInput) : (s.withInputs x).port = s.port := rfl
@[simp] theorem withInputs_store (s : State) (x : List ContactInput) : (s.withInputs x).store = s.store := rfl
@[simp] theorem withInputs_spi (s : State) (x : List ContactInput) : (s.withInputs x).spi = s.spi := rfl
@[simp] theorem withInputs_sdo (s : State) (x : List ContactInput) : (s.withInputs x).sdo = s.sdo := rfl
@[simp] theorem withInputs_pending (s : State) (x : List ContactInput) : (s.withInputs x).pending = s.pending := rfl
@[simp] theorem withSafe1_phase (s : State) (x : Pin) : (s.withSafe1 x).phase = s.phase := rfl
@[simp] theorem withSafe1_resetLow (s : State) (x : Pin) : (s.withSafe1 x).resetLow = s.resetLow := rfl
@[simp] theorem withSafe1_startCause (s : State) (x : Pin) : (s.withSafe1 x).startCause = s.startCause := rfl
@[simp] theorem withSafe1_circuits (s : State) (x : Pin) : (s.withSafe1 x).circuits = s.circuits := rfl
@[simp] theorem withSafe1_slots (s : State) (x : Pin) : (s.withSafe1 x).slots = s.slots := rfl
@[simp] theorem withSafe1_index (s : State) (x : Pin) : (s.withSafe1 x).index = s.index := rfl
@[simp] theorem withSafe1_groups (s : State) (x : Pin) : (s.withSafe1 x).groups = s.groups := rfl
@[simp] theorem withSafe1_scenes (s : State) (x : Pin) : (s.withSafe1 x).scenes = s.scenes := rfl
@[simp] theorem withSafe1_mode (s : State) (x : Pin) : (s.withSafe1 x).mode = s.mode := rfl
@[simp] theorem withSafe1_options (s : State) (x : Pin) : (s.withSafe1 x).options = s.options := rfl
@[simp] theorem withSafe1_lineA (s : State) (x : Pin) : (s.withSafe1 x).lineA = s.lineA := rfl
@[simp] theorem withSafe1_lineB (s : State) (x : Pin) : (s.withSafe1 x).lineB = s.lineB := rfl
@[simp] theorem withSafe1_inputs (s : State) (x : Pin) : (s.withSafe1 x).inputs = s.inputs := rfl
@[simp] theorem withSafe1_safe1 (s : State) (x : Pin) : (s.withSafe1 x).safe1 = x := rfl
@[simp] theorem withSafe1_safe2 (s : State) (x : Pin) : (s.withSafe1 x).safe2 = s.safe2 := rfl
@[simp] theorem withSafe1_cue1 (s : State) (x : Pin) : (s.withSafe1 x).cue1 = s.cue1 := rfl
@[simp] theorem withSafe1_cue2 (s : State) (x : Pin) : (s.withSafe1 x).cue2 = s.cue2 := rfl
@[simp] theorem withSafe1_settleSamples (s : State) (x : Pin) : (s.withSafe1 x).settleSamples = s.settleSamples := rfl
@[simp] theorem withSafe1_stage1 (s : State) (x : Pin) : (s.withSafe1 x).stage1 = s.stage1 := rfl
@[simp] theorem withSafe1_stage2 (s : State) (x : Pin) : (s.withSafe1 x).stage2 = s.stage2 := rfl
@[simp] theorem withSafe1_ignored1 (s : State) (x : Pin) : (s.withSafe1 x).ignored1 = s.ignored1 := rfl
@[simp] theorem withSafe1_ignored2 (s : State) (x : Pin) : (s.withSafe1 x).ignored2 = s.ignored2 := rfl
@[simp] theorem withSafe1_link (s : State) (x : Pin) : (s.withSafe1 x).link = s.link := rfl
@[simp] theorem withSafe1_port (s : State) (x : Pin) : (s.withSafe1 x).port = s.port := rfl
@[simp] theorem withSafe1_store (s : State) (x : Pin) : (s.withSafe1 x).store = s.store := rfl
@[simp] theorem withSafe1_spi (s : State) (x : Pin) : (s.withSafe1 x).spi = s.spi := rfl
@[simp] theorem withSafe1_sdo (s : State) (x : Pin) : (s.withSafe1 x).sdo = s.sdo := rfl
@[simp] theorem withSafe1_pending (s : State) (x : Pin) : (s.withSafe1 x).pending = s.pending := rfl
@[simp] theorem withSafe2_phase (s : State) (x : Pin) : (s.withSafe2 x).phase = s.phase := rfl
@[simp] theorem withSafe2_resetLow (s : State) (x : Pin) : (s.withSafe2 x).resetLow = s.resetLow := rfl
@[simp] theorem withSafe2_startCause (s : State) (x : Pin) : (s.withSafe2 x).startCause = s.startCause := rfl
@[simp] theorem withSafe2_circuits (s : State) (x : Pin) : (s.withSafe2 x).circuits = s.circuits := rfl
@[simp] theorem withSafe2_slots (s : State) (x : Pin) : (s.withSafe2 x).slots = s.slots := rfl
@[simp] theorem withSafe2_index (s : State) (x : Pin) : (s.withSafe2 x).index = s.index := rfl
@[simp] theorem withSafe2_groups (s : State) (x : Pin) : (s.withSafe2 x).groups = s.groups := rfl
@[simp] theorem withSafe2_scenes (s : State) (x : Pin) : (s.withSafe2 x).scenes = s.scenes := rfl
@[simp] theorem withSafe2_mode (s : State) (x : Pin) : (s.withSafe2 x).mode = s.mode := rfl
@[simp] theorem withSafe2_options (s : State) (x : Pin) : (s.withSafe2 x).options = s.options := rfl
@[simp] theorem withSafe2_lineA (s : State) (x : Pin) : (s.withSafe2 x).lineA = s.lineA := rfl
@[simp] theorem withSafe2_lineB (s : State) (x : Pin) : (s.withSafe2 x).lineB = s.lineB := rfl
@[simp] theorem withSafe2_inputs (s : State) (x : Pin) : (s.withSafe2 x).inputs = s.inputs := rfl
@[simp] theorem withSafe2_safe1 (s : State) (x : Pin) : (s.withSafe2 x).safe1 = s.safe1 := rfl
@[simp] theorem withSafe2_safe2 (s : State) (x : Pin) : (s.withSafe2 x).safe2 = x := rfl
@[simp] theorem withSafe2_cue1 (s : State) (x : Pin) : (s.withSafe2 x).cue1 = s.cue1 := rfl
@[simp] theorem withSafe2_cue2 (s : State) (x : Pin) : (s.withSafe2 x).cue2 = s.cue2 := rfl
@[simp] theorem withSafe2_settleSamples (s : State) (x : Pin) : (s.withSafe2 x).settleSamples = s.settleSamples := rfl
@[simp] theorem withSafe2_stage1 (s : State) (x : Pin) : (s.withSafe2 x).stage1 = s.stage1 := rfl
@[simp] theorem withSafe2_stage2 (s : State) (x : Pin) : (s.withSafe2 x).stage2 = s.stage2 := rfl
@[simp] theorem withSafe2_ignored1 (s : State) (x : Pin) : (s.withSafe2 x).ignored1 = s.ignored1 := rfl
@[simp] theorem withSafe2_ignored2 (s : State) (x : Pin) : (s.withSafe2 x).ignored2 = s.ignored2 := rfl
@[simp] theorem withSafe2_link (s : State) (x : Pin) : (s.withSafe2 x).link = s.link := rfl
@[simp] theorem withSafe2_port (s : State) (x : Pin) : (s.withSafe2 x).port = s.port := rfl
@[simp] theorem withSafe2_store (s : State) (x : Pin) : (s.withSafe2 x).store = s.store := rfl
@[simp] theorem withSafe2_spi (s : State) (x : Pin) : (s.withSafe2 x).spi = s.spi := rfl
@[simp] theorem withSafe2_sdo (s : State) (x : Pin) : (s.withSafe2 x).sdo = s.sdo := rfl
@[simp] theorem withSafe2_pending (s : State) (x : Pin) : (s.withSafe2 x).pending = s.pending := rfl
@[simp] theorem withCue1_phase (s : State) (x : CueInput) : (s.withCue1 x).phase = s.phase := rfl
@[simp] theorem withCue1_resetLow (s : State) (x : CueInput) : (s.withCue1 x).resetLow = s.resetLow := rfl
@[simp] theorem withCue1_startCause (s : State) (x : CueInput) : (s.withCue1 x).startCause = s.startCause := rfl
@[simp] theorem withCue1_circuits (s : State) (x : CueInput) : (s.withCue1 x).circuits = s.circuits := rfl
@[simp] theorem withCue1_slots (s : State) (x : CueInput) : (s.withCue1 x).slots = s.slots := rfl
@[simp] theorem withCue1_index (s : State) (x : CueInput) : (s.withCue1 x).index = s.index := rfl
@[simp] theorem withCue1_groups (s : State) (x : CueInput) : (s.withCue1 x).groups = s.groups := rfl
@[simp] theorem withCue1_scenes (s : State) (x : CueInput) : (s.withCue1 x).scenes = s.scenes := rfl
@[simp] theorem withCue1_mode (s : State) (x : CueInput) : (s.withCue1 x).mode = s.mode := rfl
@[simp] theorem withCue1_options (s : State) (x : CueInput) : (s.withCue1 x).options = s.options := rfl
@[simp] theorem withCue1_lineA (s : State) (x : CueInput) : (s.withCue1 x).lineA = s.lineA := rfl
@[simp] theorem withCue1_lineB (s : State) (x : CueInput) : (s.withCue1 x).lineB = s.lineB := rfl
@[simp] theorem withCue1_inputs (s : State) (x : CueInput) : (s.withCue1 x).inputs = s.inputs := rfl
@[simp] theorem withCue1_safe1 (s : State) (x : CueInput) : (s.withCue1 x).safe1 = s.safe1 := rfl
@[simp] theorem withCue1_safe2 (s : State) (x : CueInput) : (s.withCue1 x).safe2 = s.safe2 := rfl
@[simp] theorem withCue1_cue1 (s : State) (x : CueInput) : (s.withCue1 x).cue1 = x := rfl
@[simp] theorem withCue1_cue2 (s : State) (x : CueInput) : (s.withCue1 x).cue2 = s.cue2 := rfl
@[simp] theorem withCue1_settleSamples (s : State) (x : CueInput) : (s.withCue1 x).settleSamples = s.settleSamples := rfl
@[simp] theorem withCue1_stage1 (s : State) (x : CueInput) : (s.withCue1 x).stage1 = s.stage1 := rfl
@[simp] theorem withCue1_stage2 (s : State) (x : CueInput) : (s.withCue1 x).stage2 = s.stage2 := rfl
@[simp] theorem withCue1_ignored1 (s : State) (x : CueInput) : (s.withCue1 x).ignored1 = s.ignored1 := rfl
@[simp] theorem withCue1_ignored2 (s : State) (x : CueInput) : (s.withCue1 x).ignored2 = s.ignored2 := rfl
@[simp] theorem withCue1_link (s : State) (x : CueInput) : (s.withCue1 x).link = s.link := rfl
@[simp] theorem withCue1_port (s : State) (x : CueInput) : (s.withCue1 x).port = s.port := rfl
@[simp] theorem withCue1_store (s : State) (x : CueInput) : (s.withCue1 x).store = s.store := rfl
@[simp] theorem withCue1_spi (s : State) (x : CueInput) : (s.withCue1 x).spi = s.spi := rfl
@[simp] theorem withCue1_sdo (s : State) (x : CueInput) : (s.withCue1 x).sdo = s.sdo := rfl
@[simp] theorem withCue1_pending (s : State) (x : CueInput) : (s.withCue1 x).pending = s.pending := rfl
@[simp] theorem withCue2_phase (s : State) (x : CueInput) : (s.withCue2 x).phase = s.phase := rfl
@[simp] theorem withCue2_resetLow (s : State) (x : CueInput) : (s.withCue2 x).resetLow = s.resetLow := rfl
@[simp] theorem withCue2_startCause (s : State) (x : CueInput) : (s.withCue2 x).startCause = s.startCause := rfl
@[simp] theorem withCue2_circuits (s : State) (x : CueInput) : (s.withCue2 x).circuits = s.circuits := rfl
@[simp] theorem withCue2_slots (s : State) (x : CueInput) : (s.withCue2 x).slots = s.slots := rfl
@[simp] theorem withCue2_index (s : State) (x : CueInput) : (s.withCue2 x).index = s.index := rfl
@[simp] theorem withCue2_groups (s : State) (x : CueInput) : (s.withCue2 x).groups = s.groups := rfl
@[simp] theorem withCue2_scenes (s : State) (x : CueInput) : (s.withCue2 x).scenes = s.scenes := rfl
@[simp] theorem withCue2_mode (s : State) (x : CueInput) : (s.withCue2 x).mode = s.mode := rfl
@[simp] theorem withCue2_options (s : State) (x : CueInput) : (s.withCue2 x).options = s.options := rfl
@[simp] theorem withCue2_lineA (s : State) (x : CueInput) : (s.withCue2 x).lineA = s.lineA := rfl
@[simp] theorem withCue2_lineB (s : State) (x : CueInput) : (s.withCue2 x).lineB = s.lineB := rfl
@[simp] theorem withCue2_inputs (s : State) (x : CueInput) : (s.withCue2 x).inputs = s.inputs := rfl
@[simp] theorem withCue2_safe1 (s : State) (x : CueInput) : (s.withCue2 x).safe1 = s.safe1 := rfl
@[simp] theorem withCue2_safe2 (s : State) (x : CueInput) : (s.withCue2 x).safe2 = s.safe2 := rfl
@[simp] theorem withCue2_cue1 (s : State) (x : CueInput) : (s.withCue2 x).cue1 = s.cue1 := rfl
@[simp] theorem withCue2_cue2 (s : State) (x : CueInput) : (s.withCue2 x).cue2 = x := rfl
@[simp] theorem withCue2_settleSamples (s : State) (x : CueInput) : (s.withCue2 x).settleSamples = s.settleSamples := rfl
@[simp] theorem withCue2_stage1 (s : State) (x : CueInput) : (s.withCue2 x).stage1 = s.stage1 := rfl
@[simp] theorem withCue2_stage2 (s : State) (x : CueInput) : (s.withCue2 x).stage2 = s.stage2 := rfl
@[simp] theorem withCue2_ignored1 (s : State) (x : CueInput) : (s.withCue2 x).ignored1 = s.ignored1 := rfl
@[simp] theorem withCue2_ignored2 (s : State) (x : CueInput) : (s.withCue2 x).ignored2 = s.ignored2 := rfl
@[simp] theorem withCue2_link (s : State) (x : CueInput) : (s.withCue2 x).link = s.link := rfl
@[simp] theorem withCue2_port (s : State) (x : CueInput) : (s.withCue2 x).port = s.port := rfl
@[simp] theorem withCue2_store (s : State) (x : CueInput) : (s.withCue2 x).store = s.store := rfl
@[simp] theorem withCue2_spi (s : State) (x : CueInput) : (s.withCue2 x).spi = s.spi := rfl
@[simp] theorem withCue2_sdo (s : State) (x : CueInput) : (s.withCue2 x).sdo = s.sdo := rfl
@[simp] theorem withCue2_pending (s : State) (x : CueInput) : (s.withCue2 x).pending = s.pending := rfl
@[simp] theorem withSettleSamples_phase (s : State) (x : Nat) : (s.withSettleSamples x).phase = s.phase := rfl
@[simp] theorem withSettleSamples_resetLow (s : State) (x : Nat) : (s.withSettleSamples x).resetLow = s.resetLow := rfl
@[simp] theorem withSettleSamples_startCause (s : State) (x : Nat) : (s.withSettleSamples x).startCause = s.startCause := rfl
@[simp] theorem withSettleSamples_circuits (s : State) (x : Nat) : (s.withSettleSamples x).circuits = s.circuits := rfl
@[simp] theorem withSettleSamples_slots (s : State) (x : Nat) : (s.withSettleSamples x).slots = s.slots := rfl
@[simp] theorem withSettleSamples_index (s : State) (x : Nat) : (s.withSettleSamples x).index = s.index := rfl
@[simp] theorem withSettleSamples_groups (s : State) (x : Nat) : (s.withSettleSamples x).groups = s.groups := rfl
@[simp] theorem withSettleSamples_scenes (s : State) (x : Nat) : (s.withSettleSamples x).scenes = s.scenes := rfl
@[simp] theorem withSettleSamples_mode (s : State) (x : Nat) : (s.withSettleSamples x).mode = s.mode := rfl
@[simp] theorem withSettleSamples_options (s : State) (x : Nat) : (s.withSettleSamples x).options = s.options := rfl
@[simp] theorem withSettleSamples_lineA (s : State) (x : Nat) : (s.withSettleSamples x).lineA = s.lineA := rfl
@[simp] theorem withSettleSamples_lineB (s : State) (x : Nat) : (s.withSettleSamples x).lineB = s.lineB := rfl
@[simp] theorem withSettleSamples_inputs (s : State) (x : Nat) : (s.withSettleSamples x).inputs = s.inputs := rfl
@[simp] theorem withSettleSamples_safe1 (s : State) (x : Nat) : (s.withSettleSamples x).safe1 = s.safe1 := rfl
@[simp] theorem withSettleSamples_safe2 (s : State) (x : Nat) : (s.withSettleSamples x).safe2 = s.safe2 := rfl
@[simp] theorem withSettleSamples_cue1 (s : State) (x : Nat) : (s.withSettleSamples x).cue1 = s.cue1 := rfl
@[simp] theorem withSettleSamples_cue2 (s : State) (x : Nat) : (s.withSettleSamples x).cue2 = s.cue2 := rfl
@[simp] theorem withSettleSamples_settleSamples (s : State) (x : Nat) : (s.withSettleSamples x).settleSamples = x := rfl
@[simp] theorem withSettleSamples_stage1 (s : State) (x : Nat) : (s.withSettleSamples x).stage1 = s.stage1 := rfl
@[simp] theorem withSettleSamples_stage2 (s : State) (x : Nat) : (s.withSettleSamples x).stage2 = s.stage2 := rfl
@[simp] theorem withSettleSamples_ignored1 (s : State) (x : Nat) : (s.withSettleSamples x).ignored1 = s.ignored1 := rfl
@[simp] theorem withSettleSamples_ignored2 (s : State) (x : Nat) : (s.withSettleSamples x).ignored2 = s.ignored2 := rfl
@[simp] theorem withSettleSamples_link (s : State) (x : Nat) : (s.withSettleSamples x).link = s.link := rfl
@[simp] theorem withSettleSamples_port (s : State) (x : Nat) : (s.withSettleSamples x).port = s.port := rfl
@[simp] theorem withSettleSamples_store (s : State) (x : Nat) : (s.withSettleSamples x).store = s.store := rfl
@[simp] theorem withSettleSamples_spi (s : State) (x : Nat) : (s.withSettleSamples x).spi = s.spi := rfl
@[simp] theorem withSettleSamples_sdo (s : State) (x : Nat) : (s.withSettleSamples x).sdo = s.sdo := rfl
@[simp] theorem withSettleSamples_pending (s : State) (x : Nat) : (s.withSettleSamples x).pending = s.pending := rfl
@[simp] theorem withStage1_phase (s : State) (x : Stage) : (s.withStage1 x).phase = s.phase := rfl
@[simp] theorem withStage1_resetLow (s : State) (x : Stage) : (s.withStage1 x).resetLow = s.resetLow := rfl
@[simp] theorem withStage1_startCause (s : State) (x : Stage) : (s.withStage1 x).startCause = s.startCause := rfl
@[simp] theorem withStage1_circuits (s : State) (x : Stage) : (s.withStage1 x).circuits = s.circuits := rfl
@[simp] theorem withStage1_slots (s : State) (x : Stage) : (s.withStage1 x).slots = s.slots := rfl
@[simp] theorem withStage1_index (s : State) (x : Stage) : (s.withStage1 x).index = s.index := rfl
@[simp] theorem withStage1_groups (s : State) (x : Stage) : (s.withStage1 x).groups = s.groups := rfl
@[simp] theorem withStage1_scenes (s : State) (x : Stage) : (s.withStage1 x).scenes = s.scenes := rfl
@[simp] theorem withStage1_mode (s : State) (x : Stage) : (s.withStage1 x).mode = s.mode := rfl
@[simp] theorem withStage1_options (s : State) (x : Stage) : (s.withStage1 x).options = s.options := rfl
@[simp] theorem withStage1_lineA (s : State) (x : Stage) : (s.withStage1 x).lineA = s.lineA := rfl
@[simp] theorem withStage1_lineB (s : State) (x : Stage) : (s.withStage1 x).lineB = s.lineB := rfl
@[simp] theorem withStage1_inputs (s : State) (x : Stage) : (s.withStage1 x).inputs = s.inputs := rfl
@[simp] theorem withStage1_safe1 (s : State) (x : Stage) : (s.withStage1 x).safe1 = s.safe1 := rfl
@[simp] theorem withStage1_safe2 (s : State) (x : Stage) : (s.withStage1 x).safe2 = s.safe2 := rfl
@[simp] theorem withStage1_cue1 (s : State) (x : Stage) : (s.withStage1 x).cue1 = s.cue1 := rfl
@[simp] theorem withStage1_cue2 (s : State) (x : Stage) : (s.withStage1 x).cue2 = s.cue2 := rfl
@[simp] theorem withStage1_settleSamples (s : State) (x : Stage) : (s.withStage1 x).settleSamples = s.settleSamples := rfl
@[simp] theorem withStage1_stage1 (s : State) (x : Stage) : (s.withStage1 x).stage1 = x := rfl
@[simp] theorem withStage1_stage2 (s : State) (x : Stage) : (s.withStage1 x).stage2 = s.stage2 := rfl
@[simp] theorem withStage1_ignored1 (s : State) (x : Stage) : (s.withStage1 x).ignored1 = s.ignored1 := rfl
@[simp] theorem withStage1_ignored2 (s : State) (x : Stage) : (s.withStage1 x).ignored2 = s.ignored2 := rfl
@[simp] theorem withStage1_link (s : State) (x : Stage) : (s.withStage1 x).link = s.link := rfl
@[simp] theorem withStage1_port (s : State) (x : Stage) : (s.withStage1 x).port = s.port := rfl
@[simp] theorem withStage1_store (s : State) (x : Stage) : (s.withStage1 x).store = s.store := rfl
@[simp] theorem withStage1_spi (s : State) (x : Stage) : (s.withStage1 x).spi = s.spi := rfl
@[simp] theorem withStage1_sdo (s : State) (x : Stage) : (s.withStage1 x).sdo = s.sdo := rfl
@[simp] theorem withStage1_pending (s : State) (x : Stage) : (s.withStage1 x).pending = s.pending := rfl
@[simp] theorem withStage2_phase (s : State) (x : Stage) : (s.withStage2 x).phase = s.phase := rfl
@[simp] theorem withStage2_resetLow (s : State) (x : Stage) : (s.withStage2 x).resetLow = s.resetLow := rfl
@[simp] theorem withStage2_startCause (s : State) (x : Stage) : (s.withStage2 x).startCause = s.startCause := rfl
@[simp] theorem withStage2_circuits (s : State) (x : Stage) : (s.withStage2 x).circuits = s.circuits := rfl
@[simp] theorem withStage2_slots (s : State) (x : Stage) : (s.withStage2 x).slots = s.slots := rfl
@[simp] theorem withStage2_index (s : State) (x : Stage) : (s.withStage2 x).index = s.index := rfl
@[simp] theorem withStage2_groups (s : State) (x : Stage) : (s.withStage2 x).groups = s.groups := rfl
@[simp] theorem withStage2_scenes (s : State) (x : Stage) : (s.withStage2 x).scenes = s.scenes := rfl
@[simp] theorem withStage2_mode (s : State) (x : Stage) : (s.withStage2 x).mode = s.mode := rfl
@[simp] theorem withStage2_options (s : State) (x : Stage) : (s.withStage2 x).options = s.options := rfl
@[simp] theorem withStage2_lineA (s : State) (x : Stage) : (s.withStage2 x).lineA = s.lineA := rfl
@[simp] theorem withStage2_lineB (s : State) (x : Stage) : (s.withStage2 x).lineB = s.lineB := rfl
@[simp] theorem withStage2_inputs (s : State) (x : Stage) : (s.withStage2 x).inputs = s.inputs := rfl
@[simp] theorem withStage2_safe1 (s : State) (x : Stage) : (s.withStage2 x).safe1 = s.safe1 := rfl
@[simp] theorem withStage2_safe2 (s : State) (x : Stage) : (s.withStage2 x).safe2 = s.safe2 := rfl
@[simp] theorem withStage2_cue1 (s : State) (x : Stage) : (s.withStage2 x).cue1 = s.cue1 := rfl
@[simp] theorem withStage2_cue2 (s : State) (x : Stage) : (s.withStage2 x).cue2 = s.cue2 := rfl
@[simp] theorem withStage2_settleSamples (s : State) (x : Stage) : (s.withStage2 x).settleSamples = s.settleSamples := rfl
@[simp] theorem withStage2_stage1 (s : State) (x : Stage) : (s.withStage2 x).stage1 = s.stage1 := rfl
@[simp] theorem withStage2_stage2 (s : State) (x : Stage) : (s.withStage2 x).stage2 = x := rfl
@[simp] theorem withStage2_ignored1 (s : State) (x : Stage) : (s.withStage2 x).ignored1 = s.ignored1 := rfl
@[simp] theorem withStage2_ignored2 (s : State) (x : Stage) : (s.withStage2 x).ignored2 = s.ignored2 := rfl
@[simp] theorem withStage2_link (s : State) (x : Stage) : (s.withStage2 x).link = s.link := rfl
@[simp] theorem withStage2_port (s : State) (x : Stage) : (s.withStage2 x).port = s.port := rfl
@[simp] theorem withStage2_store (s : State) (x : Stage) : (s.withStage2 x).store = s.store := rfl
@[simp] theorem withStage2_spi (s : State) (x : Stage) : (s.withStage2 x).spi = s.spi := rfl
@[simp] theorem withStage2_sdo (s : State) (x : Stage) : (s.withStage2 x).sdo = s.sdo := rfl
@[simp] theorem withStage2_pending (s : State) (x : Stage) : (s.withStage2 x).pending = s.pending := rfl
@[simp] theorem withIgnored1_phase (s : State) (x : Nat) : (s.withIgnored1 x).phase = s.phase := rfl
@[simp] theorem withIgnored1_resetLow (s : State) (x : Nat) : (s.withIgnored1 x).resetLow = s.resetLow := rfl
@[simp] theorem withIgnored1_startCause (s : State) (x : Nat) : (s.withIgnored1 x).startCause = s.startCause := rfl
@[simp] theorem withIgnored1_circuits (s : State) (x : Nat) : (s.withIgnored1 x).circuits = s.circuits := rfl
@[simp] theorem withIgnored1_slots (s : State) (x : Nat) : (s.withIgnored1 x).slots = s.slots := rfl
@[simp] theorem withIgnored1_index (s : State) (x : Nat) : (s.withIgnored1 x).index = s.index := rfl
@[simp] theorem withIgnored1_groups (s : State) (x : Nat) : (s.withIgnored1 x).groups = s.groups := rfl
@[simp] theorem withIgnored1_scenes (s : State) (x : Nat) : (s.withIgnored1 x).scenes = s.scenes := rfl
@[simp] theorem withIgnored1_mode (s : State) (x : Nat) : (s.withIgnored1 x).mode = s.mode := rfl
@[simp] theorem withIgnored1_options (s : State) (x : Nat) : (s.withIgnored1 x).options = s.options := rfl
@[simp] theorem withIgnored1_lineA (s : State) (x : Nat) : (s.withIgnored1 x).lineA = s.lineA := rfl
@[simp] theorem withIgnored1_lineB (s : State) (x : Nat) : (s.withIgnored1 x).lineB = s.lineB := rfl
@[simp] theorem withIgnored1_inputs (s : State) (x : Nat) : (s.withIgnored1 x).inputs = s.inputs := rfl
@[simp] theorem withIgnored1_safe1 (s : State) (x : Nat) : (s.withIgnored1 x).safe1 = s.safe1 := rfl
@[simp] theorem withIgnored1_safe2 (s : State) (x : Nat) : (s.withIgnored1 x).safe2 = s.safe2 := rfl
@[simp] theorem withIgnored1_cue1 (s : State) (x : Nat) : (s.withIgnored1 x).cue1 = s.cue1 := rfl
@[simp] theorem withIgnored1_cue2 (s : State) (x : Nat) : (s.withIgnored1 x).cue2 = s.cue2 := rfl
@[simp] theorem withIgnored1_settleSamples (s : State) (x : Nat) : (s.withIgnored1 x).settleSamples = s.settleSamples := rfl
@[simp] theorem withIgnored1_stage1 (s : State) (x : Nat) : (s.withIgnored1 x).stage1 = s.stage1 := rfl
@[simp] theorem withIgnored1_stage2 (s : State) (x : Nat) : (s.withIgnored1 x).stage2 = s.stage2 := rfl
@[simp] theorem withIgnored1_ignored1 (s : State) (x : Nat) : (s.withIgnored1 x).ignored1 = x := rfl
@[simp] theorem withIgnored1_ignored2 (s : State) (x : Nat) : (s.withIgnored1 x).ignored2 = s.ignored2 := rfl
@[simp] theorem withIgnored1_link (s : State) (x : Nat) : (s.withIgnored1 x).link = s.link := rfl
@[simp] theorem withIgnored1_port (s : State) (x : Nat) : (s.withIgnored1 x).port = s.port := rfl
@[simp] theorem withIgnored1_store (s : State) (x : Nat) : (s.withIgnored1 x).store = s.store := rfl
@[simp] theorem withIgnored1_spi (s : State) (x : Nat) : (s.withIgnored1 x).spi = s.spi := rfl
@[simp] theorem withIgnored1_sdo (s : State) (x : Nat) : (s.withIgnored1 x).sdo = s.sdo := rfl
@[simp] theorem withIgnored1_pending (s : State) (x : Nat) : (s.withIgnored1 x).pending = s.pending := rfl
@[simp] theorem withIgnored2_phase (s : State) (x : Nat) : (s.withIgnored2 x).phase = s.phase := rfl
@[simp] theorem withIgnored2_resetLow (s : State) (x : Nat) : (s.withIgnored2 x).resetLow = s.resetLow := rfl
@[simp] theorem withIgnored2_startCause (s : State) (x : Nat) : (s.withIgnored2 x).startCause = s.startCause := rfl
@[simp] theorem withIgnored2_circuits (s : State) (x : Nat) : (s.withIgnored2 x).circuits = s.circuits := rfl
@[simp] theorem withIgnored2_slots (s : State) (x : Nat) : (s.withIgnored2 x).slots = s.slots := rfl
@[simp] theorem withIgnored2_index (s : State) (x : Nat) : (s.withIgnored2 x).index = s.index := rfl
@[simp] theorem withIgnored2_groups (s : State) (x : Nat) : (s.withIgnored2 x).groups = s.groups := rfl
@[simp] theorem withIgnored2_scenes (s : State) (x : Nat) : (s.withIgnored2 x).scenes = s.scenes := rfl
@[simp] theorem withIgnored2_mode (s : State) (x : Nat) : (s.withIgnored2 x).mode = s.mode := rfl
@[simp] theorem withIgnored2_options (s : State) (x : Nat) : (s.withIgnored2 x).options = s.options := rfl
@[simp] theorem withIgnored2_lineA (s : State) (x : Nat) : (s.withIgnored2 x).lineA = s.lineA := rfl
@[simp] theorem withIgnored2_lineB (s : State) (x : Nat) : (s.withIgnored2 x).lineB = s.lineB := rfl
@[simp] theorem withIgnored2_inputs (s : State) (x : Nat) : (s.withIgnored2 x).inputs = s.inputs := rfl
@[simp] theorem withIgnored2_safe1 (s : State) (x : Nat) : (s.withIgnored2 x).safe1 = s.safe1 := rfl
@[simp] theorem withIgnored2_safe2 (s : State) (x : Nat) : (s.withIgnored2 x).safe2 = s.safe2 := rfl
@[simp] theorem withIgnored2_cue1 (s : State) (x : Nat) : (s.withIgnored2 x).cue1 = s.cue1 := rfl
@[simp] theorem withIgnored2_cue2 (s : State) (x : Nat) : (s.withIgnored2 x).cue2 = s.cue2 := rfl
@[simp] theorem withIgnored2_settleSamples (s : State) (x : Nat) : (s.withIgnored2 x).settleSamples = s.settleSamples := rfl
@[simp] theorem withIgnored2_stage1 (s : State) (x : Nat) : (s.withIgnored2 x).stage1 = s.stage1 := rfl
@[simp] theorem withIgnored2_stage2 (s : State) (x : Nat) : (s.withIgnored2 x).stage2 = s.stage2 := rfl
@[simp] theorem withIgnored2_ignored1 (s : State) (x : Nat) : (s.withIgnored2 x).ignored1 = s.ignored1 := rfl
@[simp] theorem withIgnored2_ignored2 (s : State) (x : Nat) : (s.withIgnored2 x).ignored2 = x := rfl
@[simp] theorem withIgnored2_link (s : State) (x : Nat) : (s.withIgnored2 x).link = s.link := rfl
@[simp] theorem withIgnored2_port (s : State) (x : Nat) : (s.withIgnored2 x).port = s.port := rfl
@[simp] theorem withIgnored2_store (s : State) (x : Nat) : (s.withIgnored2 x).store = s.store := rfl
@[simp] theorem withIgnored2_spi (s : State) (x : Nat) : (s.withIgnored2 x).spi = s.spi := rfl
@[simp] theorem withIgnored2_sdo (s : State) (x : Nat) : (s.withIgnored2 x).sdo = s.sdo := rfl
@[simp] theorem withIgnored2_pending (s : State) (x : Nat) : (s.withIgnored2 x).pending = s.pending := rfl
@[simp] theorem withLink_phase (s : State) (x : Link) : (s.withLink x).phase = s.phase := rfl
@[simp] theorem withLink_resetLow (s : State) (x : Link) : (s.withLink x).resetLow = s.resetLow := rfl
@[simp] theorem withLink_startCause (s : State) (x : Link) : (s.withLink x).startCause = s.startCause := rfl
@[simp] theorem withLink_circuits (s : State) (x : Link) : (s.withLink x).circuits = s.circuits := rfl
@[simp] theorem withLink_slots (s : State) (x : Link) : (s.withLink x).slots = s.slots := rfl
@[simp] theorem withLink_index (s : State) (x : Link) : (s.withLink x).index = s.index := rfl
@[simp] theorem withLink_groups (s : State) (x : Link) : (s.withLink x).groups = s.groups := rfl
@[simp] theorem withLink_scenes (s : State) (x : Link) : (s.withLink x).scenes = s.scenes := rfl
@[simp] theorem withLink_mode (s : State) (x : Link) : (s.withLink x).mode = s.mode := rfl
@[simp] theorem withLink_options (s : State) (x : Link) : (s.withLink x).options = s.options := rfl
@[simp] theorem withLink_lineA (s : State) (x : Link) : (s.withLink x).lineA = s.lineA := rfl
@[simp] theorem withLink_lineB (s : State) (x : Link) : (s.withLink x).lineB = s.lineB := rfl
@[simp] theorem withLink_inputs (s : State) (x : Link) : (s.withLink x).inputs = s.inputs := rfl
@[simp] theorem withLink_safe1 (s : State) (x : Link) : (s.withLink x).safe1 = s.safe1 := rfl
@[simp] theorem withLink_safe2 (s : State) (x : Link) : (s.withLink x).safe2 = s.safe2 := rfl
@[simp] theorem withLink_cue1 (s : State) (x : Link) : (s.withLink x).cue1 = s.cue1 := rfl
@[simp] theorem withLink_cue2 (s : State) (x : Link) : (s.withLink x).cue2 = s.cue2 := rfl
@[simp] theorem withLink_settleSamples (s : State) (x : Link) : (s.withLink x).settleSamples = s.settleSamples := rfl
@[simp] theorem withLink_stage1 (s : State) (x : Link) : (s.withLink x).stage1 = s.stage1 := rfl
@[simp] theorem withLink_stage2 (s : State) (x : Link) : (s.withLink x).stage2 = s.stage2 := rfl
@[simp] theorem withLink_ignored1 (s : State) (x : Link) : (s.withLink x).ignored1 = s.ignored1 := rfl
@[simp] theorem withLink_ignored2 (s : State) (x : Link) : (s.withLink x).ignored2 = s.ignored2 := rfl
@[simp] theorem withLink_link (s : State) (x : Link) : (s.withLink x).link = x := rfl
@[simp] theorem withLink_port (s : State) (x : Link) : (s.withLink x).port = s.port := rfl
@[simp] theorem withLink_store (s : State) (x : Link) : (s.withLink x).store = s.store := rfl
@[simp] theorem withLink_spi (s : State) (x : Link) : (s.withLink x).spi = s.spi := rfl
@[simp] theorem withLink_sdo (s : State) (x : Link) : (s.withLink x).sdo = s.sdo := rfl
@[simp] theorem withLink_pending (s : State) (x : Link) : (s.withLink x).pending = s.pending := rfl
@[simp] theorem withPort_phase (s : State) (x : Port) : (s.withPort x).phase = s.phase := rfl
@[simp] theorem withPort_resetLow (s : State) (x : Port) : (s.withPort x).resetLow = s.resetLow := rfl
@[simp] theorem withPort_startCause (s : State) (x : Port) : (s.withPort x).startCause = s.startCause := rfl
@[simp] theorem withPort_circuits (s : State) (x : Port) : (s.withPort x).circuits = s.circuits := rfl
@[simp] theorem withPort_slots (s : State) (x : Port) : (s.withPort x).slots = s.slots := rfl
@[simp] theorem withPort_index (s : State) (x : Port) : (s.withPort x).index = s.index := rfl
@[simp] theorem withPort_groups (s : State) (x : Port) : (s.withPort x).groups = s.groups := rfl
@[simp] theorem withPort_scenes (s : State) (x : Port) : (s.withPort x).scenes = s.scenes := rfl
@[simp] theorem withPort_mode (s : State) (x : Port) : (s.withPort x).mode = s.mode := rfl
@[simp] theorem withPort_options (s : State) (x : Port) : (s.withPort x).options = s.options := rfl
@[simp] theorem withPort_lineA (s : State) (x : Port) : (s.withPort x).lineA = s.lineA := rfl
@[simp] theorem withPort_lineB (s : State) (x : Port) : (s.withPort x).lineB = s.lineB := rfl
@[simp] theorem withPort_inputs (s : State) (x : Port) : (s.withPort x).inputs = s.inputs := rfl
@[simp] theorem withPort_safe1 (s : State) (x : Port) : (s.withPort x).safe1 = s.safe1 := rfl
@[simp] theorem withPort_safe2 (s : State) (x : Port) : (s.withPort x).safe2 = s.safe2 := rfl
@[simp] theorem withPort_cue1 (s : State) (x : Port) : (s.withPort x).cue1 = s.cue1 := rfl
@[simp] theorem withPort_cue2 (s : State) (x : Port) : (s.withPort x).cue2 = s.cue2 := rfl
@[simp] theorem withPort_settleSamples (s : State) (x : Port) : (s.withPort x).settleSamples = s.settleSamples := rfl
@[simp] theorem withPort_stage1 (s : State) (x : Port) : (s.withPort x).stage1 = s.stage1 := rfl
@[simp] theorem withPort_stage2 (s : State) (x : Port) : (s.withPort x).stage2 = s.stage2 := rfl
@[simp] theorem withPort_ignored1 (s : State) (x : Port) : (s.withPort x).ignored1 = s.ignored1 := rfl
@[simp] theorem withPort_ignored2 (s : State) (x : Port) : (s.withPort x).ignored2 = s.ignored2 := rfl
@[simp] theorem withPort_link (s : State) (x : Port) : (s.withPort x).link = s.link := rfl
@[simp] theorem withPort_port (s : State) (x : Port) : (s.withPort x).port = x := rfl
@[simp] theorem withPort_store (s : State) (x : Port) : (s.withPort x).store = s.store := rfl
@[simp] theorem withPort_spi (s : State) (x : Port) : (s.withPort x).spi = s.spi := rfl
@[simp] theorem withPort_sdo (s : State) (x : Port) : (s.withPort x).sdo = s.sdo := rfl
@[simp] theorem withPort_pending (s : State) (x : Port) : (s.withPort x).pending = s.pending := rfl
@[simp] theorem withStore_phase (s : State) (x : Store) : (s.withStore x).phase = s.phase := rfl
@[simp] theorem withStore_resetLow (s : State) (x : Store) : (s.withStore x).resetLow = s.resetLow := rfl
@[simp] theorem withStore_startCause (s : State) (x : Store) : (s.withStore x).startCause = s.startCause := rfl
@[simp] theorem withStore_circuits (s : State) (x : Store) : (s.withStore x).circuits = s.circuits := rfl
@[simp] theorem withStore_slots (s : State) (x : Store) : (s.withStore x).slots = s.slots := rfl
@[simp] theorem withStore_index (s : State) (x : Store) : (s.withStore x).index = s.index := rfl
@[simp] theorem withStore_groups (s : State) (x : Store) : (s.withStore x).groups = s.groups := rfl
@[simp] theorem withStore_scenes (s : State) (x : Store) : (s.withStore x).scenes = s.scenes := rfl
@[simp] theorem withStore_mode (s : State) (x : Store) : (s.withStore x).mode = s.mode := rfl
@[simp] theorem withStore_options (s : State) (x : Store) : (s.withStore x).options = s.options := rfl
@[simp] theorem withStore_lineA (s : State) (x : Store) : (s.withStore x).lineA = s.lineA := rfl
@[simp] theorem withStore_lineB (s : State) (x : Store) : (s.withStore x).lineB = s.lineB := rfl
@[simp] theorem withStore_inputs (s : State) (x : Store) : (s.withStore x).inputs = s.inputs := rfl
@[simp] theorem withStore_safe1 (s : State) (x : Store) : (s.withStore x).safe1 = s.safe1 := rfl
@[simp] theorem withStore_safe2 (s : State) (x : Store) : (s.withStore x).safe2 = s.safe2 := rfl
@[simp] theorem withStore_cue1 (s : State) (x : Store) : (s.withStore x).cue1 = s.cue1 := rfl
@[simp] theorem withStore_cue2 (s : State) (x : Store) : (s.withStore x).cue2 = s.cue2 := rfl
@[simp] theorem withStore_settleSamples (s : State) (x : Store) : (s.withStore x).settleSamples = s.settleSamples := rfl
@[simp] theorem withStore_stage1 (s : State) (x : Store) : (s.withStore x).stage1 = s.stage1 := rfl
@[simp] theorem withStore_stage2 (s : State) (x : Store) : (s.withStore x).stage2 = s.stage2 := rfl
@[simp] theorem withStore_ignored1 (s : State) (x : Store) : (s.withStore x).ignored1 = s.ignored1 := rfl
@[simp] theorem withStore_ignored2 (s : State) (x : Store) : (s.withStore x).ignored2 = s.ignored2 := rfl
@[simp] theorem withStore_link (s : State) (x : Store) : (s.withStore x).link = s.link := rfl
@[simp] theorem withStore_port (s : State) (x : Store) : (s.withStore x).port = s.port := rfl
@[simp] theorem withStore_store (s : State) (x : Store) : (s.withStore x).store = x := rfl
@[simp] theorem withStore_spi (s : State) (x : Store) : (s.withStore x).spi = s.spi := rfl
@[simp] theorem withStore_sdo (s : State) (x : Store) : (s.withStore x).sdo = s.sdo := rfl
@[simp] theorem withStore_pending (s : State) (x : Store) : (s.withStore x).pending = s.pending := rfl
@[simp] theorem withSpi_phase (s : State) (x : Option Transfer) : (s.withSpi x).phase = s.phase := rfl
@[simp] theorem withSpi_resetLow (s : State) (x : Option Transfer) : (s.withSpi x).resetLow = s.resetLow := rfl
@[simp] theorem withSpi_startCause (s : State) (x : Option Transfer) : (s.withSpi x).startCause = s.startCause := rfl
@[simp] theorem withSpi_circuits (s : State) (x : Option Transfer) : (s.withSpi x).circuits = s.circuits := rfl
@[simp] theorem withSpi_slots (s : State) (x : Option Transfer) : (s.withSpi x).slots = s.slots := rfl
@[simp] theorem withSpi_index (s : State) (x : Option Transfer) : (s.withSpi x).index = s.index := rfl
@[simp] theorem withSpi_groups (s : State) (x : Option Transfer) : (s.withSpi x).groups = s.groups := rfl
@[simp] theorem withSpi_scenes (s : State) (x : Option Transfer) : (s.withSpi x).scenes = s.scenes := rfl
@[simp] theorem withSpi_mode (s : State) (x : Option Transfer) : (s.withSpi x).mode = s.mode := rfl
@[simp] theorem withSpi_options (s : State) (x : Option Transfer) : (s.withSpi x).options = s.options := rfl
@[simp] theorem withSpi_lineA (s : State) (x : Option Transfer) : (s.withSpi x).lineA = s.lineA := rfl
@[simp] theorem withSpi_lineB (s : State) (x : Option Transfer) : (s.withSpi x).lineB = s.lineB := rfl
@[simp] theorem withSpi_inputs (s : State) (x : Option Transfer) : (s.withSpi x).inputs = s.inputs := rfl
@[simp] theorem withSpi_safe1 (s : State) (x : Option Transfer) : (s.withSpi x).safe1 = s.safe1 := rfl
@[simp] theorem withSpi_safe2 (s : State) (x : Option Transfer) : (s.withSpi x).safe2 = s.safe2 := rfl
@[simp] theorem withSpi_cue1 (s : State) (x : Option Transfer) : (s.withSpi x).cue1 = s.cue1 := rfl
@[simp] theorem withSpi_cue2 (s : State) (x : Option Transfer) : (s.withSpi x).cue2 = s.cue2 := rfl
@[simp] theorem withSpi_settleSamples (s : State) (x : Option Transfer) : (s.withSpi x).settleSamples = s.settleSamples := rfl
@[simp] theorem withSpi_stage1 (s : State) (x : Option Transfer) : (s.withSpi x).stage1 = s.stage1 := rfl
@[simp] theorem withSpi_stage2 (s : State) (x : Option Transfer) : (s.withSpi x).stage2 = s.stage2 := rfl
@[simp] theorem withSpi_ignored1 (s : State) (x : Option Transfer) : (s.withSpi x).ignored1 = s.ignored1 := rfl
@[simp] theorem withSpi_ignored2 (s : State) (x : Option Transfer) : (s.withSpi x).ignored2 = s.ignored2 := rfl
@[simp] theorem withSpi_link (s : State) (x : Option Transfer) : (s.withSpi x).link = s.link := rfl
@[simp] theorem withSpi_port (s : State) (x : Option Transfer) : (s.withSpi x).port = s.port := rfl
@[simp] theorem withSpi_store (s : State) (x : Option Transfer) : (s.withSpi x).store = s.store := rfl
@[simp] theorem withSpi_spi (s : State) (x : Option Transfer) : (s.withSpi x).spi = x := rfl
@[simp] theorem withSpi_sdo (s : State) (x : Option Transfer) : (s.withSpi x).sdo = s.sdo := rfl
@[simp] theorem withSpi_pending (s : State) (x : Option Transfer) : (s.withSpi x).pending = s.pending := rfl
@[simp] theorem withSdo_phase (s : State) (x : List Bool) : (s.withSdo x).phase = s.phase := rfl
@[simp] theorem withSdo_resetLow (s : State) (x : List Bool) : (s.withSdo x).resetLow = s.resetLow := rfl
@[simp] theorem withSdo_startCause (s : State) (x : List Bool) : (s.withSdo x).startCause = s.startCause := rfl
@[simp] theorem withSdo_circuits (s : State) (x : List Bool) : (s.withSdo x).circuits = s.circuits := rfl
@[simp] theorem withSdo_slots (s : State) (x : List Bool) : (s.withSdo x).slots = s.slots := rfl
@[simp] theorem withSdo_index (s : State) (x : List Bool) : (s.withSdo x).index = s.index := rfl
@[simp] theorem withSdo_groups (s : State) (x : List Bool) : (s.withSdo x).groups = s.groups := rfl
@[simp] theorem withSdo_scenes (s : State) (x : List Bool) : (s.withSdo x).scenes = s.scenes := rfl
@[simp] theorem withSdo_mode (s : State) (x : List Bool) : (s.withSdo x).mode = s.mode := rfl
@[simp] theorem withSdo_options (s : State) (x : List Bool) : (s.withSdo x).options = s.options := rfl
@[simp] theorem withSdo_lineA (s : State) (x : List Bool) : (s.withSdo x).lineA = s.lineA := rfl
@[simp] theorem withSdo_lineB (s : State) (x : List Bool) : (s.withSdo x).lineB = s.lineB := rfl
@[simp] theorem withSdo_inputs (s : State) (x : List Bool) : (s.withSdo x).inputs = s.inputs := rfl
@[simp] theorem withSdo_safe1 (s : State) (x : List Bool) : (s.withSdo x).safe1 = s.safe1 := rfl
@[simp] theorem withSdo_safe2 (s : State) (x : List Bool) : (s.withSdo x).safe2 = s.safe2 := rfl
@[simp] theorem withSdo_cue1 (s : State) (x : List Bool) : (s.withSdo x).cue1 = s.cue1 := rfl
@[simp] theorem withSdo_cue2 (s : State) (x : List Bool) : (s.withSdo x).cue2 = s.cue2 := rfl
@[simp] theorem withSdo_settleSamples (s : State) (x : List Bool) : (s.withSdo x).settleSamples = s.settleSamples := rfl
@[simp] theorem withSdo_stage1 (s : State) (x : List Bool) : (s.withSdo x).stage1 = s.stage1 := rfl
@[simp] theorem withSdo_stage2 (s : State) (x : List Bool) : (s.withSdo x).stage2 = s.stage2 := rfl
@[simp] theorem withSdo_ignored1 (s : State) (x : List Bool) : (s.withSdo x).ignored1 = s.ignored1 := rfl
@[simp] theorem withSdo_ignored2 (s : State) (x : List Bool) : (s.withSdo x).ignored2 = s.ignored2 := rfl
@[simp] theorem withSdo_link (s : State) (x : List Bool) : (s.withSdo x).link = s.link := rfl
@[simp] theorem withSdo_port (s : State) (x : List Bool) : (s.withSdo x).port = s.port := rfl
@[simp] theorem withSdo_store (s : State) (x : List Bool) : (s.withSdo x).store = s.store := rfl
@[simp] theorem withSdo_spi (s : State) (x : List Bool) : (s.withSdo x).spi = s.spi := rfl
@[simp] theorem withSdo_sdo (s : State) (x : List Bool) : (s.withSdo x).sdo = x := rfl
@[simp] theorem withSdo_pending (s : State) (x : List Bool) : (s.withSdo x).pending = s.pending := rfl
@[simp] theorem withPending_phase (s : State) (x : List Instr) : (s.withPending x).phase = s.phase := rfl
@[simp] theorem withPending_resetLow (s : State) (x : List Instr) : (s.withPending x).resetLow = s.resetLow := rfl
@[simp] theorem withPending_startCause (s : State) (x : List Instr) : (s.withPending x).startCause = s.startCause := rfl
@[simp] theorem withPending_circuits (s : State) (x : List Instr) : (s.withPending x).circuits = s.circuits := rfl
@[simp] theorem withPending_slots (s : State) (x : List Instr) : (s.withPending x).slots = s.slots := rfl
@[simp] theorem withPending_index (s : State) (x : List Instr) : (s.withPending x).index = s.index := rfl
@[simp] theorem withPending_groups (s : State) (x : List Instr) : (s.withPending x).groups = s.groups := rfl
@[simp] theorem withPending_scenes (s : State) (x : List Instr) : (s.withPending x).scenes = s.scenes := rfl
@[simp] theorem withPending_mode (s : State) (x : List Instr) : (s.withPending x).mode = s.mode := rfl
@[simp] theorem withPending_options (s : State) (x : List Instr) : (s.withPending x).options = s.options := rfl
@[simp] theorem withPending_lineA (s : State) (x : List Instr) : (s.withPending x).lineA = s.lineA := rfl
@[simp] theorem withPending_lineB (s : State) (x : List Instr) : (s.withPending x).lineB = s.lineB := rfl
@[simp] theorem withPending_inputs (s : State) (x : List Instr) : (s.withPending x).inputs = s.inputs := rfl
@[simp] theorem withPending_safe1 (s : State) (x : List Instr) : (s.withPending x).safe1 = s.safe1 := rfl
@[simp] theorem withPending_safe2 (s : State) (x : List Instr) : (s.withPending x).safe2 = s.safe2 := rfl
@[simp] theorem withPending_cue1 (s : State) (x : List Instr) : (s.withPending x).cue1 = s.cue1 := rfl
@[simp] theorem withPending_cue2 (s : State) (x : List Instr) : (s.withPending x).cue2 = s.cue2 := rfl
@[simp] theorem withPending_settleSamples (s : State) (x : List Instr) : (s.withPending x).settleSamples = s.settleSamples := rfl
@[simp] theorem withPending_stage1 (s : State) (x : List Instr) : (s.withPending x).stage1 = s.stage1 := rfl
@[simp] theorem withPending_stage2 (s : State) (x : List Instr) : (s.withPending x).stage2 = s.stage2 := rfl
@[simp] theorem withPending_ignored1 (s : State) (x : List Instr) : (s.withPending x).ignored1 = s.ignored1 := rfl
@[simp] theorem withPending_ignored2 (s : State) (x : List Instr) : (s.withPending x).ignored2 = s.ignored2 := rfl
@[simp] theorem withPending_link (s : State) (x : List Instr) : (s.withPending x).link = s.link := rfl
@[simp] theorem withPending_port (s : State) (x : List Instr) : (s.withPending x).port = s.port := rfl
@[simp] theorem withPending_store (s : State) (x : List Instr) : (s.withPending x).store = s.store := rfl
@[simp] theorem withPending_spi (s : State) (x : List Instr) : (s.withPending x).spi = s.spi := rfl
@[simp] theorem withPending_sdo (s : State) (x : List Instr) : (s.withPending x).sdo = s.sdo := rfl
@[simp] theorem withPending_pending (s : State) (x : List Instr) : (s.withPending x).pending = x := rfl

end Sys2Proof.Machine
end

