-- ==== Sys2Proof/Laws/Circuits.lean ====
section
/-!
SUPPORT. What the operations of the circuit arbiter can do: the circuit table read after a change, and each operation on one circuit.
-/
namespace Sys2Proof.Machine

/-! ## The circuit table -/

@[simp] theorem circuitAt_zero (l : List Circuit) : circuitAt l 0 = none := rfl

theorem circuitAt_of_pos {n : Nat} (h : n ≠ 0) (l : List Circuit) : circuitAt l n = l[n - 1]? := by simp [circuitAt, h]

@[simp] theorem updateAt_length (n : Nat) (f : Circuit → Circuit) (l : List Circuit) : (updateAt n f l).length = l.length := by
  unfold updateAt; split <;> simp

/-- Reading the table after a change to circuit `n`. -/
theorem circuitAt_updateAt (n k : Nat) (f : Circuit → Circuit) (l : List Circuit) :
    circuitAt (updateAt n f l) k = if k = n then (circuitAt l k).map f else circuitAt l k := by
  unfold updateAt circuitAt
  by_cases hn : n = 0
  · subst hn; by_cases hk : k = 0 <;> simp [hk]
  · by_cases hk : k = 0
    · subst hk; simp [Ne.symm hn]
    · by_cases h : k = n
      · subst h; simp [hn]
      · have : n - 1 ≠ k - 1 := by omega
        simp [hn, hk, h, this]

/-- A circuit that exists has a record. -/
theorem circuitAt_isSome {l : List Circuit} {n : Nat} (h1 : 1 ≤ n) (h2 : n ≤ l.length) : (circuitAt l n).isSome = true := by
  have : n ≠ 0 := by omega
  simp [circuitAt, this]; omega

theorem circuitAt_map (f : Circuit → Circuit) (l : List Circuit) (n : Nat) : circuitAt (l.map f) n = (circuitAt l n).map f := by
  unfold circuitAt; split <;> simp

theorem circuitAt_mem {l : List Circuit} {n : Nat} {c : Circuit} (h : circuitAt l n = some c) : c ∈ l := by
  unfold circuitAt at h; split at h
  · cases h
  · exact List.mem_of_getElem? h

@[simp] theorem foldl_updateAt_length {o : Type} (g : o → Nat) (f : o → Circuit → Circuit) (xs : List o) (l : List Circuit) :
    (xs.foldl (fun t e => updateAt (g e) (f e) t) l).length = l.length := by
  induction xs generalizing l with
  | nil => rfl
  | cons x xs ih => simp [ih]

/-- Reading the table after changes to several circuits: a circuit that is not named is as it was. -/
theorem circuitAt_foldl_off {o : Type} (g : o → Nat) (f : o → Circuit → Circuit) (xs : List o) (l : List Circuit) (k : Nat)
    (h : ∀ e ∈ xs, g e ≠ k) : circuitAt (xs.foldl (fun t e => updateAt (g e) (f e) t) l) k = circuitAt l k := by
  induction xs generalizing l with
  | nil => rfl
  | cons x xs ih =>
    have hx : k ≠ g x := fun he => h x (by simp) he.symm
    simp only [List.foldl_cons]
    rw [ih _ fun e he => h e (by simp [he]), circuitAt_updateAt, if_neg hx]

/-- Reading the table after changes to several circuits, each named once: a named one has had its change. -/
theorem circuitAt_foldl_on {o : Type} (g : o → Nat) (f : o → Circuit → Circuit) (xs : List o) (l : List Circuit)
    (hn : (xs.map g).Nodup) (e : o) (he : e ∈ xs) :
    circuitAt (xs.foldl (fun t e => updateAt (g e) (f e) t) l) (g e) = (circuitAt l (g e)).map (f e) := by
  induction xs generalizing l with
  | nil => simp at he
  | cons x xs ih =>
    simp only [List.map_cons, List.nodup_cons] at hn
    simp only [List.foldl_cons]
    rcases List.mem_cons.mp he with rfl | he
    · rw [circuitAt_foldl_off, circuitAt_updateAt, if_pos rfl]
      intro e' he' hc
      exact hn.1 (by rw [← hc]; exact List.mem_map_of_mem he')
    · have hne : g e ≠ g x := fun hc => hn.1 (by rw [← hc]; exact List.mem_map_of_mem he)
      rw [ih _ hn.2 he, circuitAt_updateAt, if_neg hne]

/-! ## One circuit -/

@[simp] theorem Circuit.recompute_cfg (c : Circuit) : c.recompute.cfg = c.cfg := rfl
@[simp] theorem Circuit.recompute_base (c : Circuit) : c.recompute.base = c.base := rfl
@[simp] theorem Circuit.recompute_local (c : Circuit) : c.recompute.local' = c.local' := rfl
@[simp] theorem Circuit.recompute_show (c : Circuit) : c.recompute.show' = c.show' := rfl
@[simp] theorem Circuit.recompute_safe (c : Circuit) : c.recompute.safe = c.safe := rfl
@[simp] theorem Circuit.recompute_handover (c : Circuit) : c.recompute.handover = c.handover := rfl

/-- The raw level depends on the claims and the handover alone. -/
theorem Circuit.recompute_raw (c : Circuit) : c.recompute.raw = c.rawOf := rfl

/-- After a recomputation the levels follow from the claims (R7, R9). -/
theorem Circuit.recompute_follows (c : Circuit) :
    c.recompute.raw = c.recompute.rawOf ∧ c.recompute.output = c.recompute.cfg.outputOf c.recompute.raw := ⟨rfl, rfl⟩

/-- Everything a claim of a given form does (R10): the layer's claim is replaced, the other layers and the configuration stay, and a handover
is removed where the claim decides. -/
theorem Circuit.place_spec (w : Stake) (f : Form) (c : Circuit) :
    c.place w f = (({ c with handover := if c.decides w.layer then none else c.handover }).put w f).recompute := by
  unfold Circuit.place
  split <;> simp_all

@[simp] theorem Circuit.place_cfg (w : Stake) (f : Form) (c : Circuit) : (c.place w f).cfg = c.cfg := by
  unfold Circuit.place Circuit.put; cases w <;> simp <;> split <;> rfl

@[simp] theorem Circuit.claim_cfg (w : Stake) (v fade : Nat) (c : Circuit) : (c.claim w v fade).cfg = c.cfg := by
  simp [Circuit.claim]

@[simp] theorem Circuit.move_cfg (o : LocalOwner) (d : Direction) (r : Nat) (c : Circuit) : (c.move o d r).cfg = c.cfg := by
  unfold Circuit.move; split <;> simp

@[simp] theorem Circuit.drop_cfg (c : Circuit) (l : Layer) : (c.drop l).cfg = c.cfg := by cases l <;> rfl

@[simp] theorem Circuit.release_cfg (l : Layer) (fade : Nat) (c : Circuit) : (c.release l fade).cfg = c.cfg := by
  unfold Circuit.release
  split
  · rfl
  · split <;> simp

@[simp] theorem Circuit.endMovement_cfg (p : LocalOwner → Bool) (c : Circuit) : (c.endMovement p).cfg = c.cfg := by
  unfold Circuit.endMovement
  split
  · rfl
  · split <;> simp

@[simp] theorem Circuit.clearSlot_cfg (n : Nat) (c : Circuit) : (c.clearSlot n).cfg = c.cfg := by
  unfold Circuit.clearSlot
  simp only
  split
  · simp
  · split <;> simp

@[simp] theorem Circuit.tick_cfg (c : Circuit) : c.tick.cfg = c.cfg := rfl

@[simp] theorem Circuit.finish_cfg (l : Layer) (c : Circuit) : (c.finish l).cfg = c.cfg := by cases l <;> rfl

@[simp] theorem Circuit.endHandover_cfg (c : Circuit) : c.endHandover.cfg = c.cfg := by unfold Circuit.endHandover; split <;> rfl

@[simp] theorem Circuit.safeClaim_cfg (i : SafeSet) (v fade : Nat) (c : Circuit) : (c.safeClaim i v fade).cfg = c.cfg := by
  simp [Circuit.safeClaim]

@[simp] theorem Circuit.makeSafe_cfg (i : SafeSet) (c : Circuit) : (c.makeSafe i).cfg = c.cfg := by
  unfold Circuit.makeSafe; split <;> simp

@[simp] theorem Circuit.assertSafe_cfg (i : SafeInput) (c : Circuit) : (c.assertSafe i).cfg = c.cfg := by
  unfold Circuit.assertSafe
  split
  · rfl
  · split <;> simp

@[simp] theorem Circuit.deassertSafe_cfg (i : SafeInput) (f : Nat) (c : Circuit) : (c.deassertSafe i f).cfg = c.cfg := by
  unfold Circuit.deassertSafe
  split
  · rfl
  · split
    · simp only; split <;> simp
    · rfl

@[simp] theorem Circuit.agreeSafe_cfg (i : SafeSet) (f : Nat) (c : Circuit) : (c.agreeSafe i f).cfg = c.cfg := by
  unfold Circuit.agreeSafe
  simp only
  split
  · split <;> simp
  · split
    · simp
    · split <;> simp

/-- A configuration write stores the configuration given (R13, R14). -/
@[simp] theorem Circuit.write_cfg (cfg : CircuitConfig) (m : Mode) (i : SafeSet) (f : Nat) (c : Circuit) : (c.write cfg m i f).cfg = cfg := by
  unfold Circuit.write Circuit.changeKind
  split <;> simp

end Sys2Proof.Machine
end

