-- ==== Sys2Proof/Laws/Events.lean ====
section
/-!
SUPPORT. What resolving an event, a mode change, an end of movement, a stage transfer and a change of the Safe layer can touch.
-/
namespace Sys2Proof.Machine

/-- What an event may touch: circuits but not their configuration, the house mode, what the lines have pending or in flight, and the
attention flags. -/
structure EventFrame (s t : State) : Prop where
  state : t = { s with circuits := t.circuits, mode := t.mode, lineA := t.lineA, lineB := t.lineB, port := t.port }
  cfgs : t.circuits.map (·.cfg) = s.circuits.map (·.cfg)
  lineA : t.lineA = { s.lineA with announce := t.lineA.announce, exchange := t.lineA.exchange }
  lineB : t.lineB = { s.lineB with announce := t.lineB.announce, exchange := t.lineB.exchange }
  port : t.port = { s.port with flags := t.port.flags }

theorem EventFrame.refl (s : State) : EventFrame s s := ⟨rfl, rfl, rfl, rfl, rfl⟩

theorem EventFrame.trans {s t u : State} (h : EventFrame s t) (k : EventFrame t u) : EventFrame s u := by
  refine ⟨?_, k.cfgs.trans h.cfgs, ?_, ?_, ?_⟩
  · have := k.state; rw [h.state] at this; exact this
  · have := k.lineA; rw [h.lineA] at this; exact this
  · have := k.lineB; rw [h.lineB] at this; exact this
  · have := k.port; rw [h.port] at this; exact this

theorem EventFrame.slots {s t : State} (h : EventFrame s t) : t.slots = s.slots := by rw [h.state]
theorem EventFrame.index {s t : State} (h : EventFrame s t) : t.index = s.index := by rw [h.state]
theorem EventFrame.groups {s t : State} (h : EventFrame s t) : t.groups = s.groups := by rw [h.state]
theorem EventFrame.scenes {s t : State} (h : EventFrame s t) : t.scenes = s.scenes := by rw [h.state]
theorem EventFrame.options {s t : State} (h : EventFrame s t) : t.options = s.options := by rw [h.state]
theorem EventFrame.inputs {s t : State} (h : EventFrame s t) : t.inputs = s.inputs := by rw [h.state]
theorem EventFrame.phase {s t : State} (h : EventFrame s t) : t.phase = s.phase := by rw [h.state]
theorem EventFrame.pending {s t : State} (h : EventFrame s t) : t.pending = s.pending := by rw [h.state]
theorem EventFrame.store {s t : State} (h : EventFrame s t) : t.store = s.store := by rw [h.state]

/-- Folding steps that each keep the frame keeps the frame. -/
theorem EventFrame.foldl {o : Type} (f : State → o → State) (hf : ∀ s x, EventFrame s (f s x)) (xs : List o) (s : State) :
    EventFrame s (xs.foldl f s) := by
  induction xs generalizing s with
  | nil => exact .refl s
  | cons x xs ih => exact (hf s x).trans (ih _)

theorem raise_frame (s : State) (f : Flag) : EventFrame s (s.raise f) := ⟨rfl, rfl, rfl, rfl, rfl⟩

/-- A change to every circuit that keeps configurations. -/
theorem mapCircuits_frame (f : Circuit → Circuit) (hf : ∀ c, (f c).cfg = c.cfg) (s : State) : EventFrame s (s.mapCircuits f) := by
  refine ⟨rfl, ?_, rfl, rfl, rfl⟩
  simp [State.mapCircuits, Function.comp_def, hf]

theorem map_cfg_updateAt (n : Nat) (f : Circuit → Circuit) (hf : ∀ c, (f c).cfg = c.cfg) (l : List Circuit) :
    (updateAt n f l).map (·.cfg) = l.map (·.cfg) := by
  unfold updateAt
  split
  · rfl
  · apply List.ext_getElem?
    intro i
    simp only [List.getElem?_map, List.getElem?_modify]
    cases l[i]? with
    | none => rfl
    | some c => by_cases h : n - 1 = i <;> simp [h, hf]

/-- Changes to several circuits that keep configurations. -/
theorem foldCircuits_frame {o : Type} (g : o → Nat) (f : o → Circuit → Circuit) (hf : ∀ e c, (f e c).cfg = c.cfg) (xs : List o) (s : State) :
    EventFrame s (s.withCircuits (xs.foldl (fun l e => updateAt (g e) (f e) l) s.circuits)) := by
  refine ⟨rfl, ?_, rfl, rfl, rfl⟩
  simp only [withCircuits_circuits]
  suffices h : ∀ l : List Circuit, (xs.foldl (fun l e => updateAt (g e) (f e) l) l).map (·.cfg) = l.map (·.cfg) from h _
  intro l
  induction xs generalizing l with
  | nil => rfl
  | cons x xs ih => rw [List.foldl_cons, ih, map_cfg_updateAt _ _ (hf x)]

theorem forCircuits_frame (ns : List Nat) (f : Circuit → Circuit) (hf : ∀ c, (f c).cfg = c.cfg) (s : State) :
    EventFrame s (s.forCircuits ns f) := foldCircuits_frame id (fun _ => f) (fun _ => hf) ns s

theorem onCircuit_frame (n : Nat) (f : Circuit → Circuit) (hf : ∀ c, (f c).cfg = c.cfg) (s : State) : EventFrame s (s.onCircuit n f) :=
  forCircuits_frame [n] f hf s

theorem endMovement_frame (p : LocalOwner → Bool) (s : State) : EventFrame s (s.endMovement p) := mapCircuits_frame _ (by simp) s

/-- Asking a line for an announce touches its pending announce and its exchange alone (R93, R108). -/
theorem askAnnounce_touches (m : Mode) (c : LineCtl) :
    c.askAnnounce m = { c with announce := (c.askAnnounce m).announce, exchange := (c.askAnnounce m).exchange } := by
  unfold LineCtl.askAnnounce
  split
  · simp only; split <;> rfl
  · rfl

/-- Asking both lines (R93). -/
theorem askLines_frame (m : Mode) (s : State) :
    EventFrame s ((s.withLineA (s.lineA.askAnnounce m)).withLineB (s.lineB.askAnnounce m)) :=
  ⟨rfl, rfl, askAnnounce_touches m _, askAnnounce_touches m _, rfl⟩

/-- What a mode change can touch (R89). -/
theorem changeMode_frame (m : Mode) (fade : Nat) (s : State) : EventFrame s (s.changeMode m fade) := by
  unfold State.changeMode
  split
  · exact .refl s
  · refine EventFrame.trans ?_ (raise_frame _ _)
    have h1 : EventFrame s (s.withMode m) := ⟨rfl, rfl, rfl, rfl, rfl⟩
    have h2 := mapCircuits_frame (fun c => c.claim (.base m) (c.cfg.base.at m) fade) (by simp) (s.withMode m)
    have h3 := mapCircuits_frame (fun c => if c.cfg.localClear.has m then c.release .local' fade else c)
      (by intro c; split <;> simp) ((s.withMode m).mapCircuits fun c => c.claim (.base m) (c.cfg.base.at m) fade)
    exact h1.trans (h2.trans (h3.trans ((endMovement_frame _ _).trans (askLines_frame m _))))

/-- What one binding can touch (R57 to R64). -/
theorem carryOut_frame (k : SourceKey) (s : State) (nb : Nat × Binding) : EventFrame s (s.carryOut k nb) := by
  unfold State.carryOut State.claimLocal
  simp only
  split
  · exact forCircuits_frame _ _ (by simp) s
  · exact forCircuits_frame _ _ (by simp) s
  · split <;> exact forCircuits_frame _ _ (by simp) s
  · exact forCircuits_frame _ _ (by simp) s
  · exact forCircuits_frame _ _ (by simp) s
  · exact forCircuits_frame _ _ (by simp) s
  · split
    · split
      · exact .refl s
      · exact foldCircuits_frame Prod.fst (fun e => Circuit.claim _ e.2 _) (by simp) _ s
    · exact .refl s
  · split
    · exact changeMode_frame _ _ s
    · exact .refl s

theorem endBySource_frame (k : SourceKey) (e : EventKind) (s : State) : EventFrame s (s.endBySource k e) := by
  cases e <;> first | exact .refl s | exact endMovement_frame _ s

/-- What the resolution of an event can touch (R54). -/
theorem resolve_frame (k : SourceKey) (e : EventKind) (s : State) : EventFrame s (s.resolve k e) :=
  (endBySource_frame k e s).trans (EventFrame.foldl _ (carryOut_frame k) _ _)

/-- What a reply's events can touch (R106). -/
theorem deliver_frame (l : Line) (a : Nat) (events : List (Nat × EventKind)) (s : State) : EventFrame s (s.deliver l a events) :=
  EventFrame.foldl _ (fun s _ => resolve_frame _ _ s) _ _

end Sys2Proof.Machine
end

