-- ==== Sys2Proof/Laws/Image.lean ====
section
/-!
SUPPORT. What the settings image can do: every codec reads back what it has written, whatever follows it, so the image of some tables is read as
those tables (R156, R157, R160 step 2), and erased memory holds no image (R158).
-/
namespace Sys2Proof.Machine

/-- A codec reads back every value it has written, and leaves what follows. -/
def Codec.Lossless {α : Type} (c : Codec α) : Prop := ∀ a rest, c.read (c.write a ++ rest) = some (a, rest)

theorem readNat_writeNat (fuel n : Nat) (h : n ≤ fuel) (rest : List Byte) : readNat (writeNat fuel n ++ rest) = some (n, rest) := by
  induction fuel generalizing n with
  | zero =>
    obtain rfl : n = 0 := by omega
    simp [writeNat, readNat]
  | succ fuel ih =>
    unfold writeNat
    split
    · next hn =>
      have h1 : (BitVec.ofNat 8 n).toNat = n := by simp; omega
      rw [List.singleton_append, readNat, h1, if_pos hn]
    · next hn =>
      have h1 : (BitVec.ofNat 8 (128 + n % 128)).toNat = 128 + n % 128 := by simp; omega
      rw [List.cons_append, readNat, h1, if_neg (by omega), ih (n / 128) (by omega)]
      simp only [Option.some.injEq, Prod.mk.injEq, and_true]
      omega

theorem lossless_nat : Codec.nat.Lossless := fun n rest => readNat_writeNat n n (Nat.le_refl n) rest

theorem Codec.Lossless.via {α β : Type} {c : Codec α} (h : c.Lossless) {out : β → α} {back : α → Option β}
    (hb : ∀ b, back (out b) = some b) : (c.via out back).Lossless := by
  intro b rest
  simp only [Codec.via, h (out b) rest, hb, Option.map_some]

theorem Codec.Lossless.pair {α β : Type} {c : Codec α} {d : Codec β} (hc : c.Lossless) (hd : d.Lossless) : (c.pair d).Lossless := by
  intro p rest
  simp only [Codec.pair, List.append_assoc, hc p.1 (d.write p.2 ++ rest), hd p.2 rest]

theorem Codec.Lossless.many {α : Type} {c : Codec α} (h : c.Lossless) (l : List α) (rest : List Byte) :
    c.readMany l.length (l.flatMap c.write ++ rest) = some (l, rest) := by
  induction l with
  | nil => rfl
  | cons a l ih => simp only [List.flatMap_cons, List.append_assoc, List.length_cons, Codec.readMany, h a, ih]

theorem Codec.Lossless.list {α : Type} {c : Codec α} (h : c.Lossless) : c.list.Lossless := by
  intro l rest
  simp only [Codec.list, List.append_assoc, lossless_nat l.length, h.many]

theorem Codec.Lossless.option {α : Type} {c : Codec α} (h : c.Lossless) : c.option.Lossless :=
  h.list.via fun o => by cases o <;> rfl

theorem lossless_yesNo : Codec.yesNo.Lossless := lossless_nat.via fun b => by cases b <;> rfl

theorem lossless_modeSet : Codec.modeSet.Lossless :=
  lossless_nat.via fun ⟨a, b, c, d, e⟩ => by cases a <;> cases b <;> cases c <;> cases d <;> cases e <;> rfl

theorem lossless_baseLevels : Codec.baseLevels.Lossless :=
  (lossless_nat.pair (lossless_nat.pair (lossless_nat.pair (lossless_nat.pair lossless_nat)))).via fun _ => rfl

theorem lossless_circuit : Codec.circuit.Lossless :=
  ((lossless_nat.via fun k => by cases k <;> rfl).pair (lossless_nat.pair (lossless_nat.pair (lossless_nat.pair (lossless_yesNo.pair
    (lossless_baseLevels.pair (lossless_nat.option.pair (lossless_nat.option.pair lossless_modeSet)))))))).via fun _ => rfl

theorem lossless_key : Codec.key.Lossless :=
  (lossless_nat.pair (lossless_nat.pair lossless_nat)).via fun k => by rcases k with ⟨_ | _, _, _⟩ | _ <;> rfl

theorem lossless_target : Codec.target.Lossless :=
  (lossless_nat.pair lossless_nat).via fun t => by rcases t with _ | _ | _ | (_ | _ | _ | _ | _) <;> rfl

theorem lossless_binding : Codec.binding.Lossless :=
  (lossless_key.pair ((lossless_nat.via fun k => by cases k <;> rfl).pair (lossless_modeSet.pair ((lossless_nat.via fun a => by
    cases a <;> rfl).pair (lossless_target.pair (lossless_nat.option.pair (lossless_nat.option.pair (lossless_nat.option.pair
      lossless_yesNo)))))))).via fun _ => rfl

theorem lossless_slot : Codec.slot.Lossless := (lossless_yesNo.pair lossless_binding).option.via fun x => by cases x <;> rfl

theorem lossless_scene : Codec.scene.Lossless := (lossless_nat.option.pair (lossless_nat.pair lossless_nat).list).via fun _ => rfl

theorem lossless_options : Codec.options.Lossless :=
  (lossless_nat.pair (lossless_nat.pair (lossless_nat.pair (lossless_nat.pair (lossless_nat.via fun m => by cases m <;> rfl))))).via
    fun _ => rfl

theorem lossless_line : Codec.line.Lossless := (lossless_yesNo.pair (lossless_nat.pair lossless_nat)).via fun _ => rfl

theorem lossless_station : Codec.station.Lossless := (lossless_nat.pair (lossless_nat.pair lossless_yesNo)).via fun _ => rfl

theorem lossless_storedLine : Codec.storedLine.Lossless := (lossless_line.pair lossless_station.list).via fun _ => rfl

theorem lossless_input : Codec.input.Lossless :=
  ((lossless_nat.via fun k => by cases k <;> rfl).pair (lossless_yesNo.pair (lossless_yesNo.pair (lossless_nat.pair (lossless_nat.pair
    lossless_nat))))).via fun _ => rfl

theorem lossless_edge : Codec.edge.Lossless := lossless_nat.via fun e => by cases e <;> rfl

theorem lossless_mask : Codec.mask.Lossless := lossless_nat.via fun m => by simp

/-- The tables are read back from what they are written as. -/
theorem lossless_tables : Codec.tables.Lossless :=
  (lossless_circuit.list.pair (lossless_slot.list.pair (lossless_nat.list.option.list.pair (lossless_scene.option.list.pair
    (lossless_options.pair (lossless_storedLine.pair (lossless_storedLine.pair (lossless_input.list.pair (lossless_edge.pair
      (lossless_edge.pair (lossless_nat.pair lossless_mask))))))))))).via fun _ => rfl

@[simp] theorem imageCheck_length (body : List Byte) : (imageCheck body).length = 4 := rfl

/-- An image that was programmed whole is valid and holds the tables it was made of, whatever stands after it (R156, R157, R160 step 2). -/
theorem readImage_imageFile (t : Stored) (after : List Byte) : readImage (imageFile t ++ after) = some t := by
  unfold readImage imageFile
  rw [List.append_assoc, lossless_tables t]
  have h (b : List Byte) : List.take 4 (imageCheck b ++ after) = imageCheck b := by rw [← imageCheck_length b]; exact List.take_left
  simp [h]

/-- A memory that begins with an image holds it. -/
@[simp] theorem image_of_file (st : StoreState) (v : Bool) (t : Stored) (c : Option Stored) :
    (Store.mk st v (imageFile t) c).image = some t := by
  simpa [Store.image] using readImage_imageFile t []

/-- Erased memory holds no image (R158, R159). -/
@[simp] theorem image_of_erased (st : StoreState) (v : Bool) (c : Option Stored) : (Store.mk st v [] c).image = none := rfl

/-- The image depends on the memory alone. -/
theorem image_of_memory {st st' : Store} (h : st'.memory = st.memory) : st'.image = st.image := by simp [Store.image, h]

/-- A spoilt check is not correct: an image whose last four bytes are not its check is not valid (R156). -/
theorem readImage_of_wrong_check (t : Stored) (check after : List Byte) (hl : check.length = 4)
    (hc : check ≠ imageCheck (Codec.tables.write t)) : readImage (Codec.tables.write t ++ check ++ after) = none := by
  unfold readImage
  rw [List.append_assoc, lossless_tables t]
  have h : List.take 4 (check ++ after) = check := by rw [← hl]; exact List.take_left
  simp [h, hc]

end Sys2Proof.Machine
end

