-- ==== Sys2Proof/Laws/ImageFits.lean ====
section
/-!
SUPPORT. The image of tables within their ranges fits in the 48 pages of 1 KiB of the settings store (R156; log 14: the layout).
-/
namespace Sys2Proof.Machine

/-- The tables of an image, each within the ranges of its rule. -/
def Stored.Legal (t : Stored) : Prop :=
  LegalCircuits t.circuits ∧ LegalSlots t.slots ∧ LegalGroups t.groups ∧ LegalScenes t.scenes ∧ t.options.Legal
    ∧ t.lineA.config.Legal ∧ LegalIdents t.lineA.stations ∧ t.lineB.config.Legal ∧ LegalIdents t.lineB.stations
    ∧ LegalInputs t.inputs ∧ t.period ≤ 100

/-! ## What each item takes at most -/

theorem writeNat_length (k fuel n : Nat) (h : n < 128 ^ (k + 1)) : (writeNat fuel n).length ≤ k + 1 := by
  induction k generalizing fuel n with
  | zero => cases fuel <;> simp_all [writeNat]
  | succ k ih =>
    cases fuel with
    | zero => simp [writeNat]
    | succ fuel =>
      unfold writeNat
      split
      · simp
      · have := ih fuel (n / 128) (by rw [Nat.div_lt_iff_lt_mul (by decide), ← Nat.pow_succ]; exact h)
        simp; omega

theorem natBytes1 {n : Nat} (h : n < 128) : (Codec.nat.write n).length ≤ 1 := writeNat_length 0 n n h

theorem natBytes2 {n : Nat} (h : n < 16384) : (Codec.nat.write n).length ≤ 2 := writeNat_length 1 n n h

theorem via_length {α β : Type} (c : Codec α) (out : β → α) (back : α → Option β) (b : β) :
    ((c.via out back).write b).length = (c.write (out b)).length := rfl

theorem pair_length {α β : Type} (c : Codec α) (d : Codec β) (a : α) (b : β) :
    ((c.pair d).write (a, b)).length = (c.write a).length + (d.write b).length := by simp [Codec.pair]

theorem list_length {α : Type} (c : Codec α) (l : List α) :
    (c.list.write l).length = (Codec.nat.write l.length).length + (l.map fun a => (c.write a).length).sum := by
  simp [Codec.list, List.length_flatMap]

/-- A list whose items take their own `f` bytes and `m` more at most. -/
theorem sum_bytes {α : Type} (l : List α) (g f : α → Nat) (m : Nat) (h : ∀ a ∈ l, g a ≤ m + f a) :
    (l.map g).sum ≤ m * l.length + (l.map f).sum := by
  induction l with
  | nil => simp
  | cons a l ih =>
    have h1 := h a (by simp)
    have h2 := ih fun b hb => h b (by simp [hb])
    simp only [List.map_cons, List.sum_cons, List.length_cons, Nat.mul_add, Nat.mul_one]
    omega

theorem list_bytes {α : Type} (c : Codec α) (l : List α) (m : Nat) (h : ∀ a ∈ l, (c.write a).length ≤ m) :
    (c.list.write l).length ≤ (Codec.nat.write l.length).length + m * l.length := by
  have := sum_bytes l (fun a => (c.write a).length) (fun _ => 0) m (by simpa using h)
  rw [list_length]
  simp at this ⊢
  omega

theorem option_none {α : Type} (c : Codec α) : (c.option.write none).length ≤ 1 := by
  show (c.list.write []).length ≤ 1
  rw [list_length]
  simpa using natBytes1 (n := 0) (by decide)

theorem option_some {α : Type} (c : Codec α) (a : α) : (c.option.write (some a)).length ≤ 1 + (c.write a).length := by
  show (c.list.write [a]).length ≤ _
  rw [list_length]
  simpa using natBytes1 (n := 1) (by decide)

theorem option_bytes {α : Type} (c : Codec α) (o : Option α) (m : Nat) (h : ∀ a, o = some a → (c.write a).length ≤ m) :
    (c.option.write o).length ≤ 1 + m := by
  cases o with
  | none => have := option_none c; omega
  | some a => have := option_some c a; have := h a rfl; omega

/-- A code below 128 takes a byte. -/
theorem code_bytes {β : Type} (out : β → Nat) (back : Nat → Option β) (b : β) (h : out b < 128) :
    ((Codec.nat.via out back).write b).length ≤ 1 := natBytes1 h

theorem yesNo_bytes (b : Bool) : (Codec.yesNo.write b).length ≤ 1 := code_bytes _ _ _ (by cases b <;> decide)

theorem modeSet_bytes (m : ModeSet) : (Codec.modeSet.write m).length ≤ 1 :=
  code_bytes _ _ _ (by obtain ⟨a, b, c, d, e⟩ := m; cases a <;> cases b <;> cases c <;> cases d <;> cases e <;> decide)

/-! ## The tables -/

theorem circuit_bytes (c : CircuitConfig) (h : c.Legal) : (Codec.circuit.write c).length ≤ 25 := by
  obtain ⟨h1, h2, h3, h4, h5, h6, h7, h8⟩ := h
  have k1 : ∀ l, c.safe1 = some l → (Codec.nat.write l).length ≤ 2 := fun l hl => natBytes2 (by have := h8 .safe1 l hl; omega)
  have k2 : ∀ l, c.safe2 = some l → (Codec.nat.write l).length ≤ 2 := fun l hl => natBytes2 (by have := h8 .safe2 l hl; omega)
  have b (m : Mode) : (Codec.nat.write (c.base.at m)).length ≤ 2 := natBytes2 (by have := h7 m; omega)
  have b1 : (Codec.nat.write c.base.closed).length ≤ 2 := b .closed
  have b2 : (Codec.nat.write c.base.cleaning).length ≤ 2 := b .cleaning
  have b3 : (Codec.nat.write c.base.work).length ≤ 2 := b .work
  have b4 : (Codec.nat.write c.base.rehearsal).length ≤ 2 := b .rehearsal
  have b5 : (Codec.nat.write c.base.performance).length ≤ 2 := b .performance
  have e0 := code_bytes circuitKindCode circuitKindOf c.kind (by cases c.kind <;> decide)
  have e1 := natBytes2 (n := c.floor) (by omega)
  have e2 := natBytes2 (n := c.cap) (by omega)
  have e3 := natBytes2 (n := c.threshold) (by omega)
  have e4 := yesNo_bytes c.inverted
  have e5 := option_bytes Codec.nat c.safe1 2 k1
  have e6 := option_bytes Codec.nat c.safe2 2 k2
  have e7 := modeSet_bytes c.localClear
  simp only [Codec.circuit, Codec.baseLevels, via_length, pair_length] at *
  omega

theorem key_bytes (k : SourceKey) (h : k.Legal) : (Codec.key.write k).length ≤ 3 := by
  rcases k with ⟨l, a, n⟩ | n
  · obtain ⟨-, h2, -, h4⟩ := h
    simp only [Config.maxAddress] at h2
    have e0 := natBytes1 (n := lineCode l) (by cases l <;> decide)
    have e1 := natBytes1 (n := a) (by omega)
    have e2 := natBytes1 (n := n) (by omega)
    simp only [Codec.key, via_length, pair_length]; omega
  · obtain ⟨-, h2⟩ := h
    simp only [Config.contacts] at h2
    have e0 := natBytes1 (n := 2) (by decide)
    have e1 := natBytes1 (n := 0) (by decide)
    have e2 := natBytes1 (n := n) (by omega)
    simp only [Codec.key, via_length, pair_length]; omega

theorem target_bytes (t : Target) (h : t.Legal) : (Codec.target.write t).length ≤ 3 := by
  rcases t with n | n | n | m
  all_goals simp only [Target.Legal, Config.circuits, Config.groups, Config.scenes] at h
  all_goals simp only [Codec.target, via_length, pair_length]
  · have := natBytes1 (n := 0) (by decide); have := natBytes2 (n := n) (by omega); omega
  · have := natBytes1 (n := 1) (by decide); have := natBytes2 (n := n) (by omega); omega
  · have := natBytes1 (n := 2) (by decide); have := natBytes2 (n := n) (by omega); omega
  · have := natBytes1 (n := 3) (by decide); have := natBytes1 (n := modeCode m) (by cases m <;> decide); omega

theorem binding_bytes (b : Binding) (h : b.Legal) : (Codec.binding.write b).length ≤ 20 := by
  obtain ⟨hk, ht, -, -, hl, hf, hr⟩ := h
  have e0 := key_bytes b.key hk
  have e1 := code_bytes kindCode kindOf b.kind (by cases b.kind <;> decide)
  have e2 := modeSet_bytes b.mask
  have e3 := code_bytes actionCode actionOf b.action (by cases b.action <;> decide)
  have e4 := target_bytes b.target ht
  have e5 := option_bytes Codec.nat b.level 2 fun l hx => natBytes2 (by have := hl l hx; omega)
  have e6 := option_bytes Codec.nat b.fade 2 fun l hx => natBytes2 (by have := hf l hx; omega)
  have e7 := option_bytes Codec.nat b.rate 2 fun l hx => natBytes2 (by have := hr l hx; omega)
  have e8 := yesNo_bytes b.feedback
  simp only [Codec.binding, via_length, pair_length] at *
  omega

theorem slot_bytes (x : Slot) (h : ∀ b, x.record = some b → b.Legal) : (Codec.slot.write x).length ≤ 22 := by
  have full (live : Bool) (b : Binding) (hb : b.Legal) : ((Codec.yesNo.pair Codec.binding).option.write (some (live, b))).length ≤ 22 := by
    have e0 := option_some (Codec.yesNo.pair Codec.binding) (live, b)
    have e1 := yesNo_bytes live
    have e2 := binding_bytes b hb
    rw [pair_length] at e0
    omega
  cases x with
  | free => exact Nat.le_trans (option_none _) (by decide)
  | live b => exact full true b (h b rfl)
  | disabled b => exact full false b (h b rfl)

theorem AscendingCircuits.length_le {l : List Nat} (h : AscendingCircuits l) : l.length ≤ 384 := by
  have hs : l ⊆ List.range' 1 384 := fun c hc => by
    have := h.2 c hc
    simp only [Config.circuits] at this
    simp only [List.mem_range'_1]; omega
  have := (List.subperm_of_subset (h.1.imp fun hlt => Nat.ne_of_lt hlt) hs).length_le
  simpa using this

theorem group_bytes (g : Option (List Nat)) (h : ∀ l, g = some l → AscendingCircuits l) :
    (Codec.nat.list.option.write g).length ≤ 3 + 2 * (g.getD []).length := by
  cases g with
  | none => exact Nat.le_trans (option_none _) (by simp)
  | some l =>
    have hl := h l rfl
    have e0 := option_some Codec.nat.list l
    have e1 := list_bytes Codec.nat l 2 fun c hc => natBytes2 (by have := hl.2 c hc; simp only [Config.circuits] at this; omega)
    have e2 := natBytes2 (n := l.length) (by have := hl.length_le; omega)
    simp only [Option.getD_some]
    omega

theorem scene_bytes (o : Option Scene) (h : ∀ sc, o = some sc → sc.Legal) :
    (Codec.scene.option.write o).length ≤ 6 + 4 * ((o.map (·.entries)).getD []).length := by
  cases o with
  | none => exact Nat.le_trans (option_none _) (by simp)
  | some sc =>
    obtain ⟨-, ha, hl, hf⟩ := h sc rfl
    have e0 := option_some Codec.scene sc
    have e1 := option_bytes Codec.nat sc.fade 2 fun f hx => natBytes2 (by have := hf f hx; omega)
    have e2 := list_bytes (Codec.nat.pair Codec.nat) sc.entries 4 fun e he => by
      have := ha.2 e.1 (List.mem_map_of_mem he)
      have := hl e he
      simp only [Config.circuits] at *
      have := natBytes2 (n := e.1) (by omega)
      have := natBytes2 (n := e.2) (by omega)
      obtain ⟨a, b⟩ := e
      rw [pair_length]; simp only at *; omega
    have e3 := natBytes2 (n := sc.entries.length) (by have := ha.length_le; simp at this; omega)
    simp only [Codec.scene, via_length, pair_length, Option.map_some, Option.getD_some] at *
    omega

theorem options_bytes (o : ModeOptions) (h : o.Legal) : (Codec.options.write o).length ≤ 9 := by
  obtain ⟨h1, h2, h3, h4, h5⟩ := h
  have e1 := natBytes2 (n := o.modeFade) (by omega)
  have e2 := natBytes2 (n := o.defaultFade) (by omega)
  have e3 := natBytes2 (n := o.defaultRate) (by omega)
  have e4 := natBytes2 (n := o.safeReleaseFade) (by omega)
  have e5 := natBytes1 (n := modeCode o.startMode) (by cases o.startMode <;> decide)
  simp only [Codec.options, via_length, pair_length]
  omega

theorem storedLine_bytes (l : StoredLine) (h : l.config.Legal) (hs : LegalIdents l.stations) : (Codec.storedLine.write l).length ≤ 124 := by
  obtain ⟨h1, h2, h3⟩ := h
  obtain ⟨k1, -, k3⟩ := hs
  simp only [Config.stations] at k1
  have e0 := yesNo_bytes l.config.enabled
  have e1 := natBytes1 (n := l.config.divisor) (by omega)
  have e2 := natBytes1 (n := l.config.window) (by omega)
  have e3 := list_bytes Codec.station l.stations 3 fun x hx => by
    have := k3 x hx
    simp only [Config.maxAddress] at this
    have := natBytes1 (n := x.address) (by omega)
    have := natBytes1 (n := x.buttons) (by omega)
    have := yesNo_bytes x.indicators
    simp only [Codec.station, via_length, pair_length]; omega
  have e4 := natBytes1 (n := l.stations.length) (by omega)
  simp only [Codec.storedLine, Codec.line, via_length, pair_length] at *
  omega

theorem input_bytes (c : InputConfig) (h : c.Legal) : (Codec.input.write c).length ≤ 8 := by
  obtain ⟨h1, h2, h3, h4, -, h6⟩ := h
  have e0 := code_bytes inputKindCode inputKindOf c.kind (by cases c.kind <;> decide)
  have e1 := yesNo_bytes c.pullUp
  have e2 := yesNo_bytes c.closedHigh
  have e3 := natBytes1 (n := c.debounce) (by omega)
  have e4 := natBytes2 (n := c.holdTime) (by omega)
  have e5 := natBytes2 (n := c.stuckTime) (by omega)
  simp only [Codec.input, via_length, pair_length] at *
  omega

/-- The image of tables within their ranges fits in the 48 pages of 1 KiB (R156). -/
theorem imageFile_fits (t : Stored) (h : t.Legal) : (imageFile t).length ≤ Config.storePages * Config.pageBytes := by
  obtain ⟨⟨hc, hc'⟩, ⟨hs, hs', -⟩, ⟨hg, hg', hgu⟩, ⟨hn, hn', hnu⟩, ho, ha, ha', hb, hb', ⟨hi, hi'⟩, hp⟩ := h
  simp only [Config.circuits, Config.slots, Config.groups, Config.scenes, Config.contacts, Config.memberPool, Config.entryPool] at *
  have c1 := list_bytes Codec.circuit t.circuits 25 fun c hx => circuit_bytes c (hc' c hx)
  have c2 := list_bytes Codec.slot t.slots 22 fun x hx => slot_bytes x fun b hb => by
    obtain ⟨n, hn, rfl⟩ := List.getElem_of_mem hx
    exact hs' n b (by simp only [slotAt, List.getD, List.getElem?_eq_getElem hn, Option.getD_some]; exact hb)
  have c3 := sum_bytes t.groups (fun g => (Codec.nat.list.option.write g).length) (fun g => 2 * (g.getD []).length) 3
    fun g hx => group_bytes g fun l hl => hg' l (hl ▸ hx)
  have c4 := sum_bytes t.scenes (fun g => (Codec.scene.option.write g).length) (fun o => 4 * ((o.map (·.entries)).getD []).length) 6
    fun g hx => scene_bytes g fun l hl => hn' l (hl ▸ hx)
  have c3' : (t.groups.map fun g => 2 * (g.getD []).length).sum = 2 * membersUsed t.groups := List.sum_map_mul_left ..
  have c4' : (t.scenes.map fun o => 4 * ((o.map (·.entries)).getD []).length).sum = 4 * entriesUsed t.scenes := List.sum_map_mul_left ..
  have c5 := options_bytes t.options ho
  have c6 := storedLine_bytes t.lineA ha ha'
  have c7 := storedLine_bytes t.lineB hb hb'
  have c8 := list_bytes Codec.input t.inputs 8 fun c hx => input_bytes c (hi' c hx)
  have c9 := code_bytes edgeCode edgeOf t.edge1 (by cases t.edge1 <;> decide)
  have c10 := code_bytes edgeCode edgeOf t.edge2 (by cases t.edge2 <;> decide)
  have c11 := natBytes1 (n := t.period) (by omega)
  have c12 : (Codec.mask.write t.mask).length ≤ 2 := natBytes2 (by have := t.mask.isLt; omega)
  have n1 := natBytes2 (n := t.circuits.length) (by omega)
  have n2 := natBytes2 (n := t.slots.length) (by omega)
  have n3 := natBytes1 (n := t.groups.length) (by omega)
  have n4 := natBytes1 (n := t.scenes.length) (by omega)
  have n5 := natBytes1 (n := t.inputs.length) (by omega)
  have g1 := list_length Codec.nat.list.option t.groups
  have g2 := list_length Codec.scene.option t.scenes
  have hlen : (imageFile t).length = (Codec.tables.write t).length + 4 := by simp [imageFile]
  rw [hlen]
  simp only [Codec.tables, Codec.edge, via_length, pair_length] at *
  simp only [Config.storePages, Config.pageBytes]
  omega

/-- The pages of a memory that fits in 48 of them, one after the other, are that memory. -/
theorem pages_join (st : Store) (n : Nat) (h : st.memory.length ≤ n * 1024) : (List.range n).flatMap st.page = st.memory := by
  have take_pages (k : Nat) : (List.range k).flatMap st.page = st.memory.take (k * 1024) := by
    induction k with
    | zero => simp
    | succ k ih =>
      rw [List.range_succ, List.flatMap_append, ih]
      simp only [List.flatMap_singleton, Store.page, Config.pageBytes, Nat.succ_mul]
      rw [List.take_add]
  rw [take_pages, List.take_of_length_le h]

end Sys2Proof.Machine
end

