-- ==== Sys2Proof/Laws/PerInstr.lean ====
section
/-!
SUPPORT. What holds of every command, command by command. `Catalogued`: the code of a request row is a byte that the request catalogue
names (11.6), so that the reading of a payload with it never answers UNKNOWN_REQUEST (R149).
-/
namespace Sys2Proof.Laws

open Sys2Proof.Machine

/-- The codes of the request catalogue (11.6). -/
def catalogue : List Nat :=
  [0x01, 0x02, 0x03, 0x04, 0x05, 0x10, 0x11, 0x12, 0x13, 0x14, 0x20, 0x21, 0x22, 0x23, 0x24, 0x25, 0x26, 0x27, 0x28, 0x30, 0x31, 0x32,
    0x33, 0x34, 0x35, 0x36, 0x37, 0x40, 0x41, 0x42, 0x50, 0x51, 0x52, 0x53, 0x54, 0x55, 0x56, 0x60, 0x61, 0x70, 0x71, 0x72, 0x73, 0x74, 0x75,
    0x76, 0x80, 0x81, 0x90, 0x91, 0x92]

/-- No code of the catalogue is unknown: its payload names its request or does not fit. -/
theorem parseRequest_known (code : Nat) (h : code ∈ catalogue) (p : List Byte) : parseRequest code p ≠ .unknown := by
  unfold parseRequest
  split
  all_goals (first | (unfold fits0) | (unfold fits1) | (unfold fits2) | (unfold fits3) | (unfold fits4) | skip)
  all_goals (try unfold fitsRead)
  all_goals (repeat' split)
  all_goals first
    | (intro hp; cases hp; done)
    | (simp_all [catalogue])

/-- A request's code is a byte of the catalogue, whatever its payload (11.6). -/
def Catalogued.Statement (i : Instr) : Prop :=
  ∀ code, requestCode i = some code → code < 256 ∧ ∀ p, parseRequest code p ≠ .unknown

theorem Catalogued.powerOn : Catalogued.Statement .powerOn := by
  rintro code ⟨⟩

theorem Catalogued.resetPinLow : Catalogued.Statement .resetPinLow := by
  rintro code ⟨⟩

theorem Catalogued.resetPinRelease : Catalogued.Statement .resetPinRelease := by
  rintro code ⟨⟩

theorem Catalogued.inputSettlingEnd : Catalogued.Statement .inputSettlingEnd := by
  rintro code ⟨⟩

theorem Catalogued.requestTransaction : ∀ u, Catalogued.Statement (.requestTransaction u) := by
  intros; rintro code ⟨⟩

theorem Catalogued.fetch : ∀ u, Catalogued.Statement (.fetch u) := by
  intros; rintro code ⟨⟩

theorem Catalogued.readIdentity : Catalogued.Statement .readIdentity := by
  rintro code ⟨⟩; exact ⟨by decide, parseRequest_known _ (by decide)⟩

theorem Catalogued.readAttention : Catalogued.Statement .readAttention := by
  rintro code ⟨⟩; exact ⟨by decide, parseRequest_known _ (by decide)⟩

theorem Catalogued.clearAttention : ∀ u, Catalogued.Statement (.clearAttention u) := by
  intro u
  rintro code ⟨⟩; exact ⟨by decide, parseRequest_known _ (by decide)⟩

theorem Catalogued.setAttentionMask : ∀ u, Catalogued.Statement (.setAttentionMask u) := by
  intro u
  rintro code ⟨⟩; exact ⟨by decide, parseRequest_known _ (by decide)⟩

theorem Catalogued.restart : Catalogued.Statement .restart := by
  rintro code ⟨⟩; exact ⟨by decide, parseRequest_known _ (by decide)⟩

theorem Catalogued.setCircuitConfig : ∀ u v w, Catalogued.Statement (.setCircuitConfig u v w) := by
  intro u v w
  rintro code ⟨⟩; exact ⟨by decide, parseRequest_known _ (by decide)⟩

theorem Catalogued.readCircuitConfig : ∀ u v, Catalogued.Statement (.readCircuitConfig u v) := by
  intro u v
  rintro code ⟨⟩; exact ⟨by decide, parseRequest_known _ (by decide)⟩

theorem Catalogued.claimLevel : ∀ u v w x, Catalogued.Statement (.claimLevel u v w x) := by
  intro u v w x
  rintro code ⟨⟩; exact ⟨by decide, parseRequest_known _ (by decide)⟩

theorem Catalogued.releaseLayer : ∀ u v w, Catalogued.Statement (.releaseLayer u v w) := by
  intro u v w
  rintro code ⟨⟩; exact ⟨by decide, parseRequest_known _ (by decide)⟩

theorem Catalogued.readCircuitState : ∀ u v, Catalogued.Statement (.readCircuitState u v) := by
  intro u v
  rintro code ⟨⟩; exact ⟨by decide, parseRequest_known _ (by decide)⟩

theorem Catalogued.addBinding : ∀ u, Catalogued.Statement (.addBinding u) := by
  intro u
  rintro code ⟨⟩; exact ⟨by decide, parseRequest_known _ (by decide)⟩

theorem Catalogued.replaceBinding : ∀ u v, Catalogued.Statement (.replaceBinding u v) := by
  intro u v
  rintro code ⟨⟩; exact ⟨by decide, parseRequest_known _ (by decide)⟩

theorem Catalogued.retireBinding : ∀ u, Catalogued.Statement (.retireBinding u) := by
  intro u
  rintro code ⟨⟩; exact ⟨by decide, parseRequest_known _ (by decide)⟩

theorem Catalogued.retireSource : ∀ u, Catalogued.Statement (.retireSource u) := by
  intro u
  rintro code ⟨⟩; exact ⟨by decide, parseRequest_known _ (by decide)⟩

theorem Catalogued.disable : ∀ u, Catalogued.Statement (.disable u) := by
  intro u
  rintro code ⟨⟩; exact ⟨by decide, parseRequest_known _ (by decide)⟩

theorem Catalogued.enable : ∀ u, Catalogued.Statement (.enable u) := by
  intro u
  rintro code ⟨⟩; exact ⟨by decide, parseRequest_known _ (by decide)⟩

theorem Catalogued.readBinding : ∀ u, Catalogued.Statement (.readBinding u) := by
  intro u
  rintro code ⟨⟩; exact ⟨by decide, parseRequest_known _ (by decide)⟩

theorem Catalogued.findBindings : ∀ u v, Catalogued.Statement (.findBindings u v) := by
  intro u v
  rintro code ⟨⟩; exact ⟨by decide, parseRequest_known _ (by decide)⟩

theorem Catalogued.injectEvent : ∀ u v, Catalogued.Statement (.injectEvent u v) := by
  intro u v
  rintro code ⟨⟩; exact ⟨by decide, parseRequest_known _ (by decide)⟩

theorem Catalogued.writeGroup : ∀ u v, Catalogued.Statement (.writeGroup u v) := by
  intro u v
  rintro code ⟨⟩; exact ⟨by decide, parseRequest_known _ (by decide)⟩

theorem Catalogued.deleteGroup : ∀ u, Catalogued.Statement (.deleteGroup u) := by
  intro u
  rintro code ⟨⟩; exact ⟨by decide, parseRequest_known _ (by decide)⟩

theorem Catalogued.readGroup : ∀ u v w, Catalogued.Statement (.readGroup u v w) := by
  intro u v w
  rintro code ⟨⟩; exact ⟨by decide, parseRequest_known _ (by decide)⟩

theorem Catalogued.writeScene : ∀ u v w, Catalogued.Statement (.writeScene u v w) := by
  intro u v w
  rintro code ⟨⟩; exact ⟨by decide, parseRequest_known _ (by decide)⟩

theorem Catalogued.extendScene : ∀ u v, Catalogued.Statement (.extendScene u v) := by
  intro u v
  rintro code ⟨⟩; exact ⟨by decide, parseRequest_known _ (by decide)⟩

theorem Catalogued.captureScene : ∀ u v w, Catalogued.Statement (.captureScene u v w) := by
  intro u v w
  rintro code ⟨⟩; exact ⟨by decide, parseRequest_known _ (by decide)⟩

theorem Catalogued.deleteScene : ∀ u, Catalogued.Statement (.deleteScene u) := by
  intro u
  rintro code ⟨⟩; exact ⟨by decide, parseRequest_known _ (by decide)⟩

theorem Catalogued.readScene : ∀ u v w, Catalogued.Statement (.readScene u v w) := by
  intro u v w
  rintro code ⟨⟩; exact ⟨by decide, parseRequest_known _ (by decide)⟩

theorem Catalogued.setMode : ∀ u v, Catalogued.Statement (.setMode u v) := by
  intro u v
  rintro code ⟨⟩; exact ⟨by decide, parseRequest_known _ (by decide)⟩

theorem Catalogued.readMode : Catalogued.Statement .readMode := by
  rintro code ⟨⟩; exact ⟨by decide, parseRequest_known _ (by decide)⟩

theorem Catalogued.setModeOptions : ∀ u, Catalogued.Statement (.setModeOptions u) := by
  intro u
  rintro code ⟨⟩; exact ⟨by decide, parseRequest_known _ (by decide)⟩

theorem Catalogued.setLineConfig : ∀ u v, Catalogued.Statement (.setLineConfig u v) := by
  intro u v
  rintro code ⟨⟩; exact ⟨by decide, parseRequest_known _ (by decide)⟩

theorem Catalogued.enrolStation : ∀ u v w x, Catalogued.Statement (.enrolStation u v w x) := by
  intro u v w x
  rintro code ⟨⟩; exact ⟨by decide, parseRequest_known _ (by decide)⟩

theorem Catalogued.unenrolStation : ∀ u v, Catalogued.Statement (.unenrolStation u v) := by
  intro u v
  rintro code ⟨⟩; exact ⟨by decide, parseRequest_known _ (by decide)⟩

theorem Catalogued.readStation : ∀ u v, Catalogued.Statement (.readStation u v) := by
  intro u v
  rintro code ⟨⟩; exact ⟨by decide, parseRequest_known _ (by decide)⟩

theorem Catalogued.readLine : ∀ u, Catalogued.Statement (.readLine u) := by
  intro u
  rintro code ⟨⟩; exact ⟨by decide, parseRequest_known _ (by decide)⟩

theorem Catalogued.censusStart : ∀ u, Catalogued.Statement (.censusStart u) := by
  intro u
  rintro code ⟨⟩; exact ⟨by decide, parseRequest_known _ (by decide)⟩

theorem Catalogued.censusRead : ∀ u, Catalogued.Statement (.censusRead u) := by
  intro u
  rintro code ⟨⟩; exact ⟨by decide, parseRequest_known _ (by decide)⟩

theorem Catalogued.setInputConfig : ∀ u v, Catalogued.Statement (.setInputConfig u v) := by
  intro u v
  rintro code ⟨⟩; exact ⟨by decide, parseRequest_known _ (by decide)⟩

theorem Catalogued.readInput : ∀ u, Catalogued.Statement (.readInput u) := by
  intro u
  rintro code ⟨⟩; exact ⟨by decide, parseRequest_known _ (by decide)⟩

theorem Catalogued.stageEntry : ∀ u v w, Catalogued.Statement (.stageEntry u v w) := by
  intro u v w
  rintro code ⟨⟩; exact ⟨by decide, parseRequest_known _ (by decide)⟩

theorem Catalogued.stageClear : ∀ u, Catalogued.Statement (.stageClear u) := by
  intro u
  rintro code ⟨⟩; exact ⟨by decide, parseRequest_known _ (by decide)⟩

theorem Catalogued.setStageTrigger : ∀ u v, Catalogued.Statement (.setStageTrigger u v) := by
  intro u v
  rintro code ⟨⟩; exact ⟨by decide, parseRequest_known _ (by decide)⟩

theorem Catalogued.standby : ∀ u, Catalogued.Statement (.standby u) := by
  intro u
  rintro code ⟨⟩; exact ⟨by decide, parseRequest_known _ (by decide)⟩

theorem Catalogued.unstandby : ∀ u, Catalogued.Statement (.unstandby u) := by
  intro u
  rintro code ⟨⟩; exact ⟨by decide, parseRequest_known _ (by decide)⟩

theorem Catalogued.go : ∀ u, Catalogued.Statement (.go u) := by
  intro u
  rintro code ⟨⟩; exact ⟨by decide, parseRequest_known _ (by decide)⟩

theorem Catalogued.readStage : ∀ u v w, Catalogued.Statement (.readStage u v w) := by
  intro u v w
  rintro code ⟨⟩; exact ⟨by decide, parseRequest_known _ (by decide)⟩

theorem Catalogued.setLinkConfig : ∀ u, Catalogued.Statement (.setLinkConfig u) := by
  intro u
  rintro code ⟨⟩; exact ⟨by decide, parseRequest_known _ (by decide)⟩

theorem Catalogued.readRackLink : Catalogued.Statement .readRackLink := by
  rintro code ⟨⟩; exact ⟨by decide, parseRequest_known _ (by decide)⟩

theorem Catalogued.save : Catalogued.Statement .save := by
  rintro code ⟨⟩; exact ⟨by decide, parseRequest_known _ (by decide)⟩

theorem Catalogued.eraseStore : Catalogued.Statement .eraseStore := by
  rintro code ⟨⟩; exact ⟨by decide, parseRequest_known _ (by decide)⟩

theorem Catalogued.readStoreState : Catalogued.Statement .readStoreState := by
  rintro code ⟨⟩; exact ⟨by decide, parseRequest_known _ (by decide)⟩

theorem Catalogued.saveOperationEnd : ∀ u, Catalogued.Statement (.saveOperationEnd u) := by
  intros; rintro code ⟨⟩

theorem Catalogued.eraseOperationEnd : Catalogued.Statement .eraseOperationEnd := by
  rintro code ⟨⟩

theorem Catalogued.fadeTick : Catalogued.Statement .fadeTick := by
  rintro code ⟨⟩

theorem Catalogued.fadeComplete : ∀ u v, Catalogued.Statement (.fadeComplete u v) := by
  intros; rintro code ⟨⟩

theorem Catalogued.handoverEnd : ∀ u, Catalogued.Statement (.handoverEnd u) := by
  intros; rintro code ⟨⟩

theorem Catalogued.nextExchange : ∀ u, Catalogued.Statement (.nextExchange u) := by
  intros; rintro code ⟨⟩

theorem Catalogued.exchangeSent : ∀ u, Catalogued.Statement (.exchangeSent u) := by
  intros; rintro code ⟨⟩

theorem Catalogued.collision : ∀ u, Catalogued.Statement (.collision u) := by
  intros; rintro code ⟨⟩

theorem Catalogued.reply : ∀ u v, Catalogued.Statement (.reply u v) := by
  intros; rintro code ⟨⟩

theorem Catalogued.replyWindowEnd : ∀ u, Catalogued.Statement (.replyWindowEnd u) := by
  intros; rintro code ⟨⟩

theorem Catalogued.lineBreak : ∀ u, Catalogued.Statement (.lineBreak u) := by
  intros; rintro code ⟨⟩

theorem Catalogued.faultRecovery : ∀ u, Catalogued.Statement (.faultRecovery u) := by
  intros; rintro code ⟨⟩

theorem Catalogued.acceptedClose : ∀ u, Catalogued.Statement (.acceptedClose u) := by
  intros; rintro code ⟨⟩

theorem Catalogued.holdTimeReached : ∀ u, Catalogued.Statement (.holdTimeReached u) := by
  intros; rintro code ⟨⟩

theorem Catalogued.stuckTimeReached : ∀ u, Catalogued.Statement (.stuckTimeReached u) := by
  intros; rintro code ⟨⟩

theorem Catalogued.acceptedOpen : ∀ u, Catalogued.Statement (.acceptedOpen u) := by
  intros; rintro code ⟨⟩

theorem Catalogued.maintainedChange : ∀ u v, Catalogued.Statement (.maintainedChange u v) := by
  intros; rintro code ⟨⟩

theorem Catalogued.safeAssert : ∀ u, Catalogued.Statement (.safeAssert u) := by
  intros; rintro code ⟨⟩

theorem Catalogued.safeDeassert : ∀ u, Catalogued.Statement (.safeDeassert u) := by
  intros; rintro code ⟨⟩

theorem Catalogued.cueEvent : ∀ u, Catalogued.Statement (.cueEvent u) := by
  intros; rintro code ⟨⟩

theorem Catalogued.frameStart : Catalogued.Statement .frameStart := by
  rintro code ⟨⟩

theorem Catalogued.frameEnd : Catalogued.Statement .frameEnd := by
  rintro code ⟨⟩

theorem Catalogued.contactSample : ∀ u v, Catalogued.Statement (.contactSample u v) := by
  intros; rintro code ⟨⟩

theorem Catalogued.supplyLost : Catalogued.Statement .supplyLost := by
  rintro code ⟨⟩

theorem Catalogued.roundWaitEnd : ∀ u, Catalogued.Statement (.roundWaitEnd u) := by
  intros; rintro code ⟨⟩

end Sys2Proof.Laws
end

