-- ==== Sys2Proof/Laws/Pins.lean ====
section
/-!
SUPPORT. What the output pins of the rack link and of the lines can do.
-/
namespace Sys2Proof.Machine

/-- RTX is at the mark level while the link is Off (R139). -/
theorem rtxLevel_off {s : State} (h : s.link.sending = false) (bit : Nat) : s.rtxLevel bit = true := by
  simp [State.rtxLevel, h]

/-- RTX follows the frame in flight while the link is Sending, and is at the mark level where the frame has no bit (R139, R140). -/
theorem rtxLevel_sending {s : State} (h : s.link.sending = true) (bit : Nat) : s.rtxLevel bit = s.rtx[bit]?.getD true := by
  simp [State.rtxLevel, h]

/-- Nothing is on RTX where no frame is in flight (R139). -/
theorem rtx_between {s : State} (h : s.link.frame = none) : s.rtx = [] := by
  simp [State.rtx, h]

/-- When a line's driver is enabled (log 40). -/
theorem driverEnabled_iff (l : Line) (s : State) :
    s.driverEnabled l = true ↔ s.phase = .running ∧ (s.line l).state = .running ∧ ∃ x, (s.line l).exchange = some x ∧ x.sent = false := by
  cases h : (s.line l).exchange <;> simp [State.driverEnabled, LineCtl.sends, h]

/-- A part that does not run enables no driver (R98, R160). -/
theorem driverEnabled_other {s : State} (h : s.phase ≠ .running) (l : Line) : s.driverEnabled l = false := by
  simp [State.driverEnabled, h]

/-- A line with no exchange in flight enables no driver. -/
theorem driverEnabled_quiet {s : State} {l : Line} (h : (s.line l).exchange = none) : s.driverEnabled l = false := by
  simp [State.driverEnabled, LineCtl.sends, h]

/-- A line whose exchange is all sent enables no driver (R105). -/
theorem driverEnabled_sent {s : State} {l : Line} {x : Exchange} (h : (s.line l).exchange = some x) (hs : x.sent = true) :
    s.driverEnabled l = false := by
  simp [State.driverEnabled, LineCtl.sends, h, hs]

/-- What is on TXA or TXB while an exchange is sent (R102, R162). -/
theorem tx_sending {s : State} {l : Line} {x : Exchange} (h : s.driverEnabled l = true) (hx : (s.line l).exchange = some x) :
    s.tx l = x.chars.flatMap TxChar.bits := by
  simp [State.tx, h, hx]

/-- Nothing is on TXA or TXB while the driver is disabled. -/
theorem tx_disabled {s : State} {l : Line} (h : s.driverEnabled l = false) : s.tx l = [] := by
  simp [State.tx, h]

end Sys2Proof.Machine
end

