-- ==== Sys2Proof/Laws/Port.lean ====
section
/-!
SUPPORT. What the port's operations can do: accepting a request, placing a reply, and a request carried to its completion (R148, R149).
-/
namespace Sys2Proof.Machine

/-! ### `answer` touches the port alone -/

@[simp] theorem answer_phase (s : State) (e : Byte) (r : ResultCode) (p : List Byte) : (s.answer e r p).phase = s.phase := rfl
@[simp] theorem answer_resetLow (s : State) (e : Byte) (r : ResultCode) (p : List Byte) : (s.answer e r p).resetLow = s.resetLow := rfl
@[simp] theorem answer_startCause (s : State) (e : Byte) (r : ResultCode) (p : List Byte) : (s.answer e r p).startCause = s.startCause := rfl
@[simp] theorem answer_circuits (s : State) (e : Byte) (r : ResultCode) (p : List Byte) : (s.answer e r p).circuits = s.circuits := rfl
@[simp] theorem answer_slots (s : State) (e : Byte) (r : ResultCode) (p : List Byte) : (s.answer e r p).slots = s.slots := rfl
@[simp] theorem answer_index (s : State) (e : Byte) (r : ResultCode) (p : List Byte) : (s.answer e r p).index = s.index := rfl
@[simp] theorem answer_groups (s : State) (e : Byte) (r : ResultCode) (p : List Byte) : (s.answer e r p).groups = s.groups := rfl
@[simp] theorem answer_scenes (s : State) (e : Byte) (r : ResultCode) (p : List Byte) : (s.answer e r p).scenes = s.scenes := rfl
@[simp] theorem answer_mode (s : State) (e : Byte) (r : ResultCode) (p : List Byte) : (s.answer e r p).mode = s.mode := rfl
@[simp] theorem answer_options (s : State) (e : Byte) (r : ResultCode) (p : List Byte) : (s.answer e r p).options = s.options := rfl
@[simp] theorem answer_lineA (s : State) (e : Byte) (r : ResultCode) (p : List Byte) : (s.answer e r p).lineA = s.lineA := rfl
@[simp] theorem answer_lineB (s : State) (e : Byte) (r : ResultCode) (p : List Byte) : (s.answer e r p).lineB = s.lineB := rfl
@[simp] theorem answer_inputs (s : State) (e : Byte) (r : ResultCode) (p : List Byte) : (s.answer e r p).inputs = s.inputs := rfl
@[simp] theorem answer_safe1 (s : State) (e : Byte) (r : ResultCode) (p : List Byte) : (s.answer e r p).safe1 = s.safe1 := rfl
@[simp] theorem answer_safe2 (s : State) (e : Byte) (r : ResultCode) (p : List Byte) : (s.answer e r p).safe2 = s.safe2 := rfl
@[simp] theorem answer_cue1 (s : State) (e : Byte) (r : ResultCode) (p : List Byte) : (s.answer e r p).cue1 = s.cue1 := rfl
@[simp] theorem answer_cue2 (s : State) (e : Byte) (r : ResultCode) (p : List Byte) : (s.answer e r p).cue2 = s.cue2 := rfl
@[simp] theorem answer_settleSamples (s : State) (e : Byte) (r : ResultCode) (p : List Byte) : (s.answer e r p).settleSamples = s.settleSamples := rfl
@[simp] theorem answer_stage1 (s : State) (e : Byte) (r : ResultCode) (p : List Byte) : (s.answer e r p).stage1 = s.stage1 := rfl
@[simp] theorem answer_stage2 (s : State) (e : Byte) (r : ResultCode) (p : List Byte) : (s.answer e r p).stage2 = s.stage2 := rfl
@[simp] theorem answer_ignored1 (s : State) (e : Byte) (r : ResultCode) (p : List Byte) : (s.answer e r p).ignored1 = s.ignored1 := rfl
@[simp] theorem answer_ignored2 (s : State) (e : Byte) (r : ResultCode) (p : List Byte) : (s.answer e r p).ignored2 = s.ignored2 := rfl
@[simp] theorem answer_link (s : State) (e : Byte) (r : ResultCode) (p : List Byte) : (s.answer e r p).link = s.link := rfl
@[simp] theorem answer_store (s : State) (e : Byte) (r : ResultCode) (p : List Byte) : (s.answer e r p).store = s.store := rfl
@[simp] theorem answer_spi (s : State) (e : Byte) (r : ResultCode) (p : List Byte) : (s.answer e r p).spi = s.spi := rfl
@[simp] theorem answer_sdo (s : State) (e : Byte) (r : ResultCode) (p : List Byte) : (s.answer e r p).sdo = s.sdo := rfl
@[simp] theorem answer_pending (s : State) (e : Byte) (r : ResultCode) (p : List Byte) : (s.answer e r p).pending = s.pending := rfl

/-! ### `accept` touches the port alone -/

@[simp] theorem accept_phase (s : State) (i : Instr) : (s.accept i).phase = s.phase := rfl
@[simp] theorem accept_resetLow (s : State) (i : Instr) : (s.accept i).resetLow = s.resetLow := rfl
@[simp] theorem accept_startCause (s : State) (i : Instr) : (s.accept i).startCause = s.startCause := rfl
@[simp] theorem accept_circuits (s : State) (i : Instr) : (s.accept i).circuits = s.circuits := rfl
@[simp] theorem accept_slots (s : State) (i : Instr) : (s.accept i).slots = s.slots := rfl
@[simp] theorem accept_index (s : State) (i : Instr) : (s.accept i).index = s.index := rfl
@[simp] theorem accept_groups (s : State) (i : Instr) : (s.accept i).groups = s.groups := rfl
@[simp] theorem accept_scenes (s : State) (i : Instr) : (s.accept i).scenes = s.scenes := rfl
@[simp] theorem accept_mode (s : State) (i : Instr) : (s.accept i).mode = s.mode := rfl
@[simp] theorem accept_options (s : State) (i : Instr) : (s.accept i).options = s.options := rfl
@[simp] theorem accept_lineA (s : State) (i : Instr) : (s.accept i).lineA = s.lineA := rfl
@[simp] theorem accept_lineB (s : State) (i : Instr) : (s.accept i).lineB = s.lineB := rfl
@[simp] theorem accept_inputs (s : State) (i : Instr) : (s.accept i).inputs = s.inputs := rfl
@[simp] theorem accept_safe1 (s : State) (i : Instr) : (s.accept i).safe1 = s.safe1 := rfl
@[simp] theorem accept_safe2 (s : State) (i : Instr) : (s.accept i).safe2 = s.safe2 := rfl
@[simp] theorem accept_cue1 (s : State) (i : Instr) : (s.accept i).cue1 = s.cue1 := rfl
@[simp] theorem accept_cue2 (s : State) (i : Instr) : (s.accept i).cue2 = s.cue2 := rfl
@[simp] theorem accept_settleSamples (s : State) (i : Instr) : (s.accept i).settleSamples = s.settleSamples := rfl
@[simp] theorem accept_stage1 (s : State) (i : Instr) : (s.accept i).stage1 = s.stage1 := rfl
@[simp] theorem accept_stage2 (s : State) (i : Instr) : (s.accept i).stage2 = s.stage2 := rfl
@[simp] theorem accept_ignored1 (s : State) (i : Instr) : (s.accept i).ignored1 = s.ignored1 := rfl
@[simp] theorem accept_ignored2 (s : State) (i : Instr) : (s.accept i).ignored2 = s.ignored2 := rfl
@[simp] theorem accept_link (s : State) (i : Instr) : (s.accept i).link = s.link := rfl
@[simp] theorem accept_store (s : State) (i : Instr) : (s.accept i).store = s.store := rfl
@[simp] theorem accept_spi (s : State) (i : Instr) : (s.accept i).spi = s.spi := rfl
@[simp] theorem accept_sdo (s : State) (i : Instr) : (s.accept i).sdo = s.sdo := rfl
@[simp] theorem accept_pending (s : State) (i : Instr) : (s.accept i).pending = s.pending := rfl

/-! ### `raise` touches the port alone -/

@[simp] theorem raise_phase (s : State) (f : Flag) : (s.raise f).phase = s.phase := rfl
@[simp] theorem raise_resetLow (s : State) (f : Flag) : (s.raise f).resetLow = s.resetLow := rfl
@[simp] theorem raise_startCause (s : State) (f : Flag) : (s.raise f).startCause = s.startCause := rfl
@[simp] theorem raise_circuits (s : State) (f : Flag) : (s.raise f).circuits = s.circuits := rfl
@[simp] theorem raise_slots (s : State) (f : Flag) : (s.raise f).slots = s.slots := rfl
@[simp] theorem raise_index (s : State) (f : Flag) : (s.raise f).index = s.index := rfl
@[simp] theorem raise_groups (s : State) (f : Flag) : (s.raise f).groups = s.groups := rfl
@[simp] theorem raise_scenes (s : State) (f : Flag) : (s.raise f).scenes = s.scenes := rfl
@[simp] theorem raise_mode (s : State) (f : Flag) : (s.raise f).mode = s.mode := rfl
@[simp] theorem raise_options (s : State) (f : Flag) : (s.raise f).options = s.options := rfl
@[simp] theorem raise_lineA (s : State) (f : Flag) : (s.raise f).lineA = s.lineA := rfl
@[simp] theorem raise_lineB (s : State) (f : Flag) : (s.raise f).lineB = s.lineB := rfl
@[simp] theorem raise_inputs (s : State) (f : Flag) : (s.raise f).inputs = s.inputs := rfl
@[simp] theorem raise_safe1 (s : State) (f : Flag) : (s.raise f).safe1 = s.safe1 := rfl
@[simp] theorem raise_safe2 (s : State) (f : Flag) : (s.raise f).safe2 = s.safe2 := rfl
@[simp] theorem raise_cue1 (s : State) (f : Flag) : (s.raise f).cue1 = s.cue1 := rfl
@[simp] theorem raise_cue2 (s : State) (f : Flag) : (s.raise f).cue2 = s.cue2 := rfl
@[simp] theorem raise_settleSamples (s : State) (f : Flag) : (s.raise f).settleSamples = s.settleSamples := rfl
@[simp] theorem raise_stage1 (s : State) (f : Flag) : (s.raise f).stage1 = s.stage1 := rfl
@[simp] theorem raise_stage2 (s : State) (f : Flag) : (s.raise f).stage2 = s.stage2 := rfl
@[simp] theorem raise_ignored1 (s : State) (f : Flag) : (s.raise f).ignored1 = s.ignored1 := rfl
@[simp] theorem raise_ignored2 (s : State) (f : Flag) : (s.raise f).ignored2 = s.ignored2 := rfl
@[simp] theorem raise_link (s : State) (f : Flag) : (s.raise f).link = s.link := rfl
@[simp] theorem raise_store (s : State) (f : Flag) : (s.raise f).store = s.store := rfl
@[simp] theorem raise_spi (s : State) (f : Flag) : (s.raise f).spi = s.spi := rfl
@[simp] theorem raise_sdo (s : State) (f : Flag) : (s.raise f).sdo = s.sdo := rfl
@[simp] theorem raise_pending (s : State) (f : Flag) : (s.raise f).pending = s.pending := rfl

/-- The port after a reply is placed (R149). -/
@[simp] theorem answer_port (s : State) (e : Byte) (r : ResultCode) (p : List Byte) :
    (s.answer e r p).port = { s.port with slot := some ⟨e, r, p⟩, state := .done, request := none } := rfl

/-- The port after a request is accepted (R148). -/
@[simp] theorem accept_port (s : State) (i : Instr) :
    (s.accept i).port = { s.port with slot := none, state := .working, request := some i } := rfl

/-- The port after a flag is raised (R152). -/
@[simp] theorem raise_port (s : State) (f : Flag) : (s.raise f).port = { s.port with flags := s.port.flags ||| f.only } := rfl

/-- A request that the port serves is carried out by its owner on the state in which it was accepted, and answered (R149). -/
theorem complete_of_serves {i : Instr} {s : State} (h : s.Serves i) (owner : State → Carried) :
    s.complete i owner
      = (owner (s.accept i)).state.answer (requestEcho i) (owner (s.accept i)).result (owner (s.accept i)).payload := by
  obtain ⟨hp, hw⟩ := h
  unfold State.complete State.requestStep State.whenSelFree
  rw [hp]
  simp only
  split at hw
  · next hd => rw [if_pos hd, if_pos hw]
  · next hd => rw [if_neg hd, hw]; rfl

/-- While start-up runs, a request is answered STARTING (R148). -/
theorem complete_settling {s : State} (h : s.phase = .settling) (hs : s.spi = none) (i : Instr) (owner : State → Carried) :
    s.complete i owner = s.answer (requestEcho i) .starting [] := by
  unfold State.complete State.requestStep State.whenSelFree; rw [h, hs]; rfl

/-- In Working on another request, a request is discarded (R148). -/
theorem complete_working {s : State} {i : Instr} (h : s.phase = .running) (hw : s.port.state = .working) (hs : s.spi = none)
    (hi : s.port.request ≠ some i) (owner : State → Carried) : s.complete i owner = s.discardRequest := by
  unfold State.complete State.requestStep State.whenSelFree; rw [h]; simp [hw, hi, hs]

/-- A request row finds no occasion for a frame of its own while another transaction is in progress (log 31). -/
theorem complete_busy {s : State} {i : Instr} (hs : s.spi ≠ none) (hi : s.port.request ≠ some i) (owner : State → Carried) :
    s.complete i owner = s := by
  have h : s.spi.isSome = true := Option.isSome_iff_ne_none.mpr hs
  unfold State.complete State.requestStep State.whenSelFree
  cases s.phase <;> simp [h, hi]

/-- While the store is busy, a write of a stored table is refused before any other check (R157). -/
theorem storedWrite_busy {s : State} (h : s.store.state ≠ .ready) (owner : State → Carried) :
    State.storedWrite owner s = s.refuse .storeBusy := by simp [State.storedWrite, State.storeBusy, h]

/-- In Ready, its owner judges it. -/
theorem storedWrite_ready {s : State} (h : s.store.state = .ready) (owner : State → Carried) :
    State.storedWrite owner s = owner s := by simp [State.storedWrite, State.storeBusy, h]

/-- An arrival at a running part. -/
theorem whenRunning_running {s : State} (h : s.phase = .running) (f : State → State) : s.whenRunning f = f s := by
  simp [State.whenRunning, h]

/-- An arrival that only a running part takes, at one that does not run. -/
theorem whenRunning_other {s : State} (h : s.phase ≠ .running) (f : State → State) : s.whenRunning f = s := by
  simp [State.whenRunning, h]

@[simp] theorem refuse_state (s : State) (r : ResultCode) : (s.refuse r).state = s := rfl
@[simp] theorem refuse_result (s : State) (r : ResultCode) : (s.refuse r).result = r := rfl
@[simp] theorem refuse_payload (s : State) (r : ResultCode) : (s.refuse r).payload = [] := rfl
@[simp] theorem done_state (s : State) (p : List Byte) : (s.done p).state = s := rfl
@[simp] theorem done_result (s : State) (p : List Byte) : (s.done p).result = .ok := rfl
@[simp] theorem done_payload (s : State) (p : List Byte) : (s.done p).payload = p := rfl

end Sys2Proof.Machine
end

