-- ==== Sys2Proof/Laws/Startup.lean ====
section
/-!
SUPPORT. What start-up can do (R160): each of its steps as one update of the state, which says at once what it sets and that it sets nothing else.
-/
namespace Sys2Proof.Machine

/-- Step 1, less the start cause. -/
theorem quiesce_eq (s : State) : s.quiesce = { s with
    port := { s.port with state := .starting, slot := none, request := none, overrun := false, flags := 0 }
    link := { s.link with sending := false, nextStart := none, frame := none, owed := false }
    lineA := s.lineA.quiet, lineB := s.lineB.quiet, circuits := s.circuits.map fun c => Circuit.bare c.cfg
    store := { s.store with state := .ready, copy := none } } := by
  simp only [State.quiesce, State.withPort, State.withLink, State.withLineA, State.withLineB, State.mapCircuits, State.withCircuits,
    State.withStore]

/-- The part stopped, held or without supply. -/
theorem stop_eq (p : Phase) (s : State) : s.stop p = { s with
    port := { s.port with state := .starting, slot := none, request := none, overrun := false, flags := 0 }
    link := { s.link with sending := false, nextStart := none, frame := none, owed := false }
    lineA := s.lineA.quiet, lineB := s.lineB.quiet, circuits := s.circuits.map fun c => Circuit.bare c.cfg
    store := { s.store with state := .ready, copy := none }, spi := none, phase := p } := by
  simp only [State.stop, quiesce_eq, State.withSpi, State.withPhase]

/-- Step 2 for given tables. -/
theorem loadTables_eq (t : Stored) (s : State) : s.loadTables t = { s with
    circuits := t.circuits.map Circuit.bare, slots := t.slots, index := buildIndex t.slots, groups := t.groups, scenes := t.scenes
    options := t.options, lineA := LineCtl.load t.lineA, lineB := LineCtl.load t.lineB
    inputs := t.inputs.map fun c => ⟨c, Pin.unsettled, .unused, 0⟩
    cue1 := ⟨t.edge1, Pin.unsettled⟩, cue2 := ⟨t.edge2, Pin.unsettled⟩
    link := { s.link with period := t.period }, port := { s.port with mask := t.mask } } := by
  simp only [State.loadTables, State.withCircuits, State.withSlots, State.withIndex, State.withGroups, State.withScenes, State.withOptions,
    State.withLineA, State.withLineB, State.withInputs, State.withCue1, State.withCue2, State.withLink, State.withPort]

/-- Step 3, and step 4 begun. -/
theorem clearLive_eq (s : State) : s.clearLive = { s with
    stage1 := Stage.reset, stage2 := Stage.reset, ignored1 := 0, ignored2 := 0, link := { s.link with late := 0 }
    safe1 := Pin.unsettled, safe2 := Pin.unsettled, settleSamples := 0, phase := .settling } := by
  simp only [State.clearLive, State.withStage1, State.withStage2, State.withIgnored1, State.withIgnored2, State.withLink, State.withSafe1,
    State.withSafe2, State.withSettleSamples, State.withPhase]

/-- Step 2: the tables of the valid image, or the blank defaults with STORE_BLANK. -/
theorem load_eq (s : State) : s.load = { s.loadTables (s.store.image.getD Stored.blank) with
    store := { s.store with valid := s.store.image.isSome }
    port := { s.port with
      mask := (s.store.image.getD Stored.blank).mask
      flags := if s.store.image.isSome then s.port.flags else s.port.flags ||| Flag.storeBlank.only } } := by
  cases h : s.store.image with
  | some t => simp only [State.load, h, loadTables_eq, State.withStore, Option.getD_some, Option.isSome_some, if_true]
  | none =>
    simp only [State.load, h, loadTables_eq, State.withStore, State.raise, Port.raise, State.withPort, Option.getD_none, Option.isSome_none,
      Bool.false_eq_true, if_false]

/-- A start-up arrival: steps 1 to 3, and step 4 begun. The queue, the RESET pin, the house mode, a transaction in progress and what SDO has
carried are as they were (log 31, log 32). -/
theorem startUp_eq (cause : StartCause) (s : State) (t : Stored) (h : t = s.store.image.getD Stored.blank) : s.startUp cause = { s with
    startCause := cause, phase := .settling
    circuits := t.circuits.map Circuit.bare, slots := t.slots, index := buildIndex t.slots, groups := t.groups, scenes := t.scenes
    options := t.options, lineA := LineCtl.load t.lineA, lineB := LineCtl.load t.lineB
    inputs := t.inputs.map fun c => ⟨c, Pin.unsettled, .unused, 0⟩
    safe1 := Pin.unsettled, safe2 := Pin.unsettled, cue1 := ⟨t.edge1, Pin.unsettled⟩, cue2 := ⟨t.edge2, Pin.unsettled⟩, settleSamples := 0
    stage1 := Stage.reset, stage2 := Stage.reset, ignored1 := 0, ignored2 := 0
    link := { s.link with sending := false, nextStart := none, frame := none, owed := false, period := t.period, late := 0 }
    port := { s.port with
      state := .starting, slot := none, request := none, overrun := false, mask := t.mask
      flags := if s.store.image.isSome then 0 else Flag.storeBlank.only }
    store := { s.store with state := .ready, valid := s.store.image.isSome, copy := none } } := by
  subst h
  have hi : { s.store with state := .ready, copy := none }.image = s.store.image := image_of_memory rfl
  have hz : (0 : BitVec 13) ||| Flag.storeBlank.only = Flag.storeBlank.only := by decide
  simp only [State.startUp, quiesce_eq, load_eq, loadTables_eq, clearLive_eq, State.withStartCause, hi, hz]

/-- The adoption of the settled inputs (R122). -/
theorem adoptInputs_eq (s : State) : s.adoptInputs = { s with
    inputs := s.inputs.map fun x => ContactInput.adopt { x with pin := x.pin.settledAt } .stuck
    safe1 := s.safe1.safeSettled, safe2 := s.safe2.safeSettled, settleSamples := 0
    cue1 := { s.cue1 with pin := s.cue1.pin.settledAt }, cue2 := { s.cue2 with pin := s.cue2.pin.settledAt }
    port := if (s.inputs.map fun x => ContactInput.adopt { x with pin := x.pin.settledAt } .stuck).any fun x => decide (x.state = .stuck)
      then s.port.raise .inputStuck else s.port } := by
  simp only [State.adoptInputs]
  split <;> simp only [State.withInputs, State.withSettleSamples, State.withSafe1, State.withSafe2, State.withCue1, State.withCue2,
    State.raise, State.withPort]

/-- Step 7 (R98, R139, R148). -/
theorem beginRunning_eq (s : State) : s.beginRunning = { s with
    phase := .running, lineA := s.lineA.start, lineB := s.lineB.start
    link := { s.link with
      sending := true, frame := some (rackFrame s.circuits), inUse := s.link.period, nextStart := some s.link.period, owed := false }
    port := s.port.beginRunning.raise .started } := by
  simp only [State.beginRunning, State.startFrame, State.withLink, State.withLineA, State.withLineB, State.withPort, State.withPhase,
    State.raise]

/-- The end of step 4 and steps 5 to 7 (R85, R122, R160). -/
theorem endSettling_eq (s : State) : s.endSettling = { s.adoptInputs with
    phase := .running, mode := s.options.startMode
    circuits := (s.circuits.map (Circuit.makeBase s.options.startMode)).map (Circuit.makeSafe s.adoptInputs.asserted)
    lineA := s.lineA.start, lineB := s.lineB.start
    link := { s.link with
      sending := true, inUse := s.link.period, nextStart := some s.link.period, owed := false
      frame := some (rackFrame ((s.circuits.map (Circuit.makeBase s.options.startMode)).map (Circuit.makeSafe s.adoptInputs.asserted))) }
    port := s.adoptInputs.port.beginRunning.raise .started } := by
  simp only [State.endSettling, State.startMode, State.startSafe, beginRunning_eq, State.withMode, State.mapCircuits, State.withCircuits,
    adoptInputs_eq, State.asserted]

end Sys2Proof.Machine
end

