-- ==== Sys2Proof/Laws/Tables.lean ====
section
/-!
SUPPORT. What the table operations can do: ascending lists, slots, stage lists and poll lists.
-/
namespace Sys2Proof.Machine

/-! ## Ascending lists -/

/-- What stands in a list after an insertion. -/
theorem mem_insertAscending (n m : Nat) (l : List Nat) : m ∈ insertAscending n l ↔ m = n ∨ m ∈ l := by
  induction l with
  | nil => simp [insertAscending]
  | cons x l ih =>
    unfold insertAscending
    split
    · simp
    · split
      · next h => subst h; simp
      · simp [ih]; tauto

/-- An insertion keeps a list ascending. -/
theorem insertAscending_ascending (n : Nat) (l : List Nat) (h : l.Pairwise (· < ·)) : (insertAscending n l).Pairwise (· < ·) := by
  induction l with
  | nil => simp [insertAscending]
  | cons x l ih =>
    have hx := List.pairwise_cons.mp h
    unfold insertAscending
    split
    · next hlt =>
      refine List.pairwise_cons.mpr ⟨?_, h⟩
      intro a ha
      rcases List.mem_cons.mp ha with rfl | ha
      · exact hlt
      · exact hlt.trans (hx.1 a ha)
    · split
      · exact h
      · next h1 h2 =>
        refine List.pairwise_cons.mpr ⟨?_, ih hx.2⟩
        intro a ha
        rcases (mem_insertAscending n a l).mp ha with rfl | ha
        · omega
        · exact hx.1 a ha

@[simp] theorem insertAscending_ne_nil (n : Nat) (l : List Nat) : insertAscending n l ≠ [] := by
  intro h
  have : n ∈ insertAscending n l := (mem_insertAscending n n l).mpr (.inl rfl)
  simp [h] at this

/-! ## Slots -/

/-- Reading a slot after a slot was written. -/
theorem slotAt_set (slots : List Slot) (n m : Nat) (x : Slot) :
    slotAt (slots.set n x) m = if m = n ∧ n < slots.length then x else slotAt slots m := by
  unfold slotAt
  simp only [List.getD_eq_getElem?_getD, List.getElem?_set]
  by_cases h : n = m
  · subst h
    by_cases hl : n < slots.length
    · simp [hl]
    · simp [hl]
  · have h' : m ≠ n := fun e => h e.symm
    simp [h, h']

/-! ## Stage lists (R129) -/

/-- What stands in a stage's list after an entry: the new one for its circuit, and the old ones of the other circuits. -/
theorem mem_putEntry (c : Nat) (e : StageForm) (l : List (Nat × StageForm)) (h : (l.map (·.1)).Pairwise (· < ·)) (x : Nat × StageForm) :
    x ∈ putEntry c e l ↔ x = (c, e) ∨ x ∈ l ∧ x.1 ≠ c := by
  induction l with
  | nil => simp [putEntry]
  | cons y l ih =>
    simp only [List.map_cons, List.pairwise_cons] at h
    have hy : ∀ z ∈ l, y.1 < z.1 := fun z hz => h.1 z.1 (List.mem_map_of_mem hz)
    unfold putEntry
    split
    · next hlt =>
      have hz : ∀ z ∈ y :: l, z.1 ≠ c := by
        intro z hz
        rcases List.mem_cons.mp hz with rfl | hz
        · omega
        · have := hy z hz; omega
      constructor
      · intro hx
        rcases List.mem_cons.mp hx with rfl | hx
        · exact .inl rfl
        · exact .inr ⟨hx, hz x hx⟩
      · rintro (rfl | ⟨hx, _⟩)
        · simp
        · exact List.mem_cons_of_mem _ hx
    · split
      · next _ heq =>
        constructor
        · intro hx
          rcases List.mem_cons.mp hx with rfl | hx
          · exact .inl rfl
          · have := hy x hx
            exact .inr ⟨List.mem_cons_of_mem _ hx, by omega⟩
        · rintro (rfl | ⟨hx, hne⟩)
          · simp
          · rcases List.mem_cons.mp hx with rfl | hx
            · exact absurd heq.symm hne
            · exact List.mem_cons_of_mem _ hx
      · next h1 h2 =>
        rw [List.mem_cons, ih h.2, List.mem_cons]
        constructor
        · rintro (rfl | rfl | ⟨hx, hne⟩)
          · exact .inr ⟨.inl rfl, fun e => h2 e.symm⟩
          · exact .inl rfl
          · exact .inr ⟨.inr hx, hne⟩
        · rintro (rfl | ⟨rfl | hx, hne⟩)
          · exact .inr (.inl rfl)
          · exact .inl rfl
          · exact .inr (.inr ⟨hx, hne⟩)

/-! ## Poll lists (R109) -/

/-- What stands in a poll list after an enrolment. -/
theorem mem_insertStation (r x : Station) (l : List Station) : x ∈ insertStation r l ↔ x = r ∨ x ∈ l := by
  induction l with
  | nil => simp [insertStation]
  | cons y l ih =>
    unfold insertStation
    split
    · simp
    · simp [ih]; tauto

@[simp] theorem insertStation_length (r : Station) (l : List Station) : (insertStation r l).length = l.length + 1 := by
  induction l with
  | nil => rfl
  | cons y l ih =>
    unfold insertStation
    split <;> simp_all

/-! ## Lists of circuits (R73) -/

/-- The circuits some pairs name (R73). -/
theorem mem_unionOf (ranges : List (Nat × Nat)) (c : Nat) :
    c ∈ unionOf ranges ↔ (1 ≤ c ∧ c ≤ Config.circuits) ∧ ∃ r ∈ ranges, min r.1 r.2 ≤ c ∧ c ≤ max r.1 r.2 := by
  unfold unionOf allCircuits rangeCovers
  simp only [List.mem_filter, List.mem_range'_1, List.any_eq_true, Bool.and_eq_true, decide_eq_true_eq]
  constructor
  · rintro ⟨⟨h1, h2⟩, h⟩; exact ⟨⟨h1, by omega⟩, h⟩
  · rintro ⟨⟨h1, h2⟩, h⟩; exact ⟨⟨h1, by simp only [Config.circuits] at *; omega⟩, h⟩

end Sys2Proof.Machine
end

