-- ==== Sys2Proof/Laws/Transfer.lean ====
section
/-!
SUPPORT. What a transaction can do (R146, R150): while SEL is low, clocking touches the transaction and SDO alone; bits may be clocked in
pieces; a whole byte is its eight bits, most significant first; and what SDO carries in the whole of each kind of transaction.
-/
namespace Sys2Proof.Machine

/-! ### Bits and bytes -/

@[simp] theorem msbFirst_length (b : Byte) : (msbFirst b).length = 8 := rfl

/-- The bits of a byte, written out. -/
theorem msbFirst_eq (b : Byte) :
    msbFirst b = [b.getLsbD 7, b.getLsbD 6, b.getLsbD 5, b.getLsbD 4, b.getLsbD 3, b.getLsbD 2, b.getLsbD 1, b.getLsbD 0] := rfl

/-- The bits of a byte make the byte again. -/
@[simp] theorem byteOf_msbFirst : ∀ b : Byte, byteOf (msbFirst b) = b := by decide +kernel

@[simp] theorem spiBits_nil : spiBits [] = [] := rfl

@[simp] theorem spiBits_cons (b : Byte) (l : List Byte) : spiBits (b :: l) = msbFirst b ++ spiBits l := rfl

@[simp] theorem spiBits_append (l m : List Byte) : spiBits (l ++ m) = spiBits l ++ spiBits m := List.flatMap_append

/-- SDI carries 0 in a fetch. -/
theorem spiBits_zeros (n : Nat) : spiBits (List.replicate n 0) = List.replicate (8 * n) false := by
  induction n with
  | zero => rfl
  | succ n ih => rw [List.replicate_succ, spiBits_cons, ih, Nat.mul_succ, Nat.add_comm, List.replicate_add]; rfl

/-! ### SEL falls, and bits are clocked -/

/-- SEL falls at a port with no transaction in progress. -/
theorem fallSel_of_none {s : State} (h : s.spi = none) : s.fallSel = { s with spi := some ⟨[], none, false, none⟩, sdo := [] } := by
  simp [State.fallSel, h, State.withSpi, State.withSdo]

/-- SEL is low already. -/
theorem fallSel_of_some {s : State} {x : Transfer} (h : s.spi = some x) : s.fallSel = s := by simp [State.fallSel, h]

@[simp] theorem clockBits_nil (s : State) : s.clockBits [] = s := rfl

@[simp] theorem clockBits_cons (b : Bool) (l : List Bool) (s : State) : s.clockBits (b :: l) = (s.clockBit b).clockBits l := rfl

/-- Bits may be clocked in pieces. -/
theorem clockBits_append (l m : List Bool) (s : State) : s.clockBits (l ++ m) = (s.clockBits l).clockBits m := List.foldl_append

/-- One bit clocked in a transaction: what it brings there, and the level SDO takes. -/
theorem clockBit_of_some {s : State} {x : Transfer} (h : s.spi = some x) (b : Bool) :
    s.clockBit b = { s with spi := some ((s.begun x).sampled b), sdo := s.sdo ++ [(s.begun x).sdoBit] } := by
  simp [State.clockBit, State.fallSck, State.riseSck, h, State.withSpi, State.withSdo]

/-- The first bit of a byte (R146, R150, R151). -/
theorem clockBit_first {s : State} {r : List Byte} {d : Option (List Byte)} {w : Bool} (h : s.spi = some ⟨r, d, w, none⟩) (b : Bool) :
    s.clockBit b = { s with
      spi := some ⟨r, if r = [fetchSelector] then s.replyDue else d, if r = [fetchSelector] then s.port.overrun else w,
        some ⟨s.sdoByte ⟨r, d, w, none⟩, [b]⟩⟩
      sdo := s.sdo ++ [(s.sdoByte ⟨r, d, w, none⟩).getLsbD 7] } := by
  rw [clockBit_of_some h]; rfl

/-- A bit within a byte that does not complete it. -/
theorem clockBit_within {s : State} {r : List Byte} {d : Option (List Byte)} {w : Bool} {o : Byte} {bits : List Bool}
    (h : s.spi = some ⟨r, d, w, some ⟨o, bits⟩⟩) (hl : bits.length < 7) (b : Bool) :
    s.clockBit b = { s with spi := some ⟨r, d, w, some ⟨o, bits ++ [b]⟩⟩, sdo := s.sdo ++ [o.getLsbD (7 - bits.length)] } := by
  have : bits.length + 1 < 8 := by omega
  rw [clockBit_of_some h]; simp [State.begun, Transfer.sampled, Transfer.sdoBit, this]

/-- The bit that completes a byte. -/
theorem clockBit_last {s : State} {r : List Byte} {d : Option (List Byte)} {w : Bool} {o : Byte} {bits : List Bool}
    (h : s.spi = some ⟨r, d, w, some ⟨o, bits⟩⟩) (hl : bits.length = 7) (b : Bool) :
    s.clockBit b = { s with spi := some ⟨r ++ [byteOf (bits ++ [b])], d, w, none⟩, sdo := s.sdo ++ [o.getLsbD 0] } := by
  rw [clockBit_of_some h]; simp [State.begun, Transfer.sampled, Transfer.sdoBit, hl]

/-- What SDO carries from a bit on is what is left of its byte; a byte that stays incomplete grows (R146). -/
theorem clockBits_within (l bits : List Bool) (r : List Byte) (d : Option (List Byte)) (w : Bool) (o : Byte) (s : State)
    (h : s.spi = some ⟨r, d, w, some ⟨o, bits⟩⟩) (hl : bits.length + l.length < 8) :
    s.clockBits l = { s with
      spi := some ⟨r, d, w, some ⟨o, bits ++ l⟩⟩, sdo := s.sdo ++ ((msbFirst o).drop bits.length).take l.length } := by
  induction l generalizing s bits with
  | nil => simp [← h]
  | cons b l ih =>
    simp only [List.length_cons] at hl
    have hd : (msbFirst o).drop bits.length = o.getLsbD (7 - bits.length) :: (msbFirst o).drop (bits.length + 1) := by
      rw [List.drop_eq_getElem_cons (by simp; omega)]; simp [msbFirst]
    rw [clockBits_cons, clockBit_within h (by omega) b, ih (bits ++ [b]) _ rfl (by simp; omega)]
    simp [hd]

/-- A whole byte clocked at the start of a byte position (R146, R150, R151). -/
theorem clockBits_byte {s : State} {r : List Byte} {d : Option (List Byte)} {w : Bool} (h : s.spi = some ⟨r, d, w, none⟩) (b : Byte) :
    s.clockBits (msbFirst b) = { s with
      spi := some ⟨r ++ [b], if r = [fetchSelector] then s.replyDue else d, if r = [fetchSelector] then s.port.overrun else w, none⟩
      sdo := s.sdo ++ msbFirst (s.sdoByte ⟨r, d, w, none⟩) } := by
  have e : msbFirst b = b.getLsbD 7 :: ((msbFirst b).drop 1).take 6 ++ [b.getLsbD 0] := rfl
  have hb : byteOf (b.getLsbD 7 :: ((msbFirst b).drop 1).take 6 ++ [b.getLsbD 0]) = b := by rw [← e, byteOf_msbFirst]
  generalize hm : ((msbFirst b).drop 1).take 6 = mid at e hb
  have hl : mid.length = 6 := by rw [← hm]; rfl
  rw [e, List.cons_append, clockBits_cons, clockBit_first h, clockBits_append, clockBits_within mid _ _ _ _ _ _ rfl (by simp [hl]),
    clockBits_cons, clockBits_nil, clockBit_last rfl (by simp [hl])]
  simp only [List.cons_append, List.nil_append, List.append_assoc] at hb ⊢
  rw [hb, hl]
  simp [msbFirst_eq]

/-- Clocking touches the transaction and SDO alone. -/
theorem clockBits_touches (l : List Bool) (s : State) :
    s.clockBits l = { s with spi := (s.clockBits l).spi, sdo := (s.clockBits l).sdo } := by
  induction l generalizing s with
  | nil => rfl
  | cons b l ih =>
    have h : s.clockBit b = { s with spi := (s.clockBit b).spi, sdo := (s.clockBit b).sdo } := by
      unfold State.clockBit State.fallSck; split <;> (unfold State.riseSck; split) <;> rfl
    rw [clockBits_cons, ih, h]

/-- There is a transaction from the fall of SEL on, whatever is clocked. -/
theorem clockBits_fallSel_spi (l : List Bool) (s : State) : ∃ x, (s.fallSel.clockBits l).spi = some x := by
  have hf : ∃ x, s.fallSel.spi = some x := by
    unfold State.fallSel
    cases h : s.spi <;> simp [State.withSpi, State.withSdo, h]
  revert hf
  generalize s.fallSel = u
  induction l generalizing u with
  | nil => exact id
  | cons b l ih => rintro ⟨x, hx⟩; exact ih _ ⟨_, by rw [clockBit_of_some hx]⟩

/-- A piece of a transaction may be cut anywhere (R146; log 31). -/
theorem shift_append (l m : List Bool) (rises : Bool) (s : State) : s.shift (l ++ m) rises = (s.shift l false).shift m rises := by
  obtain ⟨x, hx⟩ := clockBits_fallSel_spi l s
  simp [State.shift, clockBits_append, fallSel_of_some hx]

/-- A piece after which SEL is still low touches the transaction and SDO alone. -/
theorem shift_low_touches (l : List Bool) (s : State) :
    s.shift l false = { s with spi := (s.shift l false).spi, sdo := (s.shift l false).sdo } := by
  have hf : s.fallSel = { s with spi := s.fallSel.spi, sdo := s.fallSel.sdo } := by unfold State.fallSel; split <;> rfl
  simp only [State.shift, Bool.false_eq_true, if_false]
  rw [clockBits_touches, hf]

@[simp] theorem statusByte_with (s : State) (x : Option Transfer) (o : List Bool) : { s with spi := x, sdo := o }.statusByte = s.statusByte :=
  rfl

/-! ### Whole bytes of each kind of transaction -/

/-- A request transaction, from any byte after its selector: SDO carries the status byte in each further position (R146, R151). -/
theorem clockBytes_request (l rest : List Byte) (d : Option (List Byte)) (w : Bool) (s : State)
    (h : s.spi = some ⟨requestSelector :: rest, d, w, none⟩) :
    s.clockBits (spiBits l) = { s with
      spi := some ⟨requestSelector :: rest ++ l, d, w, none⟩
      sdo := s.sdo ++ spiBits (List.replicate l.length s.statusByte) } := by
  induction l generalizing s rest with
  | nil => simp [← h]
  | cons b l ih =>
    have hf : requestSelector :: rest ≠ [fetchSelector] := by simp [requestSelector, fetchSelector]
    have hb : s.clockBits (msbFirst b) = { s with
        spi := some ⟨requestSelector :: (rest ++ [b]), d, w, none⟩, sdo := s.sdo ++ msbFirst s.statusByte } := by
      rw [clockBits_byte h]; simp [State.sdoByte, hf]
    rw [spiBits_cons, clockBits_append, hb, ih (rest ++ [b]) _ rfl]
    simp [List.replicate_succ]

/-- An ignored transaction, from any byte after its first: SDO carries FFh (R146). -/
theorem clockBytes_ignored (l rest : List Byte) (first : Byte) (d : Option (List Byte)) (w : Bool) (s : State)
    (hr : first ≠ requestSelector) (hf : first ≠ fetchSelector) (h : s.spi = some ⟨first :: rest, d, w, none⟩) :
    s.clockBits (spiBits l) = { s with
      spi := some ⟨first :: rest ++ l, d, w, none⟩, sdo := s.sdo ++ spiBits (List.replicate l.length 0xFF) } := by
  induction l generalizing s rest with
  | nil => simp [← h]
  | cons b l ih =>
    have hb : s.clockBits (msbFirst b) = { s with
        spi := some ⟨first :: (rest ++ [b]), d, w, none⟩, sdo := s.sdo ++ msbFirst 0xFF } := by
      rw [clockBits_byte h]; simp [State.sdoByte, hf, hr]
    rw [spiBits_cons, clockBits_append, hb, ih (rest ++ [b]) _ rfl]
    simp [List.replicate_succ]

/-- What a fetch sends after its status byte, from a place in the reply on: the rest of the reply, then FFh (R150). -/
def replyFrom (due : Option (List Byte)) (place count : Nat) : List Byte :=
  (((due.getD []).drop place) ++ List.replicate count 0xFF).take count

theorem replyFrom_succ (due : Option (List Byte)) (place count : Nat) :
    replyFrom due place (count + 1) = (due.getD []).getD place 0xFF :: replyFrom due (place + 1) count := by
  unfold replyFrom
  generalize due.getD [] = f
  by_cases h : place < f.length
  · rw [List.drop_eq_getElem_cons h]
    simp only [List.cons_append, List.take_succ_cons, List.getD, List.getElem?_eq_getElem h, Option.getD_some, List.take_append,
      List.take_replicate]
    congr 3; omega
  · rw [List.drop_of_length_le (by omega), List.drop_of_length_le (by omega)]
    simp [List.getD, List.getElem?_eq_none (by omega : f.length ≤ place), List.replicate_succ]

/-- A fetch, from any byte after its status byte on (R150). -/
theorem clockBytes_fetch (l rest : List Byte) (b0 : Byte) (d : Option (List Byte)) (w : Bool) (s : State)
    (h : s.spi = some ⟨fetchSelector :: b0 :: rest, d, w, none⟩) :
    s.clockBits (spiBits l) = { s with
      spi := some ⟨fetchSelector :: b0 :: rest ++ l, d, w, none⟩, sdo := s.sdo ++ spiBits (replyFrom d rest.length l.length) } := by
  induction l generalizing s rest with
  | nil => simp [← h, replyFrom]
  | cons b l ih =>
    have hb : s.clockBits (msbFirst b) = { s with
        spi := some ⟨fetchSelector :: b0 :: (rest ++ [b]), d, w, none⟩
        sdo := s.sdo ++ msbFirst ((d.getD []).getD rest.length 0xFF) } := by
      rw [clockBits_byte h]; simp [State.sdoByte, requestSelector, fetchSelector]
    rw [spiBits_cons, clockBits_append, hb, ih (rest ++ [b]) _ rfl]
    simp [replyFrom_succ]

/-! ### The rise of SEL -/

/-- A judged frame touches the port alone (R148). -/
theorem takeFrame_touches (j : Judged) (s : State) : s.takeFrame j = { s with port := (s.takeFrame j).port } := by
  obtain ⟨p⟩ := s
  unfold State.takeFrame State.takeRequest
  cases p <;> cases j <;> simp only
  all_goals (try split) <;> (try split) <;> rfl

/-- What a judged frame makes of the port does not depend on what SDO carried. -/
@[simp] theorem takeFrame_port (j : Judged) (s : State) (x : Option Transfer) (o : List Bool) :
    (State.takeFrame j { s with spi := x, sdo := o }).port = (s.takeFrame j).port := by
  obtain ⟨p⟩ := s
  unfold State.takeFrame State.takeRequest
  cases p <;> cases j <;> simp only
  all_goals (try split) <;> (try split) <;> rfl

/-- The rise of SEL after a request transaction (R147, R148). -/
theorem riseSel_request {s : State} {rest : List Byte} {d : Option (List Byte)} {w : Bool} {c : Option ByteInProgress}
    (h : s.spi = some ⟨requestSelector :: rest, d, w, c⟩) :
    s.riseSel = { s with port := (s.takeFrame (judgeFrame rest)).port, spi := none } := by
  unfold State.riseSel
  rw [h]
  simp only [State.endTransaction, if_true]
  rw [takeFrame_touches]
  rfl

/-- The rise of SEL after a fetch (R150). -/
theorem riseSel_fetch {s : State} {rest : List Byte} {d : Option (List Byte)} {w : Bool} {c : Option ByteInProgress}
    (h : s.spi = some ⟨fetchSelector :: rest, d, w, c⟩) :
    s.riseSel = { s with port := (s.endFetch ⟨fetchSelector :: rest, d, w, c⟩).port, spi := none } := by
  unfold State.riseSel
  rw [h]
  simp only [State.endTransaction, if_neg (show fetchSelector ≠ requestSelector by decide), if_true]
  rfl

/-- The rise of SEL after a transaction that is ignored (R146). -/
theorem riseSel_ignored {s : State} {first : Byte} {rest : List Byte} {d : Option (List Byte)} {w : Bool} {c : Option ByteInProgress}
    (h : s.spi = some ⟨first :: rest, d, w, c⟩) (hr : first ≠ requestSelector) (hf : first ≠ fetchSelector) :
    s.riseSel = { s with spi := none } := by
  unfold State.riseSel
  rw [h]
  simp only [State.endTransaction, if_neg hr, if_neg hf]
  rfl

/-- The rise of SEL before a byte was complete (R146). -/
theorem riseSel_empty {s : State} {d : Option (List Byte)} {w : Bool} {c : Option ByteInProgress} (h : s.spi = some ⟨[], d, w, c⟩) : s.riseSel = { s with spi := none } := by
  unfold State.riseSel
  rw [h]
  rfl

end Sys2Proof.Machine
end

