-- ==== Sys2Proof/Tests/Slice0.lean ====
section
/-!
SUPPORT. Tests of the commands, ill-formed commands that are refused, and witnesses for the statements. The first part refuses an ill-formed command for each check of WellFormed. The second runs single commands on small states
and compares with the manual's worked examples and tables, or with a hand calculation from a rule; each test names its source. The third
shows, for each statement that has hypotheses, a concrete state and operands that meet them.
-/
namespace Sys2Proof.Tests
open Sys2Proof Sys2Proof.Machine

set_option Elab.async false

/-! ## Helpers -/

/-- The state a command answers. -/
def after (c : Instr) (s : State) : State :=
  match exec c s with
  | .next t => t
  | _ => State.reset

/-- A running part with a few circuits and few slots. -/
def small (circuits : List Circuit) (slots : List Slot) : State :=
  { State.reset with circuits := circuits, slots := slots, index := buildIndex slots, groups := [], scenes := [] }

/-- A circuit configuration: Dimmed with limits, Base at 0. -/
def dimmed (floor cap : Nat) : CircuitConfig := { CircuitConfig.blank with floor := floor, cap := cap }

/-- A circuit configuration: Switched, threshold 500. -/
def switched : CircuitConfig := { CircuitConfig.blank with kind := .switched }

/-- A circuit whose Base claim alone is held, Steady at a level. -/
def lit (cfg : CircuitConfig) (level : Nat) : Circuit := { Circuit.reset with cfg := cfg, base := some ⟨.steady level, .closed⟩ }.recompute

/-- The circuit with a Local claim over it. -/
def withLocal (c : Circuit) (f : Form) (o : LocalOwner) : Circuit := { c with local' := some ⟨f, o⟩ }.recompute

/-- The circuit with a Show claim over it. -/
def withShow (c : Circuit) (f : Form) : Circuit := { c with show' := some ⟨f, .stage1⟩ }.recompute

/-- A key of station 7 on Line A. -/
def a7 (button : Nat) : SourceKey := .station .a 7 button

/-- The same key in a payload. -/
def rawA7 (button : Nat) : RawKey := ⟨0, 7, button⟩

/-- A binding with a mask of every mode and no level, fade or rate. -/
def bind (k : SourceKey) (e : EventKind) (a : Action) (t : Target) : Binding :=
  ⟨k, e, ⟨true, true, true, true, true⟩, a, t, none, none, none, true⟩

/-- The result code of the reply in the slot. -/
def State.resultOf (s : State) : Option ResultCode := s.port.slot.map (·.result)

/-- The payload of the reply in the slot. -/
def State.payloadIn (s : State) : Option (List Byte) := s.port.slot.map (·.payload)

/-! ## Ill-formed commands -/

/-- No circuit fields. -/
def noCircuitFields : CircuitFields := ⟨none, none, none, none, none, none, none, none, none⟩
/-- No input fields. -/
def noInputFields : InputFields := ⟨none, none, none, none, none, none, none⟩
/-- A record that fits. -/
def rawOn : RawBinding := ⟨rawA7 2, 0, 31, 0, 0, 1, none, none, none, 0⟩

theorem test_refuses_byte : (Instr.setLinkConfig 256).wellFormed = false := by decide
theorem test_refuses_word : (Instr.clearAttention 65536).wellFormed = false := by decide
theorem test_refuses_absent_word_as_value : (Instr.setMode 0 (some 65535)).wellFormed = false := by decide
theorem test_refuses_too_many_pairs : (Instr.writeGroup 1 (List.replicate 63 (1, 1))).wellFormed = false := by decide
theorem test_refuses_wide_pair : (Instr.writeGroup 1 [(1, 65536)]).wellFormed = false := by decide
theorem test_refuses_circuit_fields :
    (Instr.setCircuitConfig 1 1 { noCircuitFields with localClear := some 256 }).wellFormed = false := by decide
theorem test_refuses_base_levels :
    (Instr.setCircuitConfig 1 1 { noCircuitFields with base := some ⟨0, 0, 0, 0, 65536⟩ }).wellFormed = false := by decide
theorem test_refuses_option_fields : (Instr.setModeOptions ⟨none, none, none, none, some 256⟩).wellFormed = false := by decide
theorem test_refuses_line_fields : (Instr.setLineConfig 0 ⟨none, some 256, none⟩).wellFormed = false := by decide
theorem test_refuses_input_fields : (Instr.setInputConfig 1 { noInputFields with holdTime := some 65536 }).wellFormed = false := by decide
theorem test_refuses_key : (Instr.retireSource ⟨0, 256, 1⟩).wellFormed = false := by decide
theorem test_refuses_record : (Instr.addBinding { rawOn with level := some 65535 }).wellFormed = false := by decide
theorem test_refuses_stage_form : (Instr.stageEntry 1 1 (.claim 65536 0)).wellFormed = false := by decide
theorem test_refuses_order : (Instr.contactSample 0 [29]).wellFormed = false := by decide
theorem test_refuses_repeated_order : (Instr.contactSample 0 [1, 1]).wellFormed = false := by decide
theorem test_refuses_circuit : (Instr.fadeComplete 385 .base).wellFormed = false := by decide
theorem test_refuses_contact : (Instr.acceptedClose 25).wellFormed = false := by decide

/-! ## Circuits and levels (chapters 1 and 2) -/

/-- Chapter 1, chandelier, step 1: a Local claim at 1000 is clamped to the cap and decides at once. -/
theorem test_claim_level_clamps :
    ((after (.claimLevel 1 1 1000 0) (small [lit (dimmed 60 750) 0] [])).circuits.map fun c => (c.raw, c.output)) = [(750, 750)] := by
  decide +kernel

/-- Chapter 1, chandelier, step 4: a Local claim hidden under Show starts from Local's own value and moves nothing. -/
theorem test_claim_level_hidden :
    ((after (.claimLevel 1 1 0 0) (small [withShow (withLocal (lit (dimmed 60 750) 0) (.steady 750) none) (.fading 750 300 200 100)] [])).circuits.map
      fun c => (c.local'.map (·.form), c.raw)) = [(some (.steady 0), 525)] := by decide +kernel

/-- Chapter 1, chandelier, step 6: a release of Show at 300 with fade 15 hands over toward Local in 150 ticks. -/
theorem test_release_layer_hands_over :
    ((after (.releaseLayer 1 2 15) (small [withShow (withLocal (lit (dimmed 60 750) 0) (.steady 0) none) (.steady 300)] [])).circuits.map
      fun c => (c.show'.isNone, c.handover, c.raw)) = [(true, some ⟨300, 150, 0⟩, 300)] := by decide +kernel

/-- Chapter 1, chandelier, steps 7 and 8: the handover from 300 to 0 shows raw 200 at k 50, and raw 20 shown as the floor, 60, at k 140. -/
theorem test_fade_tick_of_handover :
    ((after .fadeTick (small [{ lit (dimmed 60 750) 0 with handover := some ⟨300, 150, 49⟩ },
      { lit (dimmed 60 750) 0 with handover := some ⟨300, 150, 139⟩ }] [])).circuits.map fun c => (c.raw, c.output)) = [(200, 200), (20, 60)] := by
  decide +kernel

/-- R20 by hand: 200 to 850 in 250 ticks shows 202, 205, 460 and 847 at k 1, 2, 100 and 249; 850 to 0 shows 847, 170 and 34. -/
theorem test_fade_formula :
    [fadeValue 200 850 250 1, fadeValue 200 850 250 2, fadeValue 200 850 250 100, fadeValue 200 850 250 249,
      fadeValue 850 0 250 1, fadeValue 850 0 250 200, fadeValue 850 0 250 240] = [202, 205, 460, 847, 847, 170, 34] := by decide

/-- R25 by hand: a raise from 300 at rate 40 under a cap of 800 shows 302, 305, 307, 550 and 800 at k 1, 2, 3, 100 and 200. -/
theorem test_raise_formula :
    [1, 2, 3, 100, 200].map (moveValue (dimmed 0 800) 300 .up 40) = [302, 305, 307, 550, 800] := by decide

/-- R22: a fade whose count has reached its duration is Steady at its target. -/
theorem test_fade_complete :
    ((after (.fadeComplete 1 .base) (small [{ lit (dimmed 0 1000) 0 with base := some ⟨.fading 200 850 250 250, .closed⟩ }] [])).circuits.map
      fun c => (c.base.map (·.form), c.raw)) = [(some (.steady 850), 850)] := by decide +kernel

/-- R32: a handover's end leaves the deciding claim's value. -/
theorem test_handover_end :
    ((after (.handoverEnd 1) (small [{ lit (dimmed 0 1000) 500 with handover := some ⟨700, 200, 200⟩ }] [])).circuits.map
      fun c => (c.handover, c.raw)) = [(none, 500)] := by decide +kernel

/-- R14: a change of kind drops Local and re-makes Base at its clamped level; a relay with base level 1000 closes. -/
theorem test_set_circuit_config_kind :
    ((after (.setCircuitConfig 1 1 { noCircuitFields with kind := some 1, base := some ⟨1000, 0, 0, 0, 0⟩ })
      (small [withLocal (lit (dimmed 0 1000) 0) (.steady 300) none] [])).circuits.map fun c => (c.local'.isNone, c.output)) = [(true, 1000)] := by
  decide +kernel

/-- R2 check 4: a cap below the floor refuses the whole write with RANGE. -/
theorem test_set_circuit_config_limits :
    State.resultOf (after (.setCircuitConfig 1 1 { noCircuitFields with cap := some 50 }) (small [lit (dimmed 60 750) 0] [])) = some .range := by
  decide +kernel

/-- R3: a window past circuit 384 is RANGE. -/
theorem test_read_circuit_config_range : State.resultOf (after (.readCircuitConfig 384 2) (small [] [])) = some .range := by decide +kernel

/-- R19: a count of 17 is RANGE. -/
theorem test_read_circuit_state_range : State.resultOf (after (.readCircuitState 1 17) (small [] [])) = some .range := by decide +kernel

/-! ## Bindings and events (chapters 3 and 4) -/

/-- The slots of chapter 3's keypad example before its step 7: slot 2 free, slots 6 to 8 with the bindings of (A/7/2). -/
def stairSlots : List Slot :=
  [.live (bind (.contact 1) .press .on (.circuit 1)), .live (bind (.contact 2) .press .on (.circuit 1)), .free,
    .live (bind (.contact 4) .press .on (.circuit 1)), .live (bind (.contact 5) .press .on (.circuit 1)),
    .live (bind (.contact 6) .press .on (.circuit 1)), .live (bind (a7 2) .press .toggle (.group 12)),
    .live (bind (a7 2) .press .on (.group 12)), .live (bind (a7 2) .hold .raise (.group 12)), .free]

/-- Chapter 3, keypad button, step 7: the lowest Free slot is 2, and it stands first in the Press list. -/
theorem test_add_binding :
    (fun t => (State.payloadIn t, indexList t.index (a7 2) .press)) (after (.addBinding ⟨rawA7 2, 0, 1, 5, 2, 4, none, none, none, 0⟩)
      (small [] stairSlots)) = (some [0, 2], [2, 6, 7]) := by decide +kernel

/-- Chapter 3, keypad button, steps 3 and 5: an ON of the same group is DUPLICATE whatever its mask and level; a RAISE on Release is MISMATCH. -/
theorem test_add_binding_refused :
    [State.resultOf (after (.addBinding ⟨rawA7 2, 0, 16, 0, 1, 12, some 400, none, none, 1⟩) (small [] stairSlots)),
      State.resultOf (after (.addBinding ⟨rawA7 2, 1, 16, 3, 1, 12, none, none, none, 1⟩) (small [] stairSlots))]
      = [some .duplicate, some .mismatch] := by decide +kernel

/-- R44: a replaced record moves its slot to the new pair's list. -/
theorem test_replace_binding :
    (fun t => (indexList t.index (a7 2) .press, indexList t.index (a7 2) .hold))
      (after (.replaceBinding 7 ⟨rawA7 2, 2, 1, 4, 1, 12, none, none, none, 0⟩) (small [] stairSlots)) = ([6], [7, 8]) := by decide +kernel

/-- Chapter 3, retiring: retiring slot 8 stops circuit 1's raise where it stands, at 470, without an owner. -/
theorem test_retire_binding :
    ((after (.retireBinding 8) (small [withLocal (lit (dimmed 0 1000) 0) (.moving 300 .up 50 85 470) (some (8, a7 2))]
      stairSlots)).circuits.map fun c => (c.local', c.output)) = [(some ⟨.steady 470, none⟩, 470)] := by decide +kernel

/-- R46: retiring the source (A/7/2) frees three slots. -/
theorem test_retire_source :
    (fun t => (State.payloadIn t, t.slots.map Slot.code)) (after (.retireSource (rawA7 2)) (small [] stairSlots))
      = (some [3], [1, 1, 0, 1, 1, 1, 0, 0, 0, 0]) := by decide +kernel

/-- Chapter 3, keypad button, step 9 and its table: with slot 6 Disabled a Press is answered by slot 7 alone. -/
theorem test_disable :
    (fun t => (t.matching (a7 2) .press).map (·.1)) (after (.disable 6) (small [] stairSlots)) = [7] := by decide +kernel

/-- R48: enabling a Free slot is NOT_FOUND. -/
theorem test_enable_free : State.resultOf (after (.enable 2) (small [] stairSlots)) = some .notFound := by decide +kernel

/-- R49: a Free slot is NOT_FOUND. -/
theorem test_read_binding_free : State.resultOf (after (.readBinding 2) (small [] stairSlots)) = some .notFound := by decide +kernel

/-- R50: the Press list of (A/7/2) in slot order, each slot Live. -/
theorem test_find_bindings : State.payloadIn (after (.findBindings (rawA7 2) 0) (small [] stairSlots)) = some [0, 6, 1, 0, 7, 1] := by
  decide +kernel

/-- Chapter 4, toggle under Show, step 1: a toggle under a blackout is an ON from the hidden 600 toward the capped 900. -/
theorem test_inject_event_toggle_hidden :
    ((after (.injectEvent (rawA7 1) 0) (small [withShow (withLocal (lit (dimmed 40 900) 0) (.steady 600) none) (.steady 0)]
      [.live { bind (a7 1) .press .toggle (.circuit 1) with fade := some 10 }])).circuits.map fun c => (c.local', c.raw))
      = [(some ⟨.fading 600 900 100 0, some (0, a7 1)⟩, 0)] := by decide +kernel

/-- Chapter 4, held raise, step 3: a raise of a group whose members stand at 400, 320 and a relay at raw 400. -/
theorem test_inject_event_group_raise :
    ((after (.injectEvent (rawA7 3) 2) { small [withLocal (lit (dimmed 0 1000) 0) (.fading 0 1000 150 60) none,
        withLocal (lit (dimmed 100 800) 0) (.fading 0 800 150 60) none, withLocal (lit switched 0) (.fading 0 1000 150 60) none]
      [.live { bind (a7 3) .hold .raise (.group 1) with rate := some 30 }] with groups := [some [1, 2, 3]] }).circuits.map
      fun c => (c.local'.map (·.form), c.output))
      = [(some (.moving 400 .up 30 0 400), 400), (some (.moving 320 .up 30 0 320), 320), (some (.steady 1000), 1000)] := by decide +kernel

/-! ## Groups, scenes and modes (chapters 5 and 6) -/

/-- Chapter 5, staircase group, step 3: three pairs, one given high end first, name 14 circuits; 1536 - 14 are free. -/
theorem test_write_group :
    State.payloadIn (after (.writeGroup 1 [(210, 215), (232, 230), (212, 220)]) { small [] [] with groups := [none] })
      = some (be2 14 ++ be2 1522) := by decide +kernel

/-- Chapter 5, staircase group, step 1: the same write is POOL_FULL with 6 entries free. -/
theorem test_write_group_pool_full :
    State.resultOf (after (.writeGroup 1 [(210, 215), (232, 230), (212, 220)]) { small [] [] with groups := [none, some (List.range 1530)] })
      = some .poolFull := by decide +kernel

/-- Chapter 5, staircase group, step 2: deleting a group gives its entries back. -/
theorem test_delete_group :
    State.payloadIn (after (.deleteGroup 1) { small [] [] with groups := [some [1, 2], some [7]] }) = some (be2 1535) := by decide +kernel

/-- Chapter 5, staircase group, step 6: a window past the end of the list shows the members that exist. -/
theorem test_read_group :
    State.payloadIn (after (.readGroup 1 2 100) { small [] [] with groups := [some [220, 230, 231, 232]] })
      = some (be2 4 ++ be2 1532 ++ be2 231 ++ be2 232) := by decide +kernel

/-- Chapter 5, night watch, step 1: the later of two levels for circuit 210 stands, and the list is ascending. -/
theorem test_write_scene :
    ((after (.writeScene 1 (some 30) [(230, 150), (210, 80), (231, 150), (210, 100)]) { small [] [] with scenes := [none] }).scenes)
      = [some ⟨some 30, [(210, 100), (230, 150), (231, 150)]⟩] := by decide +kernel

/-- Chapter 5, night watch, step 2: one entry is inserted and one replaced. -/
theorem test_extend_scene :
    ((after (.extendScene 1 [(211, 60), (230, 200)]) { small [] [] with scenes := [some ⟨some 30, [(210, 100), (230, 150), (231, 150)]⟩] }).scenes)
      = [some ⟨some 30, [(210, 100), (211, 60), (230, 200), (231, 150)]⟩] := by decide +kernel

/-- Chapter 5, night watch, end: a captured scene holds output levels; a raw level below the floor is captured as the floor. -/
theorem test_capture_scene :
    ((after (.captureScene 1 none [(2, 1)]) { small [lit (dimmed 120 1000) 100, lit (dimmed 0 1000) 60] [] with scenes := [none] }).scenes)
      = [some ⟨none, [(1, 120), (2, 60)]⟩] := by decide +kernel

/-- R81: an Undefined scene is NOT_FOUND. -/
theorem test_delete_scene : State.resultOf (after (.deleteScene 1) { small [] [] with scenes := [none] }) = some .notFound := by decide +kernel

/-- Chapter 5, night watch, step 3: a recall of an entry below the floor makes the scene active at once. -/
theorem test_recall_makes_active :
    (({ small [lit (dimmed 120 1000) 0] [.live (bind (a7 2) .press .recall (.scene 1))] with
      scenes := [some ⟨some 30, [(1, 100)]⟩] } : State).resolve (a7 2) .press).sceneActive 1 = true := by decide +kernel

/-- R82: an Undefined scene is NOT_FOUND. -/
theorem test_read_scene : State.resultOf (after (.readScene 1 0 1) { small [] [] with scenes := [none] }) = some .notFound := by decide +kernel

/-- Chapter 6, entering Performance, circuits 20, 61 and 140 at the change into Performance: a Base fade, a handover, and a raise that ends. -/
theorem test_set_mode :
    ((after (.setMode 4 none) { small [lit { dimmed 0 1000 with base := ⟨0, 0, 0, 600, 800⟩ } 600,
        withLocal (lit { dimmed 40 900 with base := ⟨0, 0, 0, 0, 500⟩, localClear := ⟨false, false, false, false, true⟩ } 0) (.steady 300) none,
        withLocal (lit (dimmed 0 1000) 0) (.moving 300 .up 50 110 520) (some (0, a7 5))]
      [.live { bind (a7 5) .hold .raise (.circuit 3) with mask := ⟨false, false, false, true, false⟩ }] with mode := .rehearsal }).circuits.map
      fun c => (c.base.map (·.form), c.local'.map (·.form), c.handover, c.raw))
      = [(some (.fading 600 800 300 0), none, none, 600), (some (.fading 0 500 300 0), none, some ⟨300, 300, 0⟩, 300),
        (some (.fading 0 0 300 0), some (.steady 520), none, 520)] := by decide +kernel

/-- R87: the reply to a request for the present mode says unchanged, 1 (R165). -/
theorem test_set_mode_unchanged : State.payloadIn (after (.setMode 0 none) (small [] [])) = some [0, 1] := by decide +kernel

/-- R88 with the blank defaults of R86: Closed, 30, 20, 50, 50, Closed. -/
theorem test_read_mode : State.payloadIn (after .readMode (small [] [])) = some [0, 0, 30, 0, 20, 0, 50, 0, 50, 0] := by decide +kernel

/-- R94: one option out of range refuses them all. -/
theorem test_set_mode_options :
    (after (.setModeOptions ⟨some 10, none, some 601, none, none⟩) (small [] [])).options = ModeOptions.blank := by decide +kernel

/-! ## Station lines (chapter 7) -/

/-- Station 7 of chapter 7's example: Online, with a last accepted bit and a miss count. -/
def station7 (bit : Option Bool) (misses : Nat) : Station := ⟨⟨7, 4, true⟩, .online, misses, bit, 0⟩

/-- A Running line with one station and what it has in flight. -/
def lineOf7 (r : Station) (x : Option ExchangeKind) (sent : Bool) : LineCtl :=
  { LineCtl.reset with stations := [r], exchange := x.map fun k => ⟨k, [], 24, 4, sent, false⟩ }

/-- A part with that line as Line A, one circuit, and an ON by a Press of the station's button 2. -/
def with7 (c : LineCtl) : State :=
  { small [lit (dimmed 0 1000) 100] [.live { bind (a7 2) .press .on (.circuit 1) with fade := some 0 }] with lineA := c }

/-- Station 7's reply with sequence bit 1 and a Press of button 2, character by character from R163, and its check by R167. -/
def pressReply : List RxChar := [0x07, 0x05, 0x12, 0x12].map fun b => ⟨b, false, false, false⟩

/-- Chapter 7, lost reply, polls 1 and 4: the reply's bit differs from the last accepted one, so its Press is delivered; the same reply again is
a duplicate, whose event is dropped. -/
theorem test_reply_accepted_and_duplicate :
    ([station7 (some false) 0, station7 (some true) 1].map fun r =>
      (fun t : State => (t.lineA.stations, t.circuits.map (·.output))) (after (.reply .a pressReply) (with7 (lineOf7 r (some (.poll 7)) true))))
      = [([station7 (some true) 0], [1000]), ([station7 (some true) 0], [100])] := by decide +kernel

/-- Chapter 7, lost reply, poll 8: the third miss makes the station Silent, without a last bit, and raises STATION_SILENT. -/
theorem test_reply_window_end_silent :
    (fun t => (t.lineA.stations, t.port.isSet .stationSilent)) (after (.replyWindowEnd .a) (with7 (lineOf7 (station7 (some true) 2) (some (.poll 7)) true)))
      = ([⟨⟨7, 4, true⟩, .silent, 3, none, 0⟩], true) := by decide +kernel

/-- Chapter 7, census, round end 8: a census reply of a keypad at 9 with 6 buttons and indicators. -/
theorem test_reply_census :
    (fun t => (t.lineA.censusList, t.lineA.censusAddr)) (after (.reply .a ([0x09, 0x16, 0xD4].map fun b => ⟨b, false, false, false⟩))
      (with7 { lineOf7 (station7 none 0) (some (.census 9)) true with census := .running, censusAddr := 9 })) = ([⟨9, 6, true⟩], 10) := by
  decide +kernel

/-- R102, R162: the poll of station 7, acknowledging bit 1, with four indicators: button 2's circuit is on. -/
theorem test_next_exchange_poll :
    (after (.nextExchange .a) (with7 (lineOf7 (station7 (some true) 0) none false))).lineA.exchange.map (·.chars)
      = some [⟨true, 0x07⟩, ⟨false, 0x03⟩, ⟨false, 0x04⟩, ⟨false, crc8 [0x07, 0x03, 0x04]⟩] := by decide +kernel

/-- Chapter 7, census, round end 3: the census passes over the enrolled address 7 to 8 (R113, R162: 01001000b). -/
theorem test_next_exchange_census :
    ((after (.nextExchange .a) (with7 { lineOf7 (station7 none 0) none false with lastPolled := some 7, census := .running, censusAddr := 7 })).lineA.exchange.map
      fun x => (x.kind, x.chars.map (·.data))) = some (.census 8, [0x48, 0x00, crc8 [0x48, 0x00]]) := by decide +kernel

/-- R105: once the last character has been read back, the reply window is open and the collision count is 0. -/
theorem test_exchange_sent :
    (fun t => (t.lineA.collisions, t.lineA.exchange.map (·.sent))) (after (.exchangeSent .a)
      (with7 { lineOf7 (station7 none 0) (some (.poll 7)) false with collisions := 3 })) = (0, some true) := by decide +kernel

/-- R104: the eighth collision in a row puts the line in Fault. -/
theorem test_collision_eighth :
    (fun t => (t.lineA.state, t.port.isSet .lineFault)) (after (.collision .a)
      (with7 { lineOf7 (station7 none 0) (some (.poll 7)) false with collisions := 7 })) = (.fault, true) := by decide +kernel

/-- R99: a break during a census leaves it Abandoned. -/
theorem test_line_break :
    (fun t => (t.lineA.state, t.lineA.census)) (after (.lineBreak .a) (with7 { lineOf7 (station7 none 0) none false with census := .running }))
      = (.fault, .abandoned) := by decide +kernel

/-- R99: at the end of the Fault every miss count is 0. -/
theorem test_fault_recovery :
    (fun t => (t.lineA.state, t.lineA.stations)) (after (.faultRecovery .a) (with7 { lineOf7 (station7 none 2) none false with state := .fault }))
      = (.running, [station7 none 0]) := by decide +kernel

/-- R101: the wait for the next round ends. -/
theorem test_round_wait_end :
    (after (.roundWaitEnd .a) (with7 { lineOf7 (station7 none 0) none false with waiting := true })).lineA.waiting = false := by decide +kernel

/-- R97: a Running line that is disabled with nothing in flight becomes Off. -/
theorem test_set_line_config :
    (after (.setLineConfig 0 ⟨some 1, none, none⟩) (with7 (lineOf7 (station7 none 0) none false))).lineA.state = .off := by decide +kernel

/-- R100, R109: a station enrols at its ascending place, Absent. -/
theorem test_enrol_station :
    (after (.enrolStation 0 3 10 1) (with7 (lineOf7 (station7 none 0) none false))).lineA.stations
      = [⟨⟨3, 10, false⟩, .absent, 0, none, 0⟩, station7 none 0] := by decide +kernel

/-- R110: the poll in flight to the station is marked so that its reply is discarded. -/
theorem test_unenrol_station :
    (fun t => (t.lineA.stations, t.lineA.exchange.map (·.discard))) (after (.unenrolStation 0 7) (with7 (lineOf7 (station7 none 0) (some (.poll 7)) true)))
      = ([], some true) := by decide +kernel

/-- R111: a station that is not enrolled is NOT_FOUND. -/
theorem test_read_station : State.resultOf (after (.readStation 0 8) (with7 (lineOf7 (station7 none 0) none false))) = some .notFound := by
  decide +kernel

/-- R111, R165: the line code 2 names no line. -/
theorem test_read_line : State.resultOf (after (.readLine 2) (small [] [])) = some .range := by decide +kernel

/-- R112: a census starts at address 1 with an empty list. -/
theorem test_census_start :
    (fun t => (t.lineB.census, t.lineB.censusList, t.lineB.censusAddr)) (after (.censusStart 1)
      { small [] [] with lineB := { LineCtl.reset with census := .done, censusList := [⟨9, 6, true⟩], censusAddr := 63 } })
      = (.running, [], 1) := by decide +kernel

/-- R114: the state Done, 2, and the entry of chapter 7's census. -/
theorem test_census_read :
    State.payloadIn (after (.censusRead 1) { small [] [] with lineB := { LineCtl.reset with census := .done, censusList := [⟨9, 6, true⟩] } })
      = some [2, 9, 6, 0] := by decide +kernel

/-! ## Inputs (chapter 8) -/

/-- The configuration of chapter 8's push: Momentary, pull-up on, closed-low, 10, 600, 60. -/
def push : InputConfig := { InputConfig.blank with kind := .momentary }

/-- A part whose contact input 1 is that push, with an ON by its Press and a raise by its Hold. -/
def withPush (p : Pin) (x : InputState) (count : Nat) : State :=
  { small [lit (dimmed 0 1000) 100] [.live { bind (.contact 1) .press .on (.circuit 1) with fade := some 0 },
      .live (bind (.contact 1) .hold .raise (.circuit 1))] with inputs := [⟨push, p, x, count⟩] }

/-- Every pin high but IN1. -/
def in1Low : BitVec 28 := 0xFFFFFFE

/-- Chapter 8, heritage push, sample 13: the tenth low sample is accepted, and a Press is delivered. -/
theorem test_contact_sample_closes :
    (fun t => (t.inputs.map fun x => (x.pin.disagree, x.state, x.closedCount), t.circuits.map (·.output)))
      (after (.contactSample in1Low []) { withPush ⟨true, 9, 0, false⟩ .open' 0 with safe1 := Pin.at true, safe2 := Pin.at true })
      = ([(0, .closed, 0)], [1000]) := by decide +kernel

/-- Chapter 8, heritage push, sample 613: the closed count reaches 600, and the Hold starts the raise. -/
theorem test_contact_sample_holds :
    (fun t => (t.inputs.map fun x => (x.state, x.closedCount), t.circuits.map fun c => c.local'.map (·.form)))
      (after (.contactSample in1Low []) { withPush ⟨false, 0, 0, false⟩ .closed 599 with safe1 := Pin.at true, safe2 := Pin.at true })
      = ([(.held, 600)], [some (.moving 100 .up 50 0 100)]) := by decide +kernel

/-- R117: an accepted close is a Press. -/
theorem test_accepted_close :
    (after (.acceptedClose 1) (withPush (Pin.at true) .open' 0)).circuits.map (·.output) = [1000] := by decide +kernel

/-- R117: a Hold at the hold time. -/
theorem test_hold_time_reached :
    (after (.holdTimeReached 1) (withPush (Pin.at false) .closed 599)).inputs.map (fun x => (x.state, x.closedCount)) = [(.held, 600)] := by
  decide +kernel

/-- R118: at 60 s the input is Stuck, and INPUT_STUCK is raised. -/
theorem test_stuck_time_reached :
    (fun t => (t.inputs.map fun x => (x.state, x.closedCount), t.port.isSet .inputStuck)) (after (.stuckTimeReached 1)
      (withPush (Pin.at false) .held 59999)) = ([(.stuck, 60000)], true) := by decide +kernel

/-- R118: a Stuck input opens without a Release. -/
theorem test_accepted_open_of_stuck :
    (after (.acceptedOpen 1) { withPush (Pin.at false) .stuck 60000 with
      circuits := [withLocal (lit (dimmed 0 1000) 0) (.moving 0 .up 50 10 20) (some (1, .contact 1))] }).circuits.map (fun c => c.local'.map (·.form))
      = [some (.moving 0 .up 50 10 20)] := by decide +kernel

/-- R119: a Maintained input turned to closed brings a Close. -/
theorem test_maintained_change :
    (fun t => (t.inputs.map (·.state), t.mode)) (after (.maintainedChange 1 true)
      { small [] [.live (bind (.contact 1) .close .mode (.mode .work))] with
        inputs := [⟨{ push with kind := .maintained }, Pin.at true, .open', 0⟩] }) = ([.closed], .work) := by decide +kernel

/-- R120: a polarity write keeps the accepted level, so a high pin becomes the closed position, without an event. -/
theorem test_set_input_config :
    (fun t => (t.inputs.map (·.state), t.circuits.map (·.output))) (after (.setInputConfig 1 { noInputFields with polarity := some 1 })
      (withPush (Pin.at true) .open' 0)) = ([.closed], [100]) := by decide +kernel

/-- R121, R165: CUE1 is input 27; its edge is falling, 1, and its level high, 0. -/
theorem test_read_input : State.payloadIn (after (.readInput 27) (small [] [])) = some [1, 0] := by decide +kernel

/-- The circuits of chapter 8's alarm before its step 2: circuits 20, 117 and 303 under SAFE2. -/
def alarm : State :=
  { small [{ lit { dimmed 0 1000 with safe1 := some 1000, safe2 := some 600 } 100 with safe := some ⟨.steady 600, ⟨false, true⟩⟩ }.recompute,
      withLocal (lit { dimmed 60 750 with safe1 := some 1000 } 0) (.steady 400) none,
      { lit { switched with safe2 := some 1000 } 0 with safe := some ⟨.steady 1000, ⟨false, true⟩⟩ }.recompute] [] with safe2 := Pin.at true }

/-- Chapter 8, alarm, step 2: SAFE1 asserts. -/
theorem test_safe_assert :
    ((after (.safeAssert .safe1) alarm).circuits.map fun c => (c.safe, c.raw))
      = [(some ⟨.steady 1000, ⟨true, true⟩⟩, 1000), (some ⟨.steady 750, ⟨true, false⟩⟩, 750), (some ⟨.steady 1000, ⟨false, true⟩⟩, 1000)] := by
  decide +kernel

/-- Chapter 8, alarm, step 3: SAFE1 deasserts. -/
theorem test_safe_deassert :
    ((after (.safeDeassert .safe1) (after (.safeAssert .safe1) alarm)).circuits.map fun c => (c.safe, c.handover, c.raw))
      = [(some ⟨.fading 1000 600 500 0, ⟨false, true⟩⟩, none, 1000), (none, some ⟨750, 500, 0⟩, 750),
        (some ⟨.steady 1000, ⟨false, true⟩⟩, none, 1000)] := by decide +kernel

/-! ## Stages (chapter 9) -/

/-- Act 2 of chapter 9 in Standby, on three circuits, 1 for circuit 20, 2 for circuit 61 and 3 for circuit 117. -/
def act2 : State :=
  { small [lit (dimmed 0 1000) 800,
      withShow (withLocal (lit (dimmed 40 900) 0) (.steady 500) none) (.steady 0), withShow (lit (dimmed 60 750) 0) (.steady 300)] [] with
    stage1 := ⟨.standby, .cue1, [(1, .claim 100 50), (2, .release 20), (3, .claim 1000 30)]⟩
    stage2 := ⟨.standby, .linked, [(3, .claim 500 0)]⟩ }

/-- Chapter 9, Act 2, step 12: CUE1 transfers stage 1 and then stage 2, whose snap to 500 replaces stage 1's claim on circuit 117. -/
theorem test_cue_event :
    (fun t => (t.circuits.map fun c => (c.show', c.handover), t.stage1, t.stage2)) (after (.cueEvent .cue1) act2)
      = ([(some ⟨.fading 800 100 500 0, .stage1⟩, none), (none, some ⟨0, 200, 0⟩), (some ⟨.steady 500, .stage2⟩, none)],
        ⟨.empty, .cue1, []⟩, ⟨.empty, .linked, []⟩) := by decide +kernel

/-- Chapter 9, Act 2, step 11: no stage awaits CUE2. -/
theorem test_cue_event_ignored :
    (fun t => (t.ignored2, t.port.isSet .cueIgnored)) (after (.cueEvent .cue2) act2) = (1, true) := by decide +kernel

/-- R133: GO replies with stage 1 and its 3 entries, and stage 2 and its 1. -/
theorem test_go : State.payloadIn (after (.go 1) act2) = some [1, 0, 3, 2, 0, 1] := by decide +kernel

/-- Chapter 9, Act 2, step 4: the entry for circuit 61 goes between those for 20 and 117. -/
theorem test_stage_entry :
    (fun t => (State.payloadIn t, t.stage1.entries.map (·.1))) (after (.stageEntry 1 61 (.release 20))
      { small [] [] with stage1 := ⟨.loading, .cue1, [(20, .claim 100 50), (117, .claim 1000 30)]⟩ }) = (some [0, 3], [20, 61, 117]) := by
  decide +kernel

/-- Chapter 9, Act 2, step 9: a stage in Standby is frozen. -/
theorem test_stage_entry_armed : State.resultOf (after (.stageEntry 1 20 (.claim 150 50)) act2) = some .stageArmed := by decide +kernel

/-- R130: a cleared stage keeps its trigger. -/
theorem test_stage_clear :
    (after (.stageClear 1) { small [] [] with stage1 := ⟨.loading, .cue1, [(20, .release 0)]⟩ }).stage1 = ⟨.empty, .cue1, []⟩ := by decide +kernel

/-- R131, R165: the code of LINKED is 3. -/
theorem test_set_stage_trigger : (after (.setStageTrigger 2 3) (small [] [])).stage2.trigger = .linked := by decide +kernel

/-- Chapter 9, Act 2, step 6: an Empty stage cannot enter Standby. -/
theorem test_standby_empty : State.resultOf (after (.standby 2) (small [] [])) = some .stageEmpty := by decide +kernel

/-- R132: a stage leaves Standby to Loading. -/
theorem test_unstandby : (after (.unstandby 1) act2).stage1.state = .loading := by decide +kernel

/-- R138: Standby 2, CUE1 0, three entries, no cue ignored, and the entry at index 1: circuit 2, Release 1, fade 20. -/
theorem test_read_stage : State.payloadIn (after (.readStage 1 1 1) act2) = some [2, 0, 0, 3, 0, 0, 0, 2, 1, 0, 20] := by decide +kernel

/-! ## Rack link (chapter 10) -/

/-- R142 by hand: outputs 0, 1, 2, 40, 50, 60, 500, 750, 900, 1000 drive 0, 0, 1, 10, 13, 15, 128, 191, 230, 255. -/
theorem test_drive : [0, 1, 2, 40, 50, 60, 500, 750, 900, 1000].map (driveOf .dimmed) = [0, 0, 1, 10, 13, 15, 128, 191, 230, 255] := by
  decide +kernel

/-- Chapter 10, three frames: a frame start loads the period and takes the drive of output 666, 170. -/
theorem test_frame_start :
    (fun t => (t.link.frame.map (·.take 2), t.link.inUse, t.link.nextStart)) (after .frameStart
      { small [lit (dimmed 0 1000) 666] [] with link := { Link.reset with frame := none, period := 10 } }) = (some [0x5A, 170], 10, some 10) := by
  decide +kernel

/-- Chapter 10, shortening the period, 67.16 ms: the owed start is taken at the frame's end and counted late. -/
theorem test_frame_end_owed :
    (fun t => (t.link.late, t.link.owed, t.link.nextStart)) (after .frameEnd
      { small [] [] with link := { Link.reset with period := 10, owed := true, nextStart := none } }) = (1, false, some 10) := by decide +kernel

/-- Chapter 10, shortening the period, 30 ms: the period written is not yet in use. -/
theorem test_set_link_config :
    (fun t => (t.link.period, t.link.inUse)) (after (.setLinkConfig 10) (small [] [])) = (10, 25) := by decide +kernel

/-- R145: Sending, 25, 25, a frame in flight, none owed, no late start. -/
theorem test_read_rack_link : State.payloadIn (after .readRackLink (small [] [])) = some [1, 25, 25, 0, 1, 0] := by decide +kernel

/-- R167: the check of 123456789 is 29B1h, and that of the byte 00h is C4h. -/
theorem test_checks : (crc16 [0x31, 0x32, 0x33, 0x34, 0x35, 0x36, 0x37, 0x38, 0x39], crc8 [0]) = (0x29B1, 0xC4) := by
  decide +kernel

/-- R140: a break of 120 µs and a mark of 12 µs in bits of 4 µs, then 5Ah as 11 bits, least significant data bit first. -/
theorem test_rack_signal :
    rackSignal [0x5A] = List.replicate 30 false ++ [true, true, true]
      ++ [false, false, true, false, true, true, false, true, false, true, true] := by decide

/-- R139, R140: RTX at space in the last bit time of the break, then at mark; at mark after a frame's last stop bit, between frames, and where the RESET
pin is low. -/
theorem test_rtx_level :
    (let s := { small [] [] with link := { Link.reset with frame := some [0x5A] } }
     [s.rtxLevel 29, s.rtxLevel 30, s.rtxLevel 33, s.rtxLevel 44, (after .frameEnd s).rtxLevel 0, (after .resetPinLow s).rtxLevel 0])
      = [false, true, false, true, true, true] := by decide +kernel

/-- R167: the CRC-32 of the nine ASCII characters, by its polynomial, initial value and inverted result; as imageCheck stores it. The value is that
of the published parameters. -/
theorem test_image_check : imageCheck [0x31, 0x32, 0x33, 0x34, 0x35, 0x36, 0x37, 0x38, 0x39] = [0xFC, 0x89, 0x19, 0x18] := by decide +kernel

/-! ## Management port (chapter 11) -/

/-- Chapter 11, overrun, steps 1 and 7: SET MODE Performance with no fade is accepted, and READ MODE with a corrupted check is CHECK_FAIL. Checks by R167. -/
theorem test_request_transaction :
    ((after (.requestTransaction ⟨[0xC3, 0x40, 0x03, 0x04, 0xFF, 0xFF, 0x49], [], true⟩) (small [] [])).port.request,
      State.resultOf (after (.requestTransaction ⟨[0xC3, 0x41, 0x00, 0xE6], [], true⟩) (small [] []))) = (some (.setMode 4 none), some .checkFail) := by
  decide +kernel

/-- Chapter 11, overrun, step 3: a request in Working is discarded and sets the overrun flag. -/
theorem test_request_transaction_overrun :
    (fun t => (t.port.request, t.port.overrun)) (after (.requestTransaction ⟨[0xC3, 0x41, 0x00, 0xE7], [], true⟩)
      ((small [] []).accept (.setMode 4 none))) = (some (.setMode 4 none), true) := by decide +kernel

/-- Chapter 11, overrun, step 6, for a reply without payload: status byte Done with STARTED pending (0Bh), echo, OK, two length bytes, check; then FFh. -/
theorem test_fetch :
    (fun t => (t.sdo, t.port.state)) (after (.fetch ⟨7, 0, true⟩) ((small [] []).answer 0x91 .ok []))
      = (spiBits [0xFF, 0x0B, 0x91, 0x00, 0x00, 0x00, crc8 [0x91, 0, 0, 0], 0xFF], .idle) := by decide +kernel

/-- R150: a completion that falls inside a fetch, after its status byte: the byte shows Working with STARTED pending (0Ah), no reply comes, and the
port is Done when SEL rises. -/
theorem test_fetch_before_completion :
    (fun t => (t.sdo, t.port.state, State.resultOf t)) (after (.fetch ⟨2, 0, true⟩) (after .readMode (after (.fetch ⟨1, 0, false⟩)
      ((small [] []).accept .readMode)))) = (spiBits [0xFF, 0x0A, 0xFF, 0xFF], .done, some .ok) := by decide +kernel

/-- R146: A5h is carried as 1, 0, 1, 0, 0, 1, 0, 1. -/
theorem test_spi_most_significant_first :
    msbFirst 0xA5 = [true, false, true, false, false, true, false, true] ∧ byteOf [true, false, true, false, false, true, false, true] = 0xA5 := by
  decide

/-- R146, R151: READ MODE, and a byte begun after its check byte, whose four bits are discarded; SDO carries in them the high half of the status byte
(19h: Idle, STARTED pending, store busy). -/
theorem test_incomplete_byte :
    (fun t => (t.sdo.drop 32, t.port.request)) (after (.requestTransaction ⟨[0xC3, 0x41, 0x00, 0xE7], [true, true, false, true], true⟩)
      { small [] [] with store := ⟨.saving, false, [], none⟩ }) = ([false, false, false, true], some .readMode) := by decide +kernel

/-- R154: the identity, revision and start cause of a part started by its supply. -/
theorem test_read_identity : State.payloadIn (after .readIdentity (small [] [])) = some [0x53, 0x01, 0x80, 0x01, 0x00] := by decide +kernel

/-- R152, R164 after start-up from a blank store: STARTED and STORE_BLANK are set and none is masked. -/
theorem test_read_attention : State.payloadIn (after .readAttention (small [] [])) = some [0, 3, 0, 0] := by decide +kernel

/-- R153: clearing STARTED leaves STORE_BLANK. -/
theorem test_clear_attention : (after (.clearAttention 1) (small [] [])).port.flags = 2 := by decide +kernel

/-- R152, R153: with both flags masked, ATTN is released. -/
theorem test_set_attention_mask : (after (.setAttentionMask 3) (small [] [])).attnLow = false := by decide +kernel

/-! ## Store and start-up (chapter 12) -/

/-- Chapter 12, save cut short, step 1: SAVE copies the tables, and no image is valid until the operation has succeeded. -/
theorem test_save :
    (fun t => (t.store.state, t.store.valid, t.store.image.isNone, t.store.copy.map (·.period))) (after .save
      { small [] [] with store := ⟨.ready, true, imageFile Stored.blank, none⟩, link := { Link.reset with period := 40 } })
      = (.saving, false, true, some 40) := by decide +kernel

/-- Chapter 12, save cut short, step 2: a write of a stored table is refused while the store is Saving. -/
theorem test_write_while_saving : State.resultOf (after (.deleteGroup 1) (after .save (small [] []))) = some .storeBusy := by decide +kernel

/-- R157: verification that fails leaves no image and raises STORE_FAIL. -/
theorem test_save_operation_end :
    (fun t => (t.store.state, t.store.valid, t.port.isSet .storeFail)) (after (.saveOperationEnd false) (after .save (small [] [])))
      = (.ready, false, true) := by decide +kernel

/-- R158: an erased store has no image. -/
theorem test_erase_store :
    (fun t => (t.store.state, t.store.image.isNone, t.port.isSet .storeDone)) (after .eraseOperationEnd (after .eraseStore
      { small [] [] with store := ⟨.ready, true, imageFile Stored.blank, none⟩ })) = (.ready, true, true) := by decide +kernel

/-- R159: Ready, 0, and not valid, 1. -/
theorem test_read_store_state : State.payloadIn (after .readStoreState (small [] [])) = some [0, 1] := by decide +kernel

/-- Chapter 12, save cut short, steps 4 and 5: the supply lost in a save leaves no image, and the next start finds the store blank. -/
theorem test_power_on_after_lost_save :
    (fun t => (t.phase, t.store.valid, t.port.isSet .storeBlank, t.link.period)) (after .powerOn (after .supplyLost (after .save
      { small [] [] with store := ⟨.ready, true, imageFile Stored.blank, none⟩, link := { Link.reset with period := 40 } })))
      = (.settling, false, true, 25) := by decide +kernel

/-- R160: the supply rises while the RESET pin is low: the part holds. -/
theorem test_power_on_held :
    (after .powerOn (after .supplyLost (after .resetPinLow (small [] [])))).phase = .held := by decide +kernel

/-- R160: the RESET pin low holds the part, and its release starts it with cause Pin. -/
theorem test_reset_pin :
    ((after .resetPinLow (small [] [])).phase, (after .resetPinRelease (after .resetPinLow (small [] []))).startCause) = (.held, .pin) := by
  decide +kernel

/-- R155, R160: RESTART starts the part again, and the port is Starting. -/
theorem test_restart :
    (fun t => (t.startCause, t.port.state, t.port.slot)) (after .restart (small [] [])) = (.restart, .starting, none) := by decide +kernel

/-- R122: a Momentary input found closed is Stuck, without an event, and INPUT_STUCK is raised with STARTED. -/
theorem test_input_settling_end :
    (fun t => (t.phase, t.inputs.map (·.state), t.port.isSet .inputStuck, t.port.isSet .started)) (after .inputSettlingEnd
      { small [] [] with phase := .settling, inputs := [⟨push, ⟨false, 0, 10, true⟩, .unused, 0⟩] }) = (.running, [.stuck], true, true) := by
  decide +kernel

/-- A command from the queue: the step of the front command (log 21). -/
theorem test_step : (match step { small [] [] with pending := [.setLinkConfig 10, .fadeTick] } with
    | .next t => (t.link.period, t.pending)
    | _ => (0, [])) = (10, [.fadeTick]) := by decide +kernel

/-! ## Hypotheses met: the invariants -/

/-- A circuit held by a raise, with a safe level. -/
def held : Circuit := withLocal (lit { dimmed 60 750 with safe1 := some 1000 } 0) (.moving 300 .up 50 85 470) (some (0, a7 2))

/-- The raise that holds it. -/
def raiseGroup : Binding := bind (a7 2) .hold .raise (.group 1)

/-- A busy running part that keeps every law, with a given slot 0 and before SAVE is taken. -/
def busyWith (x : Slot) : State :=
  { State.reset with
    startCause := .pin
    circuits := List.replicate 384 held
    slots := x :: List.replicate 1023 .free
    index := [⟨a7 2, .hold, [0]⟩]
    groups := some [5, 384] :: List.replicate 63 none
    scenes := some ⟨some 30, [(5, 100), (384, 1000)]⟩ :: List.replicate 31 none
    lineA := { LineCtl.reset with
      stations := [station7 (some true) 2], lastPolled := some 7, exchange := some ⟨.poll 7, [], 24, 4, true, false⟩ }
    lineB := { LineCtl.reset with
      census := .running, censusList := [⟨9, 6, true⟩], censusAddr := 40, exchange := some ⟨.census 40, [], 24, 4, true, false⟩ }
    inputs := List.replicate 24 ⟨push, Pin.at false, .held, 700⟩
    stage1 := ⟨.standby, .cue1, [(20, .claim 100 50), (61, .release 20)]⟩
    ignored2 := 255
    link := { Link.reset with owed := true, nextStart := none, late := 255 }
    port := { Port.reset with state := .done, slot := some ⟨0x90, .ok, []⟩ }
    pending := [.fadeTick] }

/-- The part with its binding Live. -/
def busyReady : State := busyWith (.live raiseGroup)

/-- The same part while a SAVE is under way. -/
def busy : State := { busyReady with store := ⟨.saving, false, [], some busyReady.stored⟩ }

theorem busy_circuit {c : Circuit} (h : c ∈ busy.circuits) : c = held := List.eq_of_mem_replicate (n := 384) h

theorem busy_slot (x : Slot) (n : Nat) : slotAt (busyWith x).slots n = if n = 0 then x else .free := by
  show (x :: List.replicate 1023 Slot.free).getD n .free = _
  cases n with
  | zero => rfl
  | succ n =>
    rw [List.getD_cons_succ, if_neg (Nat.succ_ne_zero n), List.getD_eq_getElem?_getD, List.getElem?_replicate]
    split <;> rfl

theorem busy_record {x : Slot} (hx : x.record = some raiseGroup) {n : Nat} {b : Binding}
    (h : (slotAt (busyWith x).slots n).record = some b) : n = 0 ∧ b = raiseGroup := by
  rw [busy_slot] at h
  split at h
  · exact ⟨‹_›, (Option.some.inj (hx.symm.trans h)).symm⟩
  · cases h

/-- An erased store says nothing of any table. -/
theorem none_stored {s : State} {p : Stored → Prop} (h : s.store.image = none) (k : s.store.copy = none) : s.store.All p :=
  ⟨fun _ ht => (by rw [h] at ht; cases ht), fun _ ht => (by rw [k] at ht; cases ht)⟩

/-- What a table of the image says of the busy part is what its copy says. -/
theorem busy_copy {p : Stored → Prop} (h : p busy.stored) : busy.store.All p := by
  refine ⟨fun t ht => ?_, fun t ht => ?_⟩
  · rw [show busy.store.image = none from rfl] at ht; cases ht
  · cases ht; exact h

theorem busy_legalCircuits : LegalCircuits (busy.circuits.map (·.cfg)) :=
  ⟨by decide +kernel, fun cfg h => by
    obtain ⟨c, hc, rfl⟩ := List.mem_map.1 h
    rw [busy_circuit hc]
    refine ⟨by decide, by decide, by decide, by decide, by decide, by decide, fun m => by cases m <;> decide, ?_⟩
    intro i l h
    cases i <;> cases h
    decide⟩

/-- For EveryStepKeepsCircuitsSound and OutputsAreWithinLimits. -/
theorem witness_circuits : busy.CircuitsSound ∧ step busy = .next (after .fadeTick { busy with pending := [] }) :=
  ⟨⟨busy_legalCircuits, fun c h => by rw [busy_circuit h]; exact ⟨by decide, by decide⟩, busy_copy busy_legalCircuits⟩, rfl⟩

/-- For EveryStepKeepsLayersSound. -/
theorem witness_layers :
    busy.BaseSound ∧ busy.MovementSound ∧ busy.SafeSound ∧ step busy = .next (after .fadeTick { busy with pending := [] }) := by
  refine ⟨⟨fun _ c h => by rw [busy_circuit h]; rfl, fun h => absurd rfl h⟩, fun c h => ?_, fun _ c h => ?_, rfl⟩
  · rw [busy_circuit h]
    refine ⟨fun l f hf hm => ?_, fun cl hc _ => by cases hc; exact ⟨rfl, rfl⟩⟩
    cases l <;> cases hf <;> first | rfl | cases hm
  · rw [busy_circuit h]; rfl

theorem busy_slotsHolding {x : Slot} (hx : x.record = some raiseGroup) (k : SourceKey) (e : EventKind) :
    slotsHolding (busyWith x).slots k e = if a7 2 = k ∧ EventKind.hold = e then [0] else [] := by
  have : List.range (busyWith x).slots.length = 0 :: (List.range 1023).map Nat.succ := by
    show List.range (List.length (x :: List.replicate 1023 Slot.free)) = _
    rw [List.length_cons, List.length_replicate, List.range_succ_eq_map]
  unfold slotsHolding
  rw [this, List.filter_cons, List.filter_eq_nil_iff.2]
  · rw [busy_slot, if_pos rfl, hx]
    simp only [Option.any_some, raiseGroup, bind]
    by_cases h1 : a7 2 = k <;> by_cases h2 : EventKind.hold = e <;> simp [h1, h2]
  · intro n hn
    obtain ⟨m, -, rfl⟩ := List.mem_map.1 hn
    rw [busy_slot, if_neg (Nat.succ_ne_zero m)]
    simp [Slot.record]

theorem busy_legalSlots {x : Slot} (hx : x.record = some raiseGroup) : LegalSlots (busyWith x).slots := by
  refine ⟨congrArg (· + 1) List.length_replicate, fun n b h => ?_,
    fun n m b c h k _ => by rw [(busy_record hx h).1, (busy_record hx k).1], fun k e => ?_⟩
  · rw [(busy_record hx h).2]
    exact ⟨⟨by decide, by decide, by decide, by decide⟩, ⟨by decide, by decide⟩, ⟨.closed, rfl⟩, by decide, fun _ h => (nomatch h),
      fun _ h => (nomatch h), fun _ h => (nomatch h)⟩
  · rw [busy_slotsHolding hx]
    split <;> decide

theorem busy_index {x : Slot} (hx : x.record = some raiseGroup) : IndexAgrees (busyWith x).index (busyWith x).slots := by
  refine ⟨fun k e => ?_, fun x h => ?_, List.pairwise_singleton _ _⟩
  · rw [busy_slotsHolding hx]
    show (Option.map _ (List.find? _ [(⟨a7 2, .hold, [0]⟩ : IndexEntry)])).getD [] = _
    by_cases h1 : a7 2 = k <;> by_cases h2 : EventKind.hold = e <;> simp [h1, h2]
  · rw [List.mem_singleton.1 h]; exact List.cons_ne_nil _ _

theorem busy_bindings {x : Slot} (hx : x.record = some raiseGroup) : (busyWith x).BindingsSound :=
  ⟨busy_legalSlots hx, busy_index hx, none_stored rfl rfl⟩

/-- For EveryStepKeepsBindingsSound. -/
theorem witness_bindings : busy.BindingsSound ∧ step busy = .next (after .fadeTick { busy with pending := [] }) :=
  ⟨⟨busy_legalSlots rfl, busy_index rfl, busy_copy (busy_legalSlots rfl)⟩, rfl⟩

theorem busy_legalGroups : LegalGroups busy.groups := by
  refine ⟨by decide +kernel, fun l h => ?_, by decide +kernel⟩
  rcases List.mem_cons.1 h with h | h
  · cases h; exact ⟨by decide, by decide⟩
  · cases List.eq_of_mem_replicate h

theorem busy_legalScenes : LegalScenes busy.scenes := by
  refine ⟨by decide +kernel, fun l h => ?_, by decide +kernel⟩
  rcases List.mem_cons.1 h with h | h
  · cases h
    exact ⟨by decide, ⟨by decide, by decide⟩, by decide, fun f hf => by cases hf; decide⟩
  · cases List.eq_of_mem_replicate h

theorem busy_targets : busy.TargetsSound := ⟨busy_legalGroups, busy_legalScenes, busy_copy ⟨busy_legalGroups, busy_legalScenes⟩⟩

theorem busy_stages : busy.StagesSound := by
  refine ⟨⟨⟨by decide, by decide⟩, fun e h => ?_, by decide⟩, ⟨⟨by decide, by decide⟩, fun e h => (nomatch h), by decide⟩, by decide, by decide⟩
  rcases List.mem_cons.1 h with rfl | h
  · exact ⟨by decide, by decide⟩
  · rw [List.mem_singleton.1 h]; exact (by decide : 20 ≤ 6000)

/-- For EveryStepKeepsTargetsAndStagesSound. -/
theorem witness_targets_and_stages :
    busy.CircuitsSound ∧ busy.TargetsSound ∧ busy.StagesSound ∧ step busy = .next (after .fadeTick { busy with pending := [] }) :=
  ⟨witness_circuits.1, busy_targets, busy_stages, rfl⟩

theorem busy_lines : busy.LinesSound := by
  have hb : LineConfig.blank.Legal := ⟨by decide, by decide, by decide⟩
  have hi : LegalIdents (busy.lineA.stations.map (·.ident)) := ⟨by decide, by decide, by decide⟩
  have hj : LegalIdents (busy.lineB.stations.map (·.ident)) := ⟨by decide, by decide, by decide⟩
  refine ⟨⟨hb, hi, fun r h => ?_, by decide, by decide, by decide, by decide, by decide⟩,
    ⟨hb, hj, fun r h => (nomatch h), by decide, by decide, by decide, by decide, by decide⟩, busy_copy ⟨hb, hi, hb, hj⟩⟩
  rw [List.mem_singleton.1 h]
  exact ⟨by decide, by decide, by decide, by decide⟩

theorem busy_census : busy.CensusSound := by
  refine ⟨⟨by decide, by decide, by decide, by decide, ?_, ?_⟩, by decide, by decide, by decide, by decide, ?_, ?_⟩
  · rintro a (⟨x, hx, hk⟩ | h)
    · cases hx; cases hk
    · cases h
  · intro x a hx hk; cases hx; cases hk
  · rintro a (⟨x, hx, hk⟩ | h)
    · cases hx; cases hk; exact ⟨rfl, by decide, by decide⟩
    · cases h
  · intro x a _ _; rfl

/-- For EveryStepKeepsLinesAndCensusSound. -/
theorem witness_lines_and_census :
    busy.LinesSound ∧ busy.CensusSound ∧ step busy = .next (after .fadeTick { busy with pending := [] }) := ⟨busy_lines, busy_census, rfl⟩

theorem busy_inputs : busy.InputsSound := by
  have h : LegalInputs (busy.inputs.map (·.config)) := by
    refine ⟨by decide, fun c hc => ?_⟩
    rw [List.eq_of_mem_replicate (n := 24) (show c ∈ List.replicate 24 push from hc)]
    exact ⟨by decide, by decide, by decide, by decide, by decide, by decide⟩
  refine ⟨h, fun _ x hx => ?_, busy_copy h⟩
  rw [List.eq_of_mem_replicate (n := 24) hx]
  exact ⟨⟨by decide, by decide, by decide, by decide, by decide, by decide⟩, by decide, by decide, by decide, by decide⟩

/-- For EveryStepKeepsInputsSound. -/
theorem witness_inputs : busy.InputsSound ∧ step busy = .next (after .fadeTick { busy with pending := [] }) := ⟨busy_inputs, rfl⟩

/-- For EveryStepKeepsLinkAndOptionsSound. -/
theorem witness_link_and_options :
    busy.LinkSound ∧ busy.OptionsSound ∧ step busy = .next (after .fadeTick { busy with pending := [] }) := by
  have h : ModeOptions.blank.Legal := ⟨by decide, by decide, by decide, by decide, by decide⟩
  exact ⟨⟨by decide, by decide, by decide, by decide, by decide, by decide, by decide, busy_copy ⟨by decide, by decide⟩⟩,
    ⟨h, busy_copy h⟩, rfl⟩

theorem busy_port : busy.PortSound := ⟨by decide, by decide, by decide, by decide, by decide, nofun, nofun⟩

theorem busy_store : busy.StoreSound := ⟨fun _ => rfl, fun _ => rfl, by decide, by decide⟩

/-- For EveryStepKeepsPortAndStoreSound. -/
theorem witness_port_and_store :
    busy.PortSound ∧ busy.StoreSound ∧ busy.ResetPinSound ∧ step busy = .next (after .fadeTick { busy with pending := [] }) :=
  ⟨busy_port, busy_store, fun _ => by decide, rfl⟩

/-! ## Hypotheses met: start-up and the port -/

theorem serves {i : Instr} {s : State} (h : s.phase = .running) (k : s.port.state ≠ .working) (x : s.spi = none := by rfl) : s.Serves i :=
  ⟨h, by rw [if_neg k]; exact x⟩

/-- A part in step 4 of start-up with one circuit and a reply in the slot. -/
def settling : State :=
  { small [Circuit.bare (dimmed 60 750)] [] with
    phase := .settling, port := { Port.reset with state := .done, slot := some ⟨0x41, .starting, []⟩, flags := 0, overrun := true } }

/-- For StepRunsTheFrontCommand. -/
theorem witness_idle_step : State.reset.pending = [] := rfl

/-- For StartUpArrivalsBeginStartUp. -/
theorem witness_start_up :
    busy.phase ≠ .unpowered ∧ busy.resetLow = false ∧ busyReady.Serves .restart ∧ busyReady.store.state = .ready :=
  ⟨by decide, rfl, serves rfl (by decide), rfl⟩

/-- For SettlingEndRunsStartUpToItsEnd. -/
theorem witness_settling_end :
    settling.phase = .settling ∧ (settling.line .a).config.canRun = true ∧ ∀ x ∈ settling.circuits, x = Circuit.bare x.cfg := by decide +kernel

/-- For SupplyLossAndResetStopThePart. -/
theorem witness_supply_and_reset :
    busy.phase ≠ .unpowered ∧ busy.StoreSound ∧ busy.store.state ≠ .ready
      ∧ (after .resetPinLow (after .supplyLost busy)).resetLow = true ∧ (after .supplyLost busy).phase = .unpowered :=
  ⟨by decide, busy_store, by decide, rfl, rfl⟩

/-- For NothingIsCarriedOutOutsideRunning. -/
theorem witness_outside_running :
    takenInAnyPhase .fadeTick = false ∧ takenInAnyPhase .save = false ∧ settling.phase ≠ .running ∧ settling.spi = none
      ∧ { settling with phase := .unpowered }.phase ≠ .running := by decide

/-- For ReadingARequestUndoesWritingIt. -/
theorem witness_codec :
    (Instr.writeGroup 255 (List.replicate 62 (384, 65535))).wellFormed = true
      ∧ requestCode (.writeGroup 255 (List.replicate 62 (384, 65535))) = some 0x30
      ∧ (Instr.setMode 4 none).wellFormed = true ∧ requestCode (.setMode 4 none) = some 0x40 := by decide +kernel

/-- For RequestFramesAreJudged. -/
theorem witness_frames :
    250 < (251 : Byte).toNat ∧ ([] : List Byte).length ≤ (0 : Byte).toNat
      ∧ (250 : Byte).toNat ≤ 250 ∧ (List.replicate 250 (0 : Byte)).length = (250 : Byte).toNat := by decide +kernel

/-- For RequestTransactionsAreTakenByThePortState. -/
theorem witness_transactions :
    (settling.phase = .settling ∧ settling.spi = none ∧ busy.phase = .running ∧ busy.spi = none ∧ busy.port.state ≠ .working
      ∧ (State.reset.accept .readMode).phase = .running ∧ (State.reset.accept .readMode).port.state = .working)
    ∧ judgeFrame [0x41, 0x00, 0xE7] = .complete 0x41 [] ∧ parseRequest (0x41 : Byte).toNat [] = .request .readMode
    ∧ judgeFrame [0x41, 0x00, 0xE6] = .wrongCheck 0x41 ∧ judgeFrame [0x41] = .short 0x41
    ∧ judgeFrame [0x99, 0x00, crc8 [0x99, 0x00]] = .complete 0x99 [] ∧ parseRequest (0x99 : Byte).toNat [] = .unknown
    ∧ judgeFrame [0x41, 0x01, 0x00, crc8 [0x41, 0x01, 0x00]] = .complete 0x41 [0x00]
    ∧ parseRequest (0x41 : Byte).toNat [0x00] = .badLength := by decide +kernel

/-- A reply without payload is five bytes: a fetch of 5, the status byte among them, leaves it, and one of 6 takes it. For FetchesShiftTheReplyOut. -/
theorem witness_fetches :
    (settling.phase = .settling ∧ settling.PortSound ∧ settling.port.state = .done ∧ settling.port.slot = some ⟨0x41, .starting, []⟩
      ∧ 5 < 1 + (Reply.mk 0x41 .starting []).frame.length ∧ 1 + (Reply.mk 0x41 .starting []).frame.length ≤ 6)
    ∧ State.reset.phase = .running ∧ State.reset.PortSound ∧ State.reset.port.state ≠ .done :=
  ⟨⟨rfl, ⟨by decide, by decide, by decide, by decide, by decide, nofun, nofun⟩, rfl, rfl, by decide, by decide⟩, rfl,
    ⟨by decide, by decide, by decide, by decide, by decide, nofun, nofun⟩, by decide⟩

/-- A fetch in progress: its selector clocked; its status byte, with the reply that was due at it, and without one; a transaction of another kind;
and SEL just fallen. For FetchesShiftTheReplyOut and RequestTransactionsAreTakenByThePortState. -/
theorem witness_transactions_in_progress :
    (∀ x, ({ settling with spi := some x }).spi = some x ∧ ({ settling with spi := some x }).phase = .settling)
    ∧ ({ settling with spi := some ⟨[0x3C], none, false, none⟩ }).PortSound
    ∧ ({ settling with spi := some ⟨[0x3C, 0], some (Reply.mk 0x41 .starting []).frame, true, none⟩ }).PortSound
    ∧ 0 + 4 < (Reply.mk 0x41 .starting []).frame.length ∧ (Reply.mk 0x41 .starting []).frame.length ≤ 0 + 5
    ∧ ({ State.reset with spi := some ⟨[0x3C, 0], none, true, none⟩ }).PortSound
    ∧ ({ settling with spi := some ⟨[0xC3, 0x41], none, false, some ⟨0, [true]⟩⟩ }).PortSound
    ∧ (0x41 : Byte) ≠ 0xC3 ∧ (0x41 : Byte) ≠ 0x3C ∧ [].head? ≠ some (0xC3 : Byte) ∧ [].head? ≠ some (0x3C : Byte)
    ∧ ({ settling with spi := some ⟨[], none, false, none⟩, sdo := [] }).sdo = []
    ∧ [true, false, true, false, false, true].length < 7
    ∧ [true, false, true, false, false, true, false] ++ [true] = [(0xA5 : Byte).getLsbD 7, (0xA5 : Byte).getLsbD 6, (0xA5 : Byte).getLsbD 5,
      (0xA5 : Byte).getLsbD 4, (0xA5 : Byte).getLsbD 3, (0xA5 : Byte).getLsbD 2, (0xA5 : Byte).getLsbD 1, (0xA5 : Byte).getLsbD 0] :=
  ⟨fun _ => ⟨rfl, rfl⟩, ⟨by decide, by decide, by decide, by decide, by decide, fun _ _ h k => (by cases h; cases k), fun _ _ h k => (by cases h; cases k)⟩,
    ⟨by decide, by decide, by decide, by decide, by decide, fun _ _ h k => (by cases h; cases k; exact ⟨rfl, _, rfl, rfl⟩), fun _ _ h k => (by cases h; cases k)⟩, by decide, by decide,
    ⟨by decide, by decide, by decide, by decide, by decide, fun _ _ h k => (by cases h; cases k), fun _ _ h k => (by cases h; cases k)⟩,
    ⟨by decide, by decide, by decide, by decide, by decide, fun _ _ h k => (by cases h; cases k), fun _ _ h k => (by cases h; cases k; decide)⟩,
    by decide, by decide, nofun, nofun, rfl, by decide, by decide⟩

/-- For TheStatusByteReportsItsItems. -/
theorem witness_status : State.reset.phase = .running := rfl

/-- For AttentionRequestsClearAndMask. -/
theorem witness_attention :
    (∀ n, busyReady.Serves (.clearAttention n) ∧ busyReady.Serves (.setAttentionMask n)) ∧ busyReady.store.state = .ready
      ∧ 2 ^ 13 - 1 < 2 ^ 13 ∧ 2 ^ 13 ≤ 2 ^ 13 :=
  ⟨fun _ => ⟨serves rfl (by decide), serves rfl (by decide)⟩, rfl, by decide, by decide⟩

/-- For WritesAreRefusedWhileTheStoreIsBusy. -/
theorem witness_store_busy :
    busy.Serves (.deleteGroup 1) ∧ busy.Serves .restart ∧ busy.store.state ≠ .ready ∧ writesImage (.deleteGroup 1) = true :=
  ⟨serves rfl (by decide), serves rfl (by decide), by decide, by decide⟩

/-- For ReadsOfThePartReportAndChangeNothing. -/
theorem witness_reads_of_the_part :
    (∀ i, busy.Serves i) ∧ 369 + 16 - 1 ≤ 384 ∧ 384 + 1 - 1 ≤ 384 := ⟨fun _ => serves rfl (by decide), by decide, by decide⟩

/-- For ReadsOfTheRecordsReportAndChangeNothing. -/
theorem witness_reads_of_the_records :
    (∀ i, busyReady.Serves i)
    ∧ (slotAt busyReady.slots 0).record = some raiseGroup ∧ keyOf (rawA7 2) = some (a7 2) ∧ kindOf 2 = some .hold
    ∧ groupAt busyReady.groups 1 = some [5, 384]
    ∧ sceneAt busyReady.scenes 1 = some ⟨some 30, [(5, 100), (384, 1000)]⟩
    ∧ stageIdOf 1 = some .one ∧ stageIdOf 2 = some .two
    ∧ lineOf 0 = some .a ∧ lineOf 1 = some .b ∧ stationAt (busyReady.line .a).stations 7 = some (station7 (some true) 2)
    ∧ busyReady.contact 1 = some ⟨push, Pin.at false, .held, 700⟩ ∧ busyReady.contact 24 = some ⟨push, Pin.at false, .held, 700⟩ :=
  ⟨fun _ => serves rfl (by decide), by decide +kernel⟩

/-- Boundary numbers of the record tables: slot 1023, group 64, scene 32 and address 62 hold records here. For ReadsOfTheRecordsReportAndChangeNothing. -/
theorem witness_reads_at_the_ends :
    (slotAt (List.replicate 1023 Slot.free ++ [.live raiseGroup]) 1023).record = some raiseGroup
    ∧ groupAt (List.replicate 63 none ++ [some [384]]) 64 = some [384]
    ∧ sceneAt (List.replicate 31 none ++ [some ⟨none, [(1, 0)]⟩]) 32 = some ⟨none, [(1, 0)]⟩
    ∧ stationAt [⟨⟨62, 10, false⟩, .absent, 0, none, 0⟩] 62 = some ⟨⟨62, 10, false⟩, .absent, 0, none, 0⟩ := by decide +kernel

/-! ## Hypotheses met: circuits -/

/-- Circuits for the cases of claims and releases: decided by Local, and by Show over Local. -/
def shown : Circuit := withShow held (.fading 750 300 200 100)

/-- For ClaimLevelMakesTheClaim. -/
theorem witness_claim_level :
    busyReady.Serves (.claimLevel 384 1 1000 6000) ∧ circuitAt busyReady.circuits 384 = some held
    ∧ (small [shown] []).Serves (.claimLevel 1 2 0 0) ∧ circuitAt (small [shown] []).circuits 1 = some shown ∧ shown.Settled
    ∧ shown.decides .show' = true ∧ shown.decides .local' = false :=
  ⟨serves rfl (by decide), by decide +kernel, serves rfl (by decide), by decide +kernel, ⟨by decide, by decide⟩, by decide, by decide⟩

/-- For ReleaseLayerReleasesTheLayer. -/
theorem witness_release_layer :
    busyReady.Serves (.releaseLayer 384 1 6000) ∧ circuitAt busyReady.circuits 384 = some held ∧ held.Settled ∧ held.base.isSome = true
    ∧ held.deciding = some .local' ∧ held.form? .show' = none
    ∧ (small [shown] []).Serves (.releaseLayer 1 1 0) ∧ circuitAt (small [shown] []).circuits 1 = some shown ∧ shown.Settled
    ∧ shown.base.isSome = true ∧ shown.form? .local' ≠ none ∧ shown.deciding ≠ some .local' :=
  ⟨serves rfl (by decide), by decide +kernel, ⟨by decide, by decide⟩, rfl, rfl, rfl, serves rfl (by decide), by decide +kernel,
    ⟨by decide, by decide⟩, rfl, by decide, by decide⟩

/-- A cap written down to the floor, which keeps the kind, and a change of kind. For SetCircuitConfigWritesItsSpan. -/
theorem witness_set_circuit_config :
    (∀ f, busyReady.Serves (.setCircuitConfig 1 384 f)) ∧ busyReady.store.state = .ready
    ∧ circuitFieldsInRange { noCircuitFields with cap := some 60 } = true ∧ circuitFieldsInRange { noCircuitFields with kind := some 1 } = true
    ∧ (∀ n x, circuitAt busyReady.circuits n = some x → (x.cfg.withFields { noCircuitFields with cap := some 60 }).floor
        ≤ (x.cfg.withFields { noCircuitFields with cap := some 60 }).cap
      ∧ 1 ≤ (x.cfg.withFields { noCircuitFields with cap := some 60 }).cap
      ∧ (x.cfg.withFields { noCircuitFields with kind := some 1 }).kind ≠ x.cfg.kind) :=
  ⟨fun _ => serves rfl (by decide), rfl, by decide, by decide, fun n x h => by
    rw [busy_circuit (circuitAt_mem h)]; exact ⟨by decide, by decide, by decide⟩⟩

/-- Numbers one outside their ranges, a field out of range, and a record with its cap below its floor. For ClaimLevelMakesTheClaim,
ReleaseLayerReleasesTheLayer and SetCircuitConfigWritesItsSpan. -/
theorem witness_circuit_refusals :
    (∀ i, busyReady.Serves i) ∧ busyReady.store.state = .ready ∧ (0 < 1 ∧ 384 < 385 ∧ 1000 < 1001 ∧ 6000 < 6001 ∧ (3 ≠ 1 ∧ 3 ≠ 2))
    ∧ circuitFieldsInRange { noCircuitFields with floor := some 501 } = false
    ∧ circuitAt busyReady.circuits 384 = some held
    ∧ (held.cfg.withFields { noCircuitFields with cap := some 59 }).cap < (held.cfg.withFields { noCircuitFields with cap := some 59 }).floor :=
  ⟨fun _ => serves rfl (by decide), rfl, by decide, by decide, by decide +kernel, by decide⟩

/-- The four layers at their forms and owners. For ReadsOfThePartReportAndChangeNothing. -/
theorem witness_layer_blocks :
    shown.form? .base = some (.steady 0) ∧ shown.form? .safe = none ∧ shown.form? .show' = some (.fading 750 300 200 100)
      ∧ shown.form? .local' = some (.moving 300 .up 50 85 470) ∧ shown.deciding = some .show'
      ∧ shown.local'.map (·.owner) = some (some (0, a7 2)) := by decide

/-- For FadeTickAdvancesEveryClaim. -/
theorem witness_fade_tick : busyReady.phase = .running ∧ circuitAt busyReady.circuits 384 = some held := ⟨rfl, by decide +kernel⟩

/-- For FadesAndHandoversComplete. -/
theorem witness_fade_and_handover_ends :
    (small [shown, { lit (dimmed 0 1000) 500 with handover := some ⟨700, 200, 200⟩ }] []).phase = .running
    ∧ shown.form? .show' = some (.fading 750 300 200 100)
    ∧ ({ lit (dimmed 0 1000) 500 with handover := some ⟨700, 200, 200⟩ } : Circuit).handover.isSome = true := ⟨rfl, rfl, rfl⟩

/-- For AFadeRunsMonotonelyForItsDuration. -/
theorem witness_fades : 1000 ≤ 1000 ∧ 0 ≤ 1000 ∧ 1 ≤ 60000 ∧ 59999 < 60000 ∧ 9 < 10 * 1 ∧ 10 * 1 ≤ 10 := by decide

/-- For RaiseAndLowerStartWithinTheLimitsAndSaturate. -/
theorem witness_raise_and_lower :
    held.cfg.floor ≤ held.cfg.cap ∧ held.cfg.cap ≤ 1000 ∧ (lit switched 0).cfg.floor ≤ (lit switched 0).cfg.cap
      ∧ (lit switched 0).cfg.cap ≤ 1000 ∧ held.startLevel .local' ≠ 0 ∧ (lit (dimmed 0 1000) 0).startLevel .local' = 0 := by decide

/-! ## Hypotheses met: the binding table and events -/

/-- A raw record of a Press of button 2 that turns circuit 1 on, and the record it spells. -/
def onOne : Binding := { bind (a7 2) .press .on (.circuit 1) with feedback := true }

theorem onOne_checked : checkBinding rawOn = .ok onOne := by decide +kernel

/-- For AddBindingWritesTheLowestFreeSlot. -/
theorem witness_add_binding :
    busyReady.Serves (.addBinding rawOn) ∧ busyReady.store.state = .ready ∧ busyReady.BindingsSound ∧ checkBinding rawOn = .ok onOne
    ∧ slotAt busyReady.slots 1 = .free ∧ (∀ m, m < 1 → slotAt busyReady.slots m ≠ .free)
    ∧ (∀ m c, (slotAt busyReady.slots m).record = some c → onOne.same c = false)
    ∧ (slotsHolding busyReady.slots onOne.key onOne.kind).length < 8 := by
  refine ⟨serves rfl (by decide), rfl, busy_bindings rfl, onOne_checked, by decide +kernel, by decide +kernel, fun m c h => ?_, ?_⟩
  · rw [(busy_record rfl h).2]; decide
  · rw [busyReady, busy_slotsHolding rfl]; decide

/-- The refusals: a mask of no mode, a level with OFF, a full table, the same record, and eight Press bindings of the key. For AddBindingWritesTheLowestFreeSlot. -/
theorem witness_add_binding_refused :
    bindingOf { rawOn with mask := 0 } = none
    ∧ (bindingOf { rawOn with action := 1, level := some 100 }).map (·.agrees) = some false
    ∧ (∀ x ∈ (small [] [.live onOne]).slots, x ≠ .free)
    ∧ (∃ x ∈ (small [] [.live onOne, .free]).slots, x = .free) ∧ (slotAt (small [] [.live onOne, .free]).slots 0).record = some onOne
    ∧ onOne.same onOne = true
    ∧ 8 ≤ (indexList [⟨a7 2, .press, [0, 1, 2, 3, 4, 5, 6, 7]⟩] onOne.key onOne.kind).length
    ∧ (∀ s ∈ [small [] [.live onOne], small [] [.live onOne, .free],
        { small [] [.free] with index := [⟨a7 2, .press, [0, 1, 2, 3, 4, 5, 6, 7]⟩] }], s.Serves (.addBinding rawOn) ∧ s.store.state = .ready) := by
  refine ⟨by decide +kernel, by decide +kernel, by decide, ⟨.free, by decide, rfl⟩, rfl, by decide, by decide +kernel, fun s h => ?_⟩
  simp only [List.mem_cons, List.not_mem_nil, or_false] at h
  rcases h with rfl | rfl | rfl <;> exact ⟨serves rfl (by decide), rfl⟩

/-- For ReplaceBindingRewritesItsSlot. -/
theorem witness_replace_binding :
    (∀ x, (x = Slot.live raiseGroup ∨ x = .disabled raiseGroup) →
      (busyWith x).Serves (.replaceBinding 0 rawOn) ∧ (busyWith x).store.state = .ready ∧ (busyWith x).BindingsSound
      ∧ (slotAt (busyWith x).slots 0).record = some raiseGroup
      ∧ (∀ m c, m ≠ 0 → (slotAt (busyWith x).slots m).record = some c → onOne.same c = false)
      ∧ ((slotsHolding (busyWith x).slots onOne.key onOne.kind).filter (· ≠ 0)).length < 8) ∧ checkBinding rawOn = .ok onOne := by
  refine ⟨fun x h => ?_, onOne_checked⟩
  have hx : x.record = some raiseGroup := by rcases h with rfl | rfl <;> rfl
  refine ⟨serves rfl (by decide : PortState.done ≠ .working), rfl, busy_bindings hx, by rw [busy_slot]; exact hx, fun m c hm hr => absurd (busy_record hx hr).1 hm, ?_⟩
  rw [busy_slotsHolding hx]; decide

/-- For RetiringFreesTheSlotsAndClearsTheirClaims. -/
theorem witness_retire :
    busyReady.store.state = .ready ∧ busyReady.BindingsSound ∧ busyReady.Serves (.retireBinding 0)
      ∧ (slotAt busyReady.slots 0).record = some raiseGroup ∧ busyReady.Serves (.retireSource (rawA7 2)) ∧ keyOf (rawA7 2) = some (a7 2) :=
  ⟨rfl, busy_bindings rfl, serves rfl (by decide), by decide +kernel, serves rfl (by decide), by decide⟩

/-- For DisableAndEnableTurnASlot. -/
theorem witness_disable_and_enable :
    (∀ x n, (busyWith x).Serves (.disable n) ∧ (busyWith x).Serves (.enable n) ∧ (busyWith x).store.state = .ready)
    ∧ busyReady.slots.length = 1024 ∧ slotAt busyReady.slots 0 = .live raiseGroup ∧ slotAt busyReady.slots 1023 = .free
    ∧ (busyWith (.disabled raiseGroup)).slots.length = 1024 ∧ slotAt (busyWith (.disabled raiseGroup)).slots 0 = .disabled raiseGroup :=
  ⟨fun _ _ => ⟨serves rfl (by decide : PortState.done ≠ .working), serves rfl (by decide : PortState.done ≠ .working), rfl⟩, by decide +kernel⟩

/-- For EndingMovementIsNotSeen. -/
theorem witness_end_of_movement : held.Settled := ⟨by decide, by decide⟩

/-- For AnInjectedEventIsResolvedAsAnArrival. -/
theorem witness_inject_event :
    busyReady.Serves (.injectEvent (rawA7 2) 2) ∧ keyOf (rawA7 2) = some (a7 2) ∧ kindOf 2 = some .hold ∧ kindSuits (a7 2) .hold = true
      ∧ busyReady.Serves (.injectEvent (rawA7 2) 3) ∧ kindOf 3 = some .close ∧ kindSuits (a7 2) .close = false :=
  ⟨serves rfl (by decide), by decide, by decide, by decide, serves rfl (by decide), by decide, by decide⟩

/-- A part whose button 2 does one thing to one target, with the groups and scenes of the busy part. -/
def doing (a : Action) (t : Target) : State :=
  { small [held, lit (dimmed 0 1000) 200] [.live (bind (a7 2) .press a t)] with groups := busy.groups, scenes := busy.scenes }

theorem doing_targets (a : Action) (t : Target) : (doing a t).TargetsSound := ⟨busy_legalGroups, busy_legalScenes, none_stored rfl rfl⟩

/-- For ABindingActsOnEveryCircuitOfItsTarget (with doing_targets). -/
theorem witness_bindings_act :
    (∀ a ∈ [Action.on, .off, .toggle, .raise, .lower, .release], (doing a (.circuit 1)).matching (a7 2) .press = [(0, bind (a7 2) .press a (.circuit 1))]
      ∧ circuitAt ((doing a (.circuit 1)).endBySource (a7 2) .press).circuits 1 = some held
      ∧ 1 ∈ (doing a (.circuit 1)).targetCircuits (.circuit 1) ∧ 2 ∉ (doing a (.circuit 1)).targetCircuits (.circuit 1))
    ∧ (doing .toggle (.group 1)).matching (a7 2) .press = [(0, bind (a7 2) .press .toggle (.group 1))]
    ∧ circuitAt ((doing .toggle (.group 1)).endBySource (a7 2) .press).circuits 1 = some held
    ∧ 1 ∉ (doing .toggle (.group 1)).targetCircuits (.group 1) := by decide +kernel

/-- A mode binding, and two bindings that reach circuit 1, then one that reaches circuit 2. For ABindingActsOnEveryCircuitOfItsTarget. -/
theorem witness_modes_and_several :
    (doing .mode (.mode .work)).matching (a7 2) .press = [(0, bind (a7 2) .press .mode (.mode .work))]
    ∧ (small [held, held] ([Action.on, .release, .off].zipIdx.map fun p =>
        .live (bind (a7 2) .press p.1 (.circuit (if p.2 = 2 then 2 else 1))))).matching (a7 2) .press
      = [(0, bind (a7 2) .press .on (.circuit 1))] ++ (1, bind (a7 2) .press .release (.circuit 1))
        :: [(2, bind (a7 2) .press .off (.circuit 2))]
    ∧ (circuitAt (small [held, held] []).circuits 1).isSome = true := by decide +kernel

/-- For the part of ABindingActsOnEveryCircuitOfItsTarget that a request tells. -/
theorem witness_mode_by_request : busyReady.Serves (.setMode (modeCode .work) (some 6000)) := serves rfl (by decide)

/-- The busy part with a recall of its scene 1 by button 2. -/
def recalling : State := { busyReady with slots := [.live (bind (a7 2) .press .recall (.scene 1))], index := [⟨a7 2, .press, [0]⟩] }

/-- For ARecallMakesItsSceneActive. -/
theorem witness_recall :
    recalling.matching (a7 2) .press = [(0, bind (a7 2) .press .recall (.scene 1))] ∧ recalling.TargetsSound ∧ recalling.CircuitsSound
      ∧ sceneAt recalling.scenes 1 = some ⟨some 30, [(5, 100), (384, 1000)]⟩
      ∧ circuitAt (recalling.endBySource (a7 2) .press).circuits 384 = some held
      ∧ circuitAt (recalling.endBySource (a7 2) .press).circuits 6 = some held :=
  ⟨by decide +kernel, ⟨busy_legalGroups, busy_legalScenes, none_stored rfl rfl⟩,
    ⟨busy_legalCircuits, fun c h => by rw [busy_circuit h]; exact ⟨by decide, by decide⟩, none_stored rfl rfl⟩, by decide +kernel, by decide +kernel,
    by decide +kernel⟩

/-! ## Hypotheses met: groups, scenes and modes -/

/-- Four groups of every circuit, which fill the member pool. -/
def fullPool : State := { State.reset with groups := List.replicate 4 (some allCircuits) ++ List.replicate 60 none }

/-- For GroupsAreWrittenAndDeleted. -/
theorem witness_groups :
    (∀ i, fullPool.Serves i ∧ busyReady.Serves i) ∧ (fullPool.store.state = .ready ∧ busyReady.store.state = .ready)
    ∧ fullPool.groups.length = 64 ∧ busyReady.groups.length = 64 ∧ rangesInRange [(384, 384), (1, 384)] = true
    ∧ (fullPool.members 64).length + (1536 - membersUsed fullPool.groups) < (unionOf [(384, 384)]).length
    ∧ (unionOf [(384, 1)]).length ≤ (busyReady.members 64).length + (1536 - membersUsed busyReady.groups)
    ∧ groupAt busyReady.groups 64 = none ∧ groupAt busyReady.groups 1 = some [5, 384] :=
  ⟨fun _ => ⟨serves rfl (by decide), serves rfl (by decide)⟩, ⟨rfl, rfl⟩, by decide +kernel⟩

/-- For ScenesAreWrittenExtendedCapturedAndDeleted. -/
theorem witness_scenes :
    (∀ i, busyReady.Serves i) ∧ busyReady.store.state = .ready ∧ busyReady.TargetsSound ∧ busyReady.circuits.length = 384
    ∧ (entriesInRange [(384, 0), (384, 1000)] = true
      ∧ (sceneList [(384, 0), (384, 1000)]).length ≤ busyReady.sceneLength 32 + busyReady.entriesFree
      ∧ sceneAt busyReady.scenes 1 = some ⟨some 30, [(5, 100), (384, 1000)]⟩
      ∧ (mergeEntries [(5, 100), (384, 1000)] [(384, 0)]).length ≤ busyReady.sceneLength 1 + busyReady.entriesFree
      ∧ rangesInRange [(384, 384)] = true ∧ (unionOf [(384, 384)]).length ≤ busyReady.sceneLength 32 + busyReady.entriesFree
      ∧ sceneAt busyReady.scenes 32 = none)
    ∧ ∀ x ∈ busyReady.circuits, x.output ≤ 1000 :=
  ⟨fun _ => serves rfl (by decide), rfl, ⟨busy_legalGroups, busy_legalScenes, none_stored rfl rfl⟩, by decide +kernel, by decide +kernel,
    fun x h => by rw [busy_circuit h]; decide⟩

/-- Five scenes of every circuit and one of 128, which fill the entry pool. -/
def fullEntries : State :=
  { busyReady with
    scenes := List.replicate 5 (some ⟨none, (allCircuits.take 384).map fun c => (c, 0)⟩) ++ [some ⟨none, (allCircuits.take 128).map fun c => (c, 0)⟩]
      ++ List.replicate 26 none }

theorem full_scene (k : Nat) (h : allCircuits.take k ≠ []) : (⟨none, (allCircuits.take k).map fun c => (c, 0)⟩ : Scene).Legal := by
  have hm : ((allCircuits.take k).map fun c => (c, 0)).map (·.1) = allCircuits.take k := by simp [Function.comp_def]
  refine ⟨by simpa using h, ?_, fun e he => ?_, nofun⟩
  · show AscendingCircuits (((allCircuits.take k).map fun c => (c, 0)).map (·.1))
    rw [hm]
    have ha : allCircuits.Pairwise (· < ·) := List.pairwise_lt_range'
    refine ⟨ha.sublist (List.take_sublist _ _), fun c hc => ?_⟩
    have := List.mem_range'_1.1 (List.mem_of_mem_take hc)
    simp only [Config.circuits] at this ⊢
    omega
  · obtain ⟨c, -, rfl⟩ := List.mem_map.1 he
    exact Nat.zero_le _

theorem full_targets : fullEntries.TargetsSound := by
  refine ⟨busy_legalGroups, ⟨by decide +kernel, fun sc h => ?_, by decide +kernel⟩, none_stored rfl rfl⟩
  rcases List.mem_append.1 h with h | h
  · rcases List.mem_append.1 h with h | h
    · obtain rfl := Option.some.inj (List.eq_of_mem_replicate h)
      exact full_scene 384 (by decide +kernel)
    · obtain rfl := Option.some.inj (List.mem_singleton.1 h)
      exact full_scene 128 (by decide +kernel)
  · cases List.eq_of_mem_replicate h

/-- No room for one entry more, and numbers outside their ranges. For ScenesAreWrittenExtendedCapturedAndDeleted and
GroupsAreWrittenAndDeleted. -/
theorem witness_scene_refusals :
    (∀ i, fullEntries.Serves i) ∧ fullEntries.store.state = .ready ∧ fullEntries.TargetsSound ∧ fullEntries.circuits.length = 384
    ∧ fullEntries.sceneLength 32 + fullEntries.entriesFree < (sceneList [(384, 1)]).length
    ∧ sceneAt fullEntries.scenes 6 = some ⟨none, (allCircuits.take 128).map fun c => (c, 0)⟩ ∧ sceneAt fullEntries.scenes 32 = none
    ∧ fullEntries.sceneLength 6 + fullEntries.entriesFree
      < (mergeEntries ((allCircuits.take 128).map fun c => (c, 0)) [(384, 1)]).length
    ∧ fullEntries.sceneLength 32 + fullEntries.entriesFree < (unionOf [(384, 384)]).length
    ∧ (0 < 1 ∧ 32 < 33 ∧ 64 < 65 ∧ 60 < (List.replicate 61 (1, 1)).length ∧ 6000 < 6001 ∧ 1000 < 1001 ∧ 384 < 385) :=
  ⟨fun _ => serves rfl (by decide), rfl, full_targets, by decide +kernel, by decide +kernel, by decide +kernel, by decide +kernel,
    by decide +kernel, by decide +kernel, by decide⟩

/-- For SetModeChangesTheHouseMode. -/
theorem witness_set_mode :
    busyReady.Serves (.setMode 0 none) ∧ busyReady.Serves (.setMode 4 (some 6000)) ∧ modeOf 0 = some busyReady.mode
      ∧ modeOf 4 = some .performance ∧ Mode.performance ≠ busyReady.mode ∧ (busyReady.line .a).state = .running
      ∧ circuitAt busyReady.circuits 384 = some held ∧ held.Settled :=
  ⟨serves rfl (by decide), serves rfl (by decide), rfl, rfl, by decide, rfl, by decide +kernel, ⟨by decide, by decide⟩⟩

/-- For OptionsAndPeriodAreWritten. -/
theorem witness_options :
    (∀ i, busyReady.Serves i) ∧ busyReady.store.state = .ready
      ∧ optionFieldsInRange ⟨some 6000, some 6000, some 600, some 600, some (modeCode .performance)⟩ = true
      ∧ optionFieldsInRange ⟨none, none, some 601, none, none⟩ = false ∧ 9 < 10 ∧ 100 < 101 :=
  ⟨fun _ => serves rfl (by decide), rfl, by decide, by decide, by decide, by decide⟩

/-! ## Hypotheses met: station lines -/

/-- A part with a given Line A. -/
def onA (c : LineCtl) : State := { small [held] [] with lineA := c }

/-- Line A in each state, with station 7. -/
def quietA (x : LineState) : LineCtl := { lineOf7 (station7 (some true) 2) none false with state := x }

/-- Enabled or not, and nothing else, in SET LINE CONFIG. -/
def enableOnly (code : Nat) : LineFields := ⟨some code, none, none⟩

/-- For ALineFollowsItsConfiguration. -/
theorem witness_line_config :
    (∀ c i, (onA c).Serves i ∧ (onA c).store.state = .ready) ∧ lineOf 0 = some .a ∧ lineFieldsInRange (enableOnly 0) = true
    ∧ lineFieldsInRange (enableOnly 1) = true
    ∧ (((after (.setLineConfig 0 (enableOnly 0)) (onA (quietA .off))).line .a).config.canRun = true ∧ ((onA (quietA .off)).line .a).state = .off)
    ∧ (((after (.setLineConfig 0 (enableOnly 1)) (onA (quietA .off))).line .a).config.canRun = false
      ∧ ((after (.setLineConfig 0 (enableOnly 1)) (onA (quietA .fault))).line .a).config.canRun = false
      ∧ ((onA (quietA .fault)).line .a).state = .fault)
    ∧ (((after (.setLineConfig 0 (enableOnly 0)) (onA (quietA .fault))).line .a).config.canRun = true
      ∧ ((onA (quietA .fault)).line .a).state ≠ .off)
    ∧ (busyReady.line .a).state = .running ∧ (busyReady.line .a).exchange ≠ none :=
  ⟨fun _ _ => ⟨serves rfl (by decide : PortState.idle ≠ .working), rfl⟩, by decide +kernel⟩

/-- A line with forty stations, 1 to 40. -/
def forty : LineCtl := { LineCtl.reset with stations := (List.range' 1 40).map fun a => ⟨⟨a, 1, false⟩, .absent, 0, none, 0⟩ }

/-- For StationsAreEnrolledUnenrolledAndCounted. -/
theorem witness_stations :
    (∀ c i, (onA c).Serves i ∧ (onA c).store.state = .ready) ∧ (∀ i, busyReady.Serves i)
    ∧ lineOf 0 = some .a ∧ yesNoOf 1 = some false
    ∧ stationAt (busyReady.line .a).stations 7 = some (station7 (some true) 2) ∧ stationAt ((onA forty).line .a).stations 62 = none
    ∧ 40 ≤ ((onA forty).line .a).stations.length ∧ stationAt (busyReady.line .a).stations 62 = none
    ∧ (busyReady.line .a).stations.length < 40 ∧ ((onA (quietA .fault)).line .a).state ≠ .running
    ∧ (busyReady.line .b).state = .running ∧ (busyReady.line .b).census = .running ∧ (busyReady.line .a).census ≠ .running :=
  ⟨fun _ _ => ⟨serves rfl (by decide : PortState.idle ≠ .working), rfl⟩, fun _ => serves rfl (by decide), by decide +kernel⟩

/-- A Running line with nothing in flight: with an announce, in a wait, with repeats, walking, and with a census at its last addresses. For ALineChoosesItsNextExchange. -/
theorem witness_next_exchange :
    (∀ c, c = quietA .running ∨ c = { quietA .running with announce := some .work } ∨ c = { quietA .running with waiting := true }
        ∨ c = { quietA .running with again := some (.station 7) } ∨ c = { quietA .running with again := some (.census 62) }
        ∨ c = { quietA .running with lastPolled := some 7 } ∨ c = { quietA .running with lastPolled := some 7, census := .running, censusAddr := 7 }
        ∨ c = { quietA .running with lastPolled := some 7, census := .running, censusAddr := 63 } →
      (onA c).phase = .running ∧ ((onA c).line .a).state = .running ∧ ((onA c).line .a).exchange = none)
    ∧ stationAt (quietA .running).stations 7 = some (station7 (some true) 2) ∧ stationAt (quietA .running).stations 62 = none
    ∧ (quietA .running).stations = [] ++ station7 (some true) 2 :: [] ∧ (station7 (some true) 2).state ≠ .silent
    ∧ (∀ q ∈ (quietA .running).stations, ¬((∀ p, some 7 = some p → p < q.ident.address) ∧ (q.state ≠ .silent ∨ (quietA .running).round = 0)))
    ∧ stationAt (quietA .running).stations 8 = none
    ∧ (∀ d, 1 ≤ d → 7 ≤ d → d < 8 → (stationAt (quietA .running).stations d).isSome = true)
    ∧ ∀ d, 1 ≤ d → d ≤ 62 → 63 ≤ d → (stationAt (quietA .running).stations d).isSome = true := by
  refine ⟨fun c h => ?_, rfl, rfl, rfl, by decide, fun q hq h => ?_, rfl, fun d _ h1 h2 => ?_, fun d _ h1 h2 => ?_⟩
  · rcases h with rfl | rfl | rfl | rfl | rfl | rfl | rfl | rfl <;> exact ⟨rfl, rfl, rfl⟩
  · rw [List.mem_singleton.1 hq] at h
    exact absurd (h.1 7 rfl) (by decide)
  · have : d = 7 := by omega
    rw [this]; rfl
  · omega

/-- Button 2 follows a binding with feedback; button 1 has none. For APollCarriesTheAcknowledgementAndTheIndicators. -/
theorem witness_indicators :
    (station7 none 0).ident.indicators = true ∧ 4 ≤ (station7 none 0).ident.buttons ∧ (station7 none 0).ident.buttons ≤ 10
    ∧ (∀ n c, slotAt busyReady.slots n = .live c → c.feedback = true → c.key ≠ .station .a 7 1)
    ∧ slotAt busyReady.slots 0 = .live raiseGroup ∧ raiseGroup.feedback = true ∧ raiseGroup.key = .station .a 7 2 := by
  refine ⟨rfl, by decide, by decide, fun n c h _ => ?_, by decide +kernel, rfl, rfl⟩
  rw [(busy_record (x := .live raiseGroup) rfl (n := n) (b := c) (by rw [show (busyWith (.live raiseGroup)).slots = busyReady.slots from rfl, h]; rfl)).2]
  decide

/-- A line with an exchange in flight. -/
def flying (k : ExchangeKind) (sent discard : Bool) : LineCtl :=
  { quietA .running with exchange := some ⟨k, [], 24, 4, sent, discard⟩ }

/-- R104, R105, R160: the driver of Line A while a census poll is sent, in its reply window, and where the RESET pin is low while it is sent. -/
theorem test_driver_enable :
    (let s := onA ((quietA .running).pollCensus 9)
     [s.driverEnabled .a, s.driverEnabled .b, (after (.exchangeSent .a) s).driverEnabled .a, (after .resetPinLow s).driverEnabled .a])
      = [true, false, false, false] := by decide +kernel

/-- For ExchangesAreSentOrCollide. -/
theorem witness_exchanges_sent :
    (∀ k d, (onA (flying k false d)).phase = .running ∧ ((onA (flying k false d)).line .a).state = .running
      ∧ ((onA (flying k false d)).line .a).exchange = some ⟨k, [], 24, 4, false, d⟩)
    ∧ ({ flying (.poll 7) false false with collisions := 6 }).collisions ≤ 6
    ∧ 7 ≤ ({ flying (.poll 7) false false with collisions := 7 }).collisions
    ∧ (flying (.poll 7) false false).config.canRun = true
    ∧ ({ flying (.announce .work) false false with config := ⟨false, 24, 4⟩ } : LineCtl).config.canRun = false :=
  ⟨fun _ _ => ⟨rfl, rfl, rfl⟩, by decide, by decide, rfl, rfl⟩

/-- For RepliesAndMissesAreJudged. -/
theorem witness_replies :
    (∀ k d, (onA (flying k true d)).phase = .running ∧ ((onA (flying k true d)).line .a).state = .running
      ∧ ((onA (flying k true d)).line .a).config.canRun = true
      ∧ ((onA (flying k true d)).line .a).exchange = some ⟨k, [], 24, 4, true, d⟩
      ∧ stationAt ((onA (flying k true d)).line .a).stations 7 = some (station7 (some true) 2))
    ∧ (some pressReply).bind (judgeReply 7) = some ⟨true, false, [(2, .press)]⟩ ∧ (none : Option (List RxChar)).bind (judgeReply 7) = none
    ∧ (station7 (some true) 2).state ≠ .silent ∧ (station7 (some true) 2).lastBit = some true ∧ (station7 (some false) 2).lastBit ≠ some true
    ∧ (station7 none 1).misses + 1 < 3 ∧ 3 ≤ (station7 none 2).misses + 1
    ∧ ({ station7 none 3 with state := .silent } : Station).state = .silent :=
  ⟨fun _ _ => ⟨rfl, rfl, rfl, rfl, rfl⟩, by decide +kernel⟩

/-- A line that was disabled with its exchange in flight. For RepliesAndMissesAreJudged and BreaksFaultsAndWaitsBeginAndEnd. -/
theorem witness_line_that_cannot_run :
    (∀ k, (onA { flying k true false with config := ⟨false, 24, 4⟩ }).phase = .running
      ∧ ((onA { flying k true false with config := ⟨false, 24, 4⟩ }).line .a).state = .running
      ∧ ((onA { flying k true false with config := ⟨false, 24, 4⟩ }).line .a).exchange = some ⟨k, [], 24, 4, true, false⟩)
    ∧ (⟨false, 24, 4⟩ : LineConfig).canRun = false ∧ stationAt (flying (.poll 8) true false).stations 8 = none :=
  ⟨fun _ => ⟨rfl, rfl, rfl⟩, rfl, rfl⟩

/-- For BreaksFaultsAndWaitsBeginAndEnd. -/
theorem witness_breaks :
    (onA (quietA .running)).phase = .running ∧ ((onA (quietA .running)).line .a).state = .running
      ∧ ((onA (quietA .running)).line .a).config.canRun = true ∧ ((onA (quietA .fault)).line .a).state = .fault
      ∧ ((onA { quietA .running with waiting := true }).line .a).waiting = true := ⟨rfl, rfl, rfl, rfl, rfl⟩

/-! ## Hypotheses met: inputs -/

/-- A part with one contact input. -/
def onIn1 (x : ContactInput) : State := { small [held] [] with inputs := [x] }

/-- For InputsAreConfiguredWithoutEvents. -/
theorem witness_input_config :
    (∀ i, busyReady.Serves i) ∧ busyReady.store.state = .ready ∧ busyReady.contact 24 = some ⟨push, Pin.at false, .held, 700⟩
      ∧ inputFieldsInRange { noInputFields with polarity := some 1, debounce := some 64, holdTime := some 3000, stuckTime := some 600 } = true
      ∧ ({ noInputFields with edge := some 0 } : InputFields).edge ≠ none ∧ cueOf 27 = some .cue1 ∧ cueOf 28 = some .cue2
      ∧ anyContactField { noInputFields with kind := some 0 } = true
      ∧ anyContactField { noInputFields with edge := some (edgeCode .rising) } = false
      ∧ busyReady.inputs.length = 24 ∧ inputFieldsInRange { noInputFields with debounce := some 65 } = false
      ∧ anyContactField { noInputFields with edge := some 2 } = false ∧ inputFieldsInRange { noInputFields with edge := some 2 } = false :=
  ⟨fun _ => serves rfl (by decide), rfl, by decide +kernel⟩

/-- For ContactArrivalsBringTheirEvents. -/
theorem witness_contacts :
    (∀ x, (onIn1 x).phase = .running ∧ (onIn1 x).contact 1 = some x)
    ∧ push.kind = .momentary ∧ push.stuckTime ≠ 0 ∧ ({ push with kind := .maintained } : InputConfig).kind = .maintained
    ∧ ({ push with kind := .maintained } : InputConfig).isClosed true = false ∧ ({ push with kind := .maintained } : InputConfig).isClosed false = true :=
  ⟨fun _ => ⟨rfl, rfl⟩, by decide⟩

/-- Input 24 of the busy part is low and Held; one sample short of acceptance, and at it. For EveryPinTakesItsSample. -/
theorem witness_samples :
    (busyReady.inputs.length = 24 ∧ busyReady.phase = .running ∧ busyReady.contact 24 = some ⟨push, Pin.at false, .held, 700⟩)
    ∧ (0 : BitVec 28).getLsbD (24 - 1) = (Pin.at false).level ∧ (0xFFFFFFF : BitVec 28).getLsbD (24 - 1) ≠ (Pin.at false).level
    ∧ (Pin.mk false 8 0 false).disagree + 1 < push.debounce ∧ push.debounce ≤ (Pin.mk false 9 0 false).disagree + 1
    ∧ (ContactInput.mk push (Pin.at false) .closed 598).closedCount + 1 < push.holdTime
    ∧ (ContactInput.mk push (Pin.at false) .closed 598).closedCount + 1 < push.stuckTime * 1000
    ∧ ({ busyReady with phase := .settling }.phase = .settling ∧ { busyReady with phase := .settling }.allSettled = false
      ∧ { busyReady with phase := .settling }.settleSamples < 250) := by decide +kernel

/-- Each occasion of a sample, one sample short of it and at it: an accepted close and open, a hold time, a stuck time, a change of a Maintained
input, a safety input and a cue line in both directions; and the end of settling. For EveryPinTakesItsSample. -/
theorem witness_sample_arrivals :
    (∀ x, (onIn1 x).phase = .running ∧ (onIn1 x).contact 1 = some x)
    ∧ ((Pin.mk true 9 0 false).Turns push.debounce false ∧ push.isClosed false = true)
    ∧ ((Pin.mk false 9 0 false).Turns push.debounce true ∧ push.isClosed true = false)
    ∧ (¬(Pin.mk false 0 0 false).Turns push.debounce false ∧ (Pin.mk false 0 0 false).SamplesTo push.debounce false ⟨false, 0, 0, false⟩
      ∧ 599 + 1 = push.holdTime ∧ push.holdTime ≤ 3000 ∧ 59999 + 1 = push.stuckTime * 1000 ∧ push.stuckTime ≤ 600)
    ∧ (598 + 1 < push.holdTime ∧ min (598 + 1) 600000 < push.stuckTime * 1000)
    ∧ ((Pin.mk false 19 0 false).Turns 20 true ∧ (Pin.mk true 19 0 false).Turns 20 false ∧ ¬(Pin.mk false 18 0 false).Turns 20 true)
    ∧ ((Pin.mk true 4 0 false).Turns 5 false ∧ ¬(Pin.mk true 3 0 false).Turns 5 false)
    ∧ ({ busyReady with phase := .settling, settleSamples := 250 }.phase = .settling ∧ 250 ≤ { busyReady with settleSamples := 250 }.settleSamples)
    ∧ ([28, 1] : List Nat).Nodup ∧ ∀ n ∈ [28, 1], 1 ≤ n ∧ n ≤ 28 :=
  ⟨fun _ => ⟨rfl, rfl⟩, ⟨⟨by decide, by decide⟩, rfl⟩, ⟨⟨by decide, by decide⟩, rfl⟩,
    ⟨fun h => h.1 rfl, ⟨fun _ => rfl, fun h => absurd rfl h, fun h => absurd rfl h.1⟩, rfl, by decide, rfl, by decide⟩, by decide,
    ⟨⟨by decide, by decide⟩, ⟨by decide, by decide⟩, fun h => absurd h.2 (by decide)⟩,
    ⟨⟨by decide, by decide⟩, fun h => absurd h.2 (by decide)⟩, by decide, by decide, by decide⟩

/-- Both directions of SAFE1, for a circuit with a level for it. For SafetyInputsTakeAndLetGoCircuits. -/
theorem witness_safety :
    busyReady.phase = .running ∧ busyReady.SafeSound ∧ busyReady.asserted.has .safe1 = false ∧ held.cfg.safeLevel .safe1 ≠ none
      ∧ held.cfg.safeLevel .safe2 = none
    ∧ (after (.safeAssert .safe1) (small [held] [])).phase = .running ∧ (after (.safeAssert .safe1) (small [held] [])).SafeSound
      ∧ (after (.safeAssert .safe1) (small [held] [])).asserted.has .safe1 = true := by
  refine ⟨rfl, fun _ c h => by rw [busy_circuit h]; rfl, rfl, by decide, rfl, by decide +kernel, fun _ c h => ?_, by decide +kernel⟩
  rw [List.mem_singleton.1 (show c ∈ [held.assertSafe .safe1] from h)]
  exact ⟨rfl, rfl, rfl⟩

/-! ## Hypotheses met: stages, the rack link and the store -/

theorem act2_stages : act2.StagesSound := by
  refine ⟨⟨⟨by decide, by decide⟩, fun e h => ?_, by decide⟩, ⟨⟨by decide, by decide⟩, fun e h => ?_, by decide⟩, by decide, by decide⟩
  · rcases List.mem_cons.1 h with rfl | h
    · exact ⟨by decide, by decide⟩
    · rcases List.mem_cons.1 h with rfl | h
      · exact (by decide : 20 ≤ 6000)
      · rw [List.mem_singleton.1 h]; exact ⟨by decide, by decide⟩
  · rw [List.mem_singleton.1 h]; exact ⟨by decide, by decide⟩

/-- For StagesAreLoadedAndStoodBy. -/
theorem witness_stages :
    (∀ i, act2.Serves i ∧ (small [] []).Serves i) ∧ stageIdOf 1 = some .one ∧ stageIdOf 2 = some .two ∧ act2.StagesSound
      ∧ (small [] []).StagesSound ∧ (act2.stage .one).state = .standby ∧ ((small [] []).stage .two).state = .empty
      ∧ entryInRange (.claim 1000 6000) = true ∧ entryInRange (.release 6000) = true ∧ triggerOf 3 = some .linked ∧ (0 < 1 ∧ 2 < 3)
      ∧ (busyReady.withStage .one ⟨.loading, .go, [(384, .claim 1 0)]⟩).Serves (.standby 1)
      ∧ ((busyReady.withStage .one ⟨.loading, .go, [(384, .claim 1 0)]⟩).stage .one).state ≠ .empty := by
  refine ⟨fun _ => ⟨serves rfl (by decide), serves rfl (by decide)⟩, rfl, rfl, act2_stages, ?_, rfl, rfl, by decide, by decide, rfl, by decide,
    serves rfl (by decide), by decide⟩
  exact ⟨⟨⟨by decide, by decide⟩, fun e h => (nomatch h), by decide⟩, ⟨⟨by decide, by decide⟩, fun e h => (nomatch h), by decide⟩, by decide,
    by decide⟩

/-- Stage 1 of Act 2 is followed by stage 2, and alone where stage 2 waits for GO; CUE1 finds one stage, both where both await it, and CUE2
none. For GoAndCuesTransferTheirStages. -/
theorem witness_transfers :
    act2.StagesSound ∧ circuitAt act2.circuits 3 = some (withShow (lit (dimmed 60 750) 0) (.steady 300))
      ∧ (3, .claim 1000 30) ∈ (act2.stage .one).entries ∧ (2, .release 20) ∈ (act2.stage .one).entries
      ∧ (3, .claim 500 0) ∈ (act2.stage .two).entries
      ∧ decide ((act2.stage .two).state = .standby ∧ (act2.stage .two).trigger = .linked) = true
      ∧ act2.Serves (.go 1) ∧ (small [] []).Serves (.go 1) ∧ ((small [] []).stage .one).state ≠ .standby ∧ act2.phase = .running
      ∧ ((act2.stage .one).state = .standby ∧ (act2.stage .one).trigger = cueTrigger .cue1)
      ∧ ¬((act2.stage .two).state = .standby ∧ (act2.stage .two).trigger = cueTrigger .cue1)
      ∧ (∀ i, ({ act2 with stage2 := act2.stage1 }.stage i).state = .standby
        ∧ ({ act2 with stage2 := act2.stage1 }.stage i).trigger = cueTrigger .cue1)
      ∧ ∀ i, ¬((act2.stage i).state = .standby ∧ (act2.stage i).trigger = cueTrigger .cue2) := by
  refine ⟨act2_stages, rfl, by decide, by decide, by decide, by decide, serves rfl (by decide), serves rfl (by decide), by decide, rfl,
    ⟨rfl, rfl⟩, by decide, fun i => ?_, fun i => ?_⟩
  · cases i <;> exact ⟨rfl, rfl⟩
  · cases i <;> decide

/-- A part whose link has no frame in flight. -/
def between : State := { small [lit (dimmed 0 1000) 666] [] with link := { Link.reset with frame := none } }

/-- For FramesStartEndAndAreOwed. -/
theorem witness_frame_starts :
    between.phase = .running ∧ between.link.sending = true ∧ between.link.frame = none ∧ circuitAt between.circuits 1 = some (lit (dimmed 0 1000) 666)
    ∧ State.reset.phase = .running ∧ State.reset.link.sending = true ∧ State.reset.link.frame ≠ none ∧ State.reset.link.owed = false
    ∧ busyReady.link.frame ≠ none ∧ busyReady.link.owed = true
    ∧ State.reset.link.frame = some ([0x5A] ++ List.replicate 384 0 ++ [0x1C, 0x68]) ∧ (after .supplyLost busy).link.sending = false
    ∧ State.reset.rtx[0]? = some false := by
  refine ⟨rfl, rfl, rfl, rfl, rfl, rfl, ?_, rfl, ?_, rfl, rfl, rfl, rfl⟩ <;> exact Option.some_ne_none _

/-- The drive's cases: both kinds, both polarities, the output at either end, and a neighbour one level above. For DrivesFollowTheOutput. -/
theorem witness_drives :
    (lit (dimmed 0 1000) 1000).output ≤ 1000 ∧ (lit (dimmed 0 1000) 1000).output = (lit (dimmed 0 1000) 999).output + 1
      ∧ (lit (dimmed 0 1000) 1000).cfg = (lit (dimmed 0 1000) 999).cfg ∧ (lit switched 1000).output = 1000 ∧ (lit switched 0).output ≤ 1000
      ∧ (lit switched 0).cfg.kind = .switched ∧ (lit { switched with inverted := true } 0).cfg.inverted = true
      ∧ (lit { dimmed 0 1000 with inverted := true } 0).cfg.kind = .dimmed := by decide

/-- For TheStoreSavesAndErases. -/
theorem witness_store :
    (∀ i, busy.Serves i ∧ busyReady.Serves i) ∧ busyReady.store.state = .ready ∧ busy.store.state ≠ .ready ∧ busy.phase = .running
      ∧ busy.store.state = .saving ∧ busy.store.copy = some busyReady.stored ∧ { busyReady with store := ⟨.erasing, false, [], none⟩ }.store.state = .erasing :=
  ⟨fun _ => ⟨serves rfl (by decide), serves rfl (by decide)⟩, rfl, by decide, rfl, rfl, rfl, rfl⟩

/-- An image whose last byte is another than its check's. For TheStoreSavesAndErases. -/
theorem witness_wrong_check : ([0, 0, 0, 0] : List Byte).length = 4 ∧ ∀ b3 b2 b1 b0 : Byte, b0 ≠ 0 → [0, 0, 0, 0] ≠ [b3, b2, b1, b0] :=
  ⟨rfl, fun _ _ _ _ h k => by injection k with _ k; injection k with _ k; injection k with _ k; injection k with k; exact h k.symm⟩

end Sys2Proof.Tests
end

namespace Sys2Proof.Machine

/-! ## Forms -/

@[simp] theorem Form.ofFade_isMoving (start target fade : Nat) : (Form.ofFade start target fade).isMoving = false := by
  unfold Form.ofFade; split <;> rfl

@[simp] theorem Form.ofFade_target (start target fade : Nat) : (Form.ofFade start target fade).target = some target := by
  unfold Form.ofFade; split <;> rfl

@[simp] theorem Form.tick_isMoving (cfg : CircuitConfig) (f : Form) : (f.tick cfg).isMoving = f.isMoving := by
  cases f with
  | steady => rfl
  | fading => simp only [Form.tick, Form.complete]; split <;> rfl
  | moving => rfl

@[simp] theorem Form.tick_target (cfg : CircuitConfig) (f : Form) : (f.tick cfg).target = f.target := by
  cases f with
  | steady => rfl
  | fading => simp only [Form.tick, Form.complete]; split <;> rfl
  | moving => rfl

@[simp] theorem Form.finish_isMoving (f : Form) : f.finish.isMoving = f.isMoving := by cases f <;> rfl

@[simp] theorem Form.finish_target (f : Form) : f.finish.target = f.target := by cases f <;> rfl

@[simp] theorem Form.stop_isMoving (f : Form) : f.stop.isMoving = false := by cases f <;> rfl

/-! ## One circuit: what each operation does to its layers -/

@[simp] theorem Circuit.recompute_form (c : Circuit) (l : Layer) : c.recompute.form? l = c.form? l := by cases l <;> rfl

theorem Circuit.SameBut.refl (c : Circuit) (l : Layer) : c.SameBut c l := by simp [Circuit.SameBut]

theorem Circuit.SameBut.form {c d : Circuit} {l : Layer} (h : c.SameBut d l) {k : Layer} (hk : k ≠ l) : d.form? k = c.form? k := by
  obtain ⟨-, hb, hl, hs, hf⟩ := h
  cases k with
  | base => simp only [Circuit.form?, hb hk.symm]
  | local' => simp only [Circuit.form?, hl hk.symm]
  | show' => simp only [Circuit.form?, hs hk.symm]
  | safe => simp only [Circuit.form?, hf hk.symm]

/-- A claim of a given form changes its own layer alone (R10). -/
theorem Circuit.place_sameBut (w : Stake) (f : Form) (c : Circuit) : c.SameBut (c.place w f) w.layer := by
  rw [Circuit.place_spec]
  cases w <;> simp [Circuit.SameBut, Circuit.put, Stake.layer]

/-- The layer's claim has the form given (R10). -/
@[simp] theorem Circuit.place_form (w : Stake) (f : Form) (c : Circuit) : (c.place w f).form? w.layer = some f := by
  rw [Circuit.place_spec]
  cases w <;> simp [Circuit.put, Stake.layer, Circuit.form?]

/-- A claim that decides removes a running handover (R10). -/
theorem Circuit.place_handover (w : Stake) (f : Form) (c : Circuit) :
    (c.place w f).handover = if c.decides w.layer then none else c.handover := by
  rw [Circuit.place_spec]
  cases w <;> rfl

@[simp] theorem Circuit.place_base (m : Mode) (f : Form) (c : Circuit) : (c.place (.base m) f).base = some ⟨f, m⟩ := by
  rw [Circuit.place_spec]; rfl

@[simp] theorem Circuit.place_local (o : LocalOwner) (f : Form) (c : Circuit) : (c.place (.local' o) f).local' = some ⟨f, o⟩ := by
  rw [Circuit.place_spec]; rfl

@[simp] theorem Circuit.place_show (m : Maker) (f : Form) (c : Circuit) : (c.place (.show' m) f).show' = some ⟨f, m⟩ := by
  rw [Circuit.place_spec]; rfl

@[simp] theorem Circuit.place_safe (i : SafeSet) (f : Form) (c : Circuit) : (c.place (.safe i) f).safe = some ⟨f, i⟩ := by
  rw [Circuit.place_spec]; rfl

/-- The form that a raise or lower gives its Local claim: Moving or Steady on a Dimmed circuit (R24), Steady on a Switched one (R31). -/
def Circuit.moveForm (c : Circuit) (dir : Direction) (rate : Nat) : Form :=
  match c.cfg.kind with
  | .dimmed => Form.ofMove c.cfg (c.startLevel .local') dir rate
  | .switched => .steady (if dir = .up then 1000 else 0)

/-- A raise or lower is the arrival of a Local claim (R24, R31). -/
theorem Circuit.move_eq (o : LocalOwner) (dir : Direction) (rate : Nat) (c : Circuit) :
    c.move o dir rate = c.place (.local' o) (c.moveForm dir rate) := by
  unfold Circuit.move Circuit.moveForm
  cases c.cfg.kind <;> rfl

/-- Everything a release can do (R11): nothing to an empty layer or to Base; else the layer is emptied and the levels recomputed, with a handover
where the layer decides. -/
theorem Circuit.release_cases (l : Layer) (fade : Nat) (c : Circuit) :
    (l = .base ∨ c.form? l = none) ∧ c.release l fade = c
    ∨ (l ≠ .base ∧ c.form? l ≠ none) ∧ c.release l fade
        = ({ c.drop l with handover := if c.deciding = some l then (if fade = 0 then none else some ⟨c.raw, 10 * fade, 0⟩) else c.handover }).recompute := by
  unfold Circuit.release
  by_cases h : l = .base ∨ (c.form? l).isNone
  · exact .inl ⟨by simpa using h, if_pos h⟩
  · refine .inr ⟨by simpa using h, ?_⟩
    rw [if_neg h]
    by_cases hd : c.deciding = some l
    · simp only [hd, if_true]
    · simp only [hd, if_false]; cases l <;> rfl

/-- A release changes its own layer alone (R11). -/
theorem Circuit.release_sameBut (l : Layer) (fade : Nat) (c : Circuit) : c.SameBut (c.release l fade) l := by
  rcases c.release_cases l fade with ⟨-, h⟩ | ⟨-, h⟩
  · rw [h]; exact .refl c l
  · rw [h]; cases l <;> simp [Circuit.SameBut, Circuit.drop]

/-- A released layer is empty (R11). -/
theorem Circuit.release_form {l : Layer} (hl : l ≠ .base) (fade : Nat) (c : Circuit) : (c.release l fade).form? l = none := by
  rcases c.release_cases l fade with ⟨h | h, he⟩ | ⟨-, he⟩
  · exact absurd h hl
  · rw [he, h]
  · rw [he]; cases l <;> simp_all [Circuit.drop, Circuit.form?]

@[simp] theorem Circuit.release_local (fade : Nat) (c : Circuit) : (c.release .local' fade).local' = none := by
  simpa [Circuit.form?] using c.release_form (l := .local') (by decide) fade

@[simp] theorem Circuit.release_show (fade : Nat) (c : Circuit) : (c.release .show' fade).show' = none := by
  simpa [Circuit.form?] using c.release_form (l := .show') (by decide) fade

@[simp] theorem Circuit.release_safe (fade : Nat) (c : Circuit) : (c.release .safe fade).safe = none := by
  simpa [Circuit.form?] using c.release_form (l := .safe) (by decide) fade

/-- Everything an end of movement can do (R28): nothing, or a Moving Local claim that the selection picks stands at its value, its owner kept. -/
theorem Circuit.endMovement_cases (pick : LocalOwner → Bool) (c : Circuit) :
    c.endMovement pick = c ∧ (∀ cl, c.local' = some cl → pick cl.owner = true → cl.form.isMoving = false)
    ∨ ∃ cl, c.local' = some cl ∧ pick cl.owner = true ∧ cl.form.isMoving = true
        ∧ c.endMovement pick = ({ c with local' := some ⟨cl.form.stop, cl.owner⟩ }).recompute := by
  unfold Circuit.endMovement
  cases hl : c.local' with
  | none => simp
  | some cl =>
    cases hp : pick cl.owner <;> cases hm : cl.form.isMoving <;> simp [hp, hm]

/-! ## One circuit: the levels follow -/

theorem Circuit.recompute_settled (c : Circuit) : c.recompute.Settled := c.recompute_follows

theorem Circuit.place_settled (w : Stake) (f : Form) (c : Circuit) : (c.place w f).Settled := Circuit.recompute_settled _

theorem Circuit.claim_settled (w : Stake) (v fade : Nat) (c : Circuit) : (c.claim w v fade).Settled := Circuit.place_settled _ _ _

theorem Circuit.release_settled {c : Circuit} (h : c.Settled) (l : Layer) (fade : Nat) : (c.release l fade).Settled := by
  rcases c.release_cases l fade with ⟨-, he⟩ | ⟨-, he⟩ <;> rw [he]
  · exact h
  · exact Circuit.recompute_settled _

theorem Circuit.endMovement_settled {c : Circuit} (h : c.Settled) (pick : LocalOwner → Bool) : (c.endMovement pick).Settled := by
  rcases c.endMovement_cases pick with ⟨he, -⟩ | ⟨cl, -, -, -, he⟩ <;> rw [he]
  · exact h
  · exact Circuit.recompute_settled _

/-- A circuit with every layer empty shows nothing, where its threshold is in range (R4, R9). -/
theorem Circuit.bare_settled {cfg : CircuitConfig} (h : cfg.Legal) : (Circuit.bare cfg).Settled := by
  obtain ⟨-, -, -, -, ht, -⟩ := h
  refine ⟨rfl, ?_⟩
  have : ¬ cfg.threshold ≤ 0 := by omega
  cases hk : cfg.kind <;> simp [Circuit.bare, CircuitConfig.outputOf, hk, this]

/-! ## One circuit: movement -/

/-- R24, R31 and R66 by the layers. -/
theorem Circuit.movementSound_iff (c : Circuit) : c.MovementSound ↔
    (∀ l, l ≠ .local' → ∀ f, c.form? l = some f → f.isMoving = false)
      ∧ ∀ cl, c.local' = some cl → cl.form.isMoving = true → c.cfg.kind = .dimmed ∧ cl.owner.isSome = true := by
  refine and_congr_left fun _ => ⟨fun h l hl f hf => ?_, fun h l f hf hm => ?_⟩
  · exact Bool.eq_false_iff.mpr fun hm => hl (h l f hf hm)
  · by_contra hl
    exact absurd hm (by simp [h l hl f hf])

/-- A change to one layer keeps the law of movement where that layer's new claim does not move. -/
theorem Circuit.MovementSound.of_sameBut {c d : Circuit} {l : Layer} (hc : c.MovementSound) (h : c.SameBut d l)
    (hf : ∀ f, d.form? l = some f → f.isMoving = false) : d.MovementSound := by
  rw [Circuit.movementSound_iff] at hc ⊢
  obtain ⟨hother, hlocal⟩ := hc
  refine ⟨fun k hk f hkf => ?_, fun cl hcl hm => ?_⟩
  · by_cases hkl : k = l
    · subst hkl; exact hf f hkf
    · exact hother k hk f (by rw [← h.form hkl]; exact hkf)
  · by_cases hl : l = .local'
    · subst hl
      have := hf cl.form (by simp [Circuit.form?, hcl])
      simp [this] at hm
    · obtain ⟨hcfg, -, hloc, -, -⟩ := h
      rw [hcfg]
      exact hlocal cl (by rw [← hloc hl]; exact hcl) hm

theorem Circuit.bare_movementSound (cfg : CircuitConfig) : (Circuit.bare cfg).MovementSound := by
  rw [Circuit.movementSound_iff]
  refine ⟨fun l _ f hf => ?_, fun cl hcl => ?_⟩
  · cases l <;> cases hf
  · cases hcl

/-- A claim with a fade keeps the law of movement: it does not move. -/
theorem Circuit.MovementSound.place {c : Circuit} (h : c.MovementSound) (w : Stake) {f : Form} (hf : f.isMoving = false) :
    (c.place w f).MovementSound :=
  h.of_sameBut (c.place_sameBut w f) fun g hg => by rw [Circuit.place_form] at hg; cases hg; exact hf

theorem Circuit.MovementSound.claim {c : Circuit} (h : c.MovementSound) (w : Stake) (v fade : Nat) : (c.claim w v fade).MovementSound :=
  h.place w (by simp)

theorem Circuit.MovementSound.safeClaim {c : Circuit} (h : c.MovementSound) (i : SafeSet) (v fade : Nat) :
    (c.safeClaim i v fade).MovementSound := h.place _ (by simp)

theorem Circuit.MovementSound.release {c : Circuit} (h : c.MovementSound) (l : Layer) (fade : Nat) :
    (c.release l fade).MovementSound := by
  by_cases hl : l = .base
  · rwa [show c.release l fade = c from if_pos (.inl hl)]
  · exact h.of_sameBut (c.release_sameBut l fade) fun g hg => by rw [Circuit.release_form hl] at hg; cases hg

/-- A raise or lower moves a Local claim of a Dimmed circuit alone (R24, R31), and under an owner where it has one (R66). -/
theorem Circuit.MovementSound.move {c : Circuit} (h : c.MovementSound) {o : LocalOwner} (ho : o.isSome = true) (dir : Direction) (rate : Nat) :
    (c.move o dir rate).MovementSound := by
  rw [Circuit.move_eq]
  have hs := c.place_sameBut (.local' o) (c.moveForm dir rate)
  rw [Circuit.movementSound_iff] at h ⊢
  refine ⟨fun k hk f hkf => h.1 k hk f (by rw [← hs.form hk]; exact hkf), fun cl hcl hm => ?_⟩
  rw [Circuit.place_local] at hcl
  cases hcl
  refine ⟨?_, ho⟩
  rw [Circuit.place_cfg]
  cases hk : c.cfg.kind with
  | dimmed => rfl
  | switched => simp [Circuit.moveForm, hk, Form.isMoving] at hm

theorem Circuit.MovementSound.endMovement {c : Circuit} (h : c.MovementSound) (pick : LocalOwner → Bool) :
    (c.endMovement pick).MovementSound := by
  rcases c.endMovement_cases pick with ⟨he, -⟩ | ⟨cl, -, -, -, he⟩ <;> rw [he]
  · exact h
  · refine h.of_sameBut (l := .local') (by simp [Circuit.SameBut]) fun f hf => ?_
    obtain rfl : cl.form.stop = f := Option.some.inj hf
    exact cl.form.stop_isMoving

end Sys2Proof.Machine

namespace Sys2Proof.Machine

/-! ## The Safe layer -/

/-- What the Safe layer of a circuit stands at: the owner set and the target of its claim. -/
def Circuit.safeStand (c : Circuit) : Option (SafeSet × Option Nat) := c.safe.map fun cl => (cl.owner, cl.form.target)

/-- What a set of asserted inputs calls for on a circuit's Safe layer (R15, R123). -/
def CircuitConfig.safeCall (cfg : CircuitConfig) (asserted : SafeSet) : Option (SafeSet × Option Nat) :=
  if (cfg.wantedSet asserted).isEmpty then none else some (cfg.wantedSet asserted, some (cfg.wantedLevel asserted))

/-- The Safe layer agrees with a set of inputs where it stands at what they call for. -/
theorem Circuit.safeAgrees_iff (asserted : SafeSet) (c : Circuit) : c.SafeAgrees asserted ↔ c.safeStand = c.cfg.safeCall asserted := by
  unfold Circuit.SafeAgrees Circuit.safeStand CircuitConfig.safeCall
  cases c.safe with
  | none => by_cases h : (c.cfg.wantedSet asserted).isEmpty <;> simp [h]
  | some cl => by_cases h : (c.cfg.wantedSet asserted).isEmpty <;> simp [h]

@[simp] theorem Circuit.safeClaim_safe (i : SafeSet) (v fade : Nat) (c : Circuit) :
    (c.safeClaim i v fade).safe = some ⟨Form.ofFade (c.startLevel .safe) v fade, i⟩ := by simp [Circuit.safeClaim]

@[simp] theorem Circuit.safeClaim_stand (i : SafeSet) (v fade : Nat) (c : Circuit) :
    (c.safeClaim i v fade).safeStand = some (i, some v) := by simp [Circuit.safeStand]

@[simp] theorem Circuit.release_stand (fade : Nat) (c : Circuit) : (c.release .safe fade).safeStand = none := by simp [Circuit.safeStand]

theorem Circuit.safeClaim_settled (i : SafeSet) (v fade : Nat) (c : Circuit) : (c.safeClaim i v fade).Settled := Circuit.place_settled _ _ _

/-- Everything that bringing the Safe layer into agreement can do (R15): nothing where it agrees, else a release where no input is wanted and
a claim at the wanted level at once where one is. -/
theorem Circuit.agreeSafe_cases (asserted : SafeSet) (fade : Nat) (c : Circuit) :
    c.SafeAgrees asserted ∧ c.agreeSafe asserted fade = c
    ∨ ¬c.SafeAgrees asserted ∧ ((c.cfg.wantedSet asserted).isEmpty = true ∧ c.agreeSafe asserted fade = c.release .safe fade
      ∨ (c.cfg.wantedSet asserted).isEmpty = false
        ∧ c.agreeSafe asserted fade = c.safeClaim (c.cfg.wantedSet asserted) (c.cfg.wantedLevel asserted) 0) := by
  unfold Circuit.agreeSafe Circuit.SafeAgrees
  cases hs : c.safe with
  | none => by_cases he : (c.cfg.wantedSet asserted).isEmpty <;> simp [he]
  | some cl =>
    by_cases he : (c.cfg.wantedSet asserted).isEmpty
    · simp [he]
    · by_cases ha : cl.owner = c.cfg.wantedSet asserted ∧ cl.form.target = some (c.cfg.wantedLevel asserted) <;> simp [he, ha]

/-- After a configuration write the Safe layer agrees with the safety inputs (R15). -/
theorem Circuit.agreeSafe_agrees (asserted : SafeSet) (fade : Nat) (c : Circuit) : (c.agreeSafe asserted fade).SafeAgrees asserted := by
  rcases c.agreeSafe_cases asserted fade with ⟨ha, he⟩ | ⟨-, ⟨hw, he⟩ | ⟨hw, he⟩⟩ <;> rw [he]
  · exact ha
  · simp [Circuit.safeAgrees_iff, CircuitConfig.safeCall, hw]
  · simp [Circuit.safeAgrees_iff, CircuitConfig.safeCall, hw]

/-- The Safe claims of a kind change and of start-up are those the asserted inputs call for, where the layer was empty (R14, R160). -/
theorem Circuit.makeSafe_agrees (asserted : SafeSet) {c : Circuit} (h : c.safe = none) : (c.makeSafe asserted).SafeAgrees asserted := by
  unfold Circuit.makeSafe
  by_cases hw : (c.cfg.wantedSet asserted).isEmpty
  · simp [Circuit.safeAgrees_iff, CircuitConfig.safeCall, hw, Circuit.safeStand, h]
  · simp [Circuit.safeAgrees_iff, CircuitConfig.safeCall, hw]

/-- A set of inputs with one added holds it. -/
@[simp] theorem SafeSet.insert_has (m : SafeSet) (i j : SafeInput) : (m.insert i).has j = (decide (j = i) || m.has j) := by
  cases i <;> cases j <;> simp [SafeSet.insert, SafeSet.has]

/-- A set of inputs with one removed does not hold it. -/
@[simp] theorem SafeSet.erase_has (m : SafeSet) (i j : SafeInput) : (m.erase i).has j = (decide (j ≠ i) && m.has j) := by
  cases i <;> cases j <;> simp [SafeSet.erase, SafeSet.has]

theorem SafeSet.ext_has {m n : SafeSet} (h : ∀ i, m.has i = n.has i) : m = n := by
  have h1 : m.safe1 = n.safe1 := h .safe1
  have h2 : m.safe2 = n.safe2 := h .safe2
  cases m; cases n; simp_all

/-- The inputs wanted are those asserted for which the circuit has a level (R15). -/
@[simp] theorem CircuitConfig.wantedSet_has (cfg : CircuitConfig) (m : SafeSet) (i : SafeInput) :
    (cfg.wantedSet m).has i = (m.has i && (cfg.safeLevel i).isSome) := by cases i <;> rfl

/-- An input's share of the wanted level is its clamped safe level (R15). -/
theorem CircuitConfig.safeTarget_of_has {cfg : CircuitConfig} {m : SafeSet} {i : SafeInput} {v : Nat} (h : cfg.safeLevel i = some v) :
    cfg.safeTarget m i = if m.has i then cfg.clamp v else 0 := by simp [CircuitConfig.safeTarget, h]

/-- An input for which the circuit has no level does not count (R15). -/
theorem CircuitConfig.safeTarget_wantedSet (cfg : CircuitConfig) (m : SafeSet) (i : SafeInput) :
    cfg.safeTarget (cfg.wantedSet m) i = cfg.safeTarget m i := by
  unfold CircuitConfig.safeTarget
  rw [CircuitConfig.wantedSet_has]
  cases m.has i <;> cases cfg.safeLevel i <;> simp

theorem CircuitConfig.wantedLevel_wantedSet (cfg : CircuitConfig) (m : SafeSet) :
    cfg.wantedLevel (cfg.wantedSet m) = cfg.wantedLevel m := by
  simp only [CircuitConfig.wantedLevel, CircuitConfig.safeTarget_wantedSet]

/-- What is called for depends on the wanted inputs alone. -/
theorem CircuitConfig.safeCall_congr {cfg : CircuitConfig} {m n : SafeSet} (h : cfg.wantedSet m = cfg.wantedSet n) :
    cfg.safeCall m = cfg.safeCall n := by
  unfold CircuitConfig.safeCall
  rw [← cfg.wantedLevel_wantedSet m, ← cfg.wantedLevel_wantedSet n, h]

/-- An input that asserts joins those wanted, where the circuit has a safe level for it (R124). -/
theorem CircuitConfig.wantedSet_insert {cfg : CircuitConfig} (m : SafeSet) {i : SafeInput} {v : Nat} (h : cfg.safeLevel i = some v) :
    cfg.wantedSet (m.insert i) = (cfg.wantedSet m).insert i := by
  refine SafeSet.ext_has fun j => ?_
  by_cases hj : j = i <;> simp [hj, h]

/-- And not where it has none. -/
theorem CircuitConfig.wantedSet_insert_none {cfg : CircuitConfig} (m : SafeSet) {i : SafeInput} (h : cfg.safeLevel i = none) :
    cfg.wantedSet (m.insert i) = cfg.wantedSet m := by
  refine SafeSet.ext_has fun j => ?_
  by_cases hj : j = i <;> simp [hj, h]

/-- An input that deasserts leaves those wanted (R125). -/
theorem CircuitConfig.wantedSet_erase (cfg : CircuitConfig) (m : SafeSet) (i : SafeInput) :
    cfg.wantedSet (m.erase i) = (cfg.wantedSet m).erase i := by
  refine SafeSet.ext_has fun j => ?_
  simp [Bool.and_assoc]

/-- An input that asserts raises the wanted level to its own, where it is higher (R124). -/
theorem CircuitConfig.wantedLevel_insert {cfg : CircuitConfig} (m : SafeSet) {i : SafeInput} {v : Nat} (h : cfg.safeLevel i = some v) :
    cfg.wantedLevel (m.insert i) = max (cfg.wantedLevel m) (cfg.clamp v) := by
  have hown : cfg.safeTarget (m.insert i) i = cfg.clamp v := by simp [safeTarget_of_has h]
  have hle : cfg.safeTarget m i ≤ cfg.clamp v := by rw [safeTarget_of_has h]; split <;> omega
  have hother : ∀ j, j ≠ i → cfg.safeTarget (m.insert i) j = cfg.safeTarget m j := fun j hj => by simp [CircuitConfig.safeTarget, hj]
  unfold CircuitConfig.wantedLevel
  cases i with
  | safe1 => rw [hown, hother .safe2 (by decide)]; omega
  | safe2 => rw [hown, hother .safe1 (by decide)]; omega

theorem SafeSet.insert_isEmpty (m : SafeSet) (i : SafeInput) : (m.insert i).isEmpty = false := by
  cases i <;> simp [SafeSet.insert, SafeSet.isEmpty]

theorem SafeSet.eq_of_isEmpty {m : SafeSet} (h : m.isEmpty = true) : m = ⟨false, false⟩ := by
  obtain ⟨a, b⟩ := m
  simpa [SafeSet.isEmpty] using h

/-- Where no input is wanted the wanted level is 0 (R15). -/
theorem CircuitConfig.wantedLevel_of_isEmpty {cfg : CircuitConfig} {m : SafeSet} (h : (cfg.wantedSet m).isEmpty = true) :
    cfg.wantedLevel m = 0 := by
  rw [← cfg.wantedLevel_wantedSet, SafeSet.eq_of_isEmpty h]
  rfl

/-- A Safe layer that agrees is empty exactly where no input is wanted, and else holds the claim of the wanted inputs (R15, R123). -/
theorem Circuit.SafeAgrees.cases {asserted : SafeSet} {c : Circuit} (h : c.SafeAgrees asserted) :
    c.safe = none ∧ (c.cfg.wantedSet asserted).isEmpty = true
    ∨ ∃ cl, c.safe = some cl ∧ (c.cfg.wantedSet asserted).isEmpty = false ∧ cl.owner = c.cfg.wantedSet asserted
        ∧ cl.form.target = some (c.cfg.wantedLevel asserted) := by
  unfold Circuit.SafeAgrees at h
  cases hs : c.safe with
  | none => exact .inl ⟨rfl, by simpa [hs] using h⟩
  | some cl => exact .inr ⟨cl, rfl, by simpa [hs] using h⟩

/-- The claim of an input that asserts is the one that is then called for (R124). -/
theorem Circuit.SafeAgrees.assertSafe {asserted : SafeSet} {c : Circuit} (h : c.SafeAgrees asserted) (i : SafeInput) :
    (c.assertSafe i).SafeAgrees (asserted.insert i) := by
  rw [Circuit.safeAgrees_iff, Circuit.assertSafe_cfg]
  unfold Circuit.assertSafe
  cases hv : c.cfg.safeLevel i with
  | none => rw [CircuitConfig.safeCall_congr (CircuitConfig.wantedSet_insert_none asserted hv)]; exact (Circuit.safeAgrees_iff _ _).1 h
  | some v =>
    have hcall : c.cfg.safeCall (asserted.insert i)
        = some ((c.cfg.wantedSet asserted).insert i, some (max (c.cfg.wantedLevel asserted) (c.cfg.clamp v))) := by
      simp [CircuitConfig.safeCall, CircuitConfig.wantedSet_insert asserted hv, CircuitConfig.wantedLevel_insert asserted hv,
        SafeSet.insert_isEmpty]
    rw [hcall]
    rcases h.cases with ⟨hs, hw⟩ | ⟨cl, hs, -, howner, htarget⟩
    · simp [hs, CircuitConfig.wantedLevel_of_isEmpty hw, SafeSet.eq_of_isEmpty hw]
    · simp [hs, howner, htarget]

/-- What is left of the Safe claim when an input deasserts is what is then called for (R125). -/
theorem Circuit.SafeAgrees.deassertSafe {asserted : SafeSet} {c : Circuit} (h : c.SafeAgrees asserted) (i : SafeInput) (fade : Nat) :
    (c.deassertSafe i fade).SafeAgrees (asserted.erase i) := by
  rw [Circuit.safeAgrees_iff, Circuit.deassertSafe_cfg]
  unfold CircuitConfig.safeCall
  rw [← c.cfg.wantedLevel_wantedSet (asserted.erase i), CircuitConfig.wantedSet_erase]
  unfold Circuit.deassertSafe
  rcases h.cases with ⟨hs, hw⟩ | ⟨cl, hs, hw, howner, htarget⟩
  · have he : ((c.cfg.wantedSet asserted).erase i).isEmpty = true := by
      rw [SafeSet.eq_of_isEmpty hw]; cases i <;> rfl
    simp [hs, he, Circuit.safeStand]
  · by_cases hi : (c.cfg.wantedSet asserted).has i
    · by_cases he : ((c.cfg.wantedSet asserted).erase i).isEmpty <;> simp [hs, howner, hi, he]
    · have he : (c.cfg.wantedSet asserted).erase i = c.cfg.wantedSet asserted := by
        refine SafeSet.ext_has fun j => ?_
        by_cases hj : j = i
        · subst hj; simp_all
        · simp [hj]
      simp [hs, howner, hi, he, hw, Circuit.safeStand, htarget, CircuitConfig.wantedLevel_wantedSet]

end Sys2Proof.Machine

namespace Sys2Proof.Machine

/-! ## What one circuit keeps -/

/-- What a circuit keeps of the laws of its configuration, levels and layers (R1, R4, R7, R9, R15, R24, R31, R66) from one record to the next,
while the asserted safety inputs go from one set to another. -/
structure Circuit.Keeps (before after : SafeSet) (c d : Circuit) : Prop where
  legal : c.cfg.Legal → d.cfg.Legal
  settled : c.Settled → d.Settled
  base : c.base.isSome = true → d.base.isSome = true
  movement : c.MovementSound → d.MovementSound
  safe : c.SafeAgrees before → d.SafeAgrees after

theorem Circuit.Keeps.refl (asserted : SafeSet) (c : Circuit) : c.Keeps asserted asserted c := ⟨id, id, id, id, id⟩

theorem Circuit.Keeps.trans {i j k : SafeSet} {c d e : Circuit} (h : c.Keeps i j d) (h' : d.Keeps j k e) : c.Keeps i k e :=
  ⟨h'.legal ∘ h.legal, h'.settled ∘ h.settled, h'.base ∘ h.base, h'.movement ∘ h.movement, h'.safe ∘ h.safe⟩

/-- The agreement of the Safe layer depends on the configuration and on where the layer stands. -/
theorem Circuit.SafeAgrees.congr {asserted : SafeSet} {c d : Circuit} (h : c.SafeAgrees asserted) (hcfg : d.cfg = c.cfg)
    (hs : d.safeStand = c.safeStand) : d.SafeAgrees asserted := by
  rw [Circuit.safeAgrees_iff] at h ⊢
  rw [hs, hcfg, h]

/-- A change to one layer other than Safe keeps what it must keep of that layer alone. -/
theorem Circuit.Keeps.of_sameBut {asserted : SafeSet} {c d : Circuit} {l : Layer} (h : c.SameBut d l) (hl : l ≠ .safe)
    (hset : c.Settled → d.Settled) (hmove : c.MovementSound → d.MovementSound) (hbase : l = .base → d.base.isSome = true) :
    c.Keeps asserted asserted d := by
  obtain ⟨hcfg, hb, -, -, hs⟩ := h
  refine ⟨fun hc => by rwa [hcfg], hset, fun hc => ?_, hmove, fun hc => hc.congr hcfg ?_⟩
  · by_cases hlb : l = .base
    · exact hbase hlb
    · rwa [hb hlb]
  · rw [Circuit.safeStand, hs hl, Circuit.safeStand]

/-- A claim below Safe (R10). -/
theorem Circuit.claim_keeps (asserted : SafeSet) {w : Stake} (hw : w.layer ≠ .safe) (v fade : Nat) (c : Circuit) :
    c.Keeps asserted asserted (c.claim w v fade) :=
  .of_sameBut (c.place_sameBut w _) hw (fun _ => c.claim_settled w v fade) (fun h => h.claim w v fade) fun h => by
    cases w <;> cases h
    simp [Circuit.claim]

/-- A raise or lower under an owner (R24, R31). -/
theorem Circuit.move_keeps (asserted : SafeSet) {o : LocalOwner} (ho : o.isSome = true) (dir : Direction) (rate : Nat) (c : Circuit) :
    c.Keeps asserted asserted (c.move o dir rate) := by
  refine .of_sameBut (l := .local') ?_ (by decide) (fun _ => ?_) (fun h => h.move ho dir rate) nofun
  · rw [Circuit.move_eq]; exact c.place_sameBut _ _
  · rw [Circuit.move_eq]; exact Circuit.place_settled _ _ _

/-- A release below Safe (R11). -/
theorem Circuit.release_keeps (asserted : SafeSet) {l : Layer} (hl : l ≠ .safe) (fade : Nat) (c : Circuit) :
    c.Keeps asserted asserted (c.release l fade) := by
  by_cases hb : l = .base
  · rw [show c.release l fade = c from if_pos (.inl hb)]; exact .refl _ c
  · exact .of_sameBut (c.release_sameBut l fade) hl (fun h => Circuit.release_settled h l fade) (fun h => h.release l fade)
      fun h => absurd h hb

/-- An end of movement changes the Local layer alone (R28). -/
theorem Circuit.endMovement_sameBut (pick : LocalOwner → Bool) (c : Circuit) : c.SameBut (c.endMovement pick) .local' := by
  rcases c.endMovement_cases pick with ⟨he, -⟩ | ⟨cl, -, -, -, he⟩ <;> rw [he]
  · exact .refl c _
  · simp [Circuit.SameBut]

/-- An end of movement (R28, R66). -/
theorem Circuit.endMovement_keeps (asserted : SafeSet) (pick : LocalOwner → Bool) (c : Circuit) :
    c.Keeps asserted asserted (c.endMovement pick) :=
  .of_sameBut (c.endMovement_sameBut pick) (by decide) (fun h => Circuit.endMovement_settled h pick) (fun h => h.endMovement pick) nofun

/-- The deciding layer depends on the forms alone. -/
theorem Circuit.deciding_congr {c d : Circuit} (h : ∀ l, d.form? l = c.form? l) : d.deciding = c.deciding := by
  have hb : d.base.isSome = c.base.isSome := by simpa [Circuit.form?] using congrArg Option.isSome (h .base)
  have hl : d.local'.isSome = c.local'.isSome := by simpa [Circuit.form?] using congrArg Option.isSome (h .local')
  have hs : d.show'.isSome = c.show'.isSome := by simpa [Circuit.form?] using congrArg Option.isSome (h .show')
  have hf : d.safe.isSome = c.safe.isSome := by simpa [Circuit.form?] using congrArg Option.isSome (h .safe)
  simp only [Circuit.deciding, hb, hl, hs, hf]

/-- So does the deciding value. -/
theorem Circuit.decidingValue_congr {c d : Circuit} (h : ∀ l, d.form? l = c.form? l) : d.decidingValue = c.decidingValue := by
  simp only [Circuit.decidingValue, Circuit.deciding_congr h, h]

/-- The raw level depends on the forms and the handover alone (R7). -/
theorem Circuit.rawOf_congr {c d : Circuit} (h : ∀ l, d.form? l = c.form? l) (hh : d.handover = c.handover) : d.rawOf = c.rawOf := by
  simp only [Circuit.rawOf, Circuit.deciding_congr h, Circuit.decidingValue_congr h, hh]

/-- Everything that clearing a slot's claim can do (R42): it ends the slot's movement, and a Local claim under the slot loses its owner. -/
theorem Circuit.clearSlot_cases (n : Nat) (c : Circuit) :
    c.clearSlot n = c.endMovement (LocalOwner.hasSlot n)
    ∨ ∃ cl, (c.endMovement (LocalOwner.hasSlot n)).local' = some cl ∧ LocalOwner.hasSlot n cl.owner = true
        ∧ c.clearSlot n = { c.endMovement (LocalOwner.hasSlot n) with local' := some ⟨cl.form, none⟩ } := by
  unfold Circuit.clearSlot
  simp only
  cases hl : (c.endMovement (LocalOwner.hasSlot n)).local' with
  | none => exact .inl rfl
  | some cl => by_cases ho : LocalOwner.hasSlot n cl.owner <;> simp [ho]

/-- A selection's movement has ended. -/
theorem Circuit.endMovement_still {pick : LocalOwner → Bool} {c : Circuit} {cl : Claim LocalOwner}
    (h : (c.endMovement pick).local' = some cl) (hp : pick cl.owner = true) : cl.form.isMoving = false := by
  rcases c.endMovement_cases pick with ⟨he, hstill⟩ | ⟨cl', -, -, -, he⟩
  · exact hstill cl (by rw [← he, h]) hp
  · rw [he, Circuit.recompute_local] at h
    cases h
    exact Form.stop_isMoving _

/-- A slot's claim cleared (R42). -/
theorem Circuit.clearSlot_keeps (asserted : SafeSet) (n : Nat) (c : Circuit) : c.Keeps asserted asserted (c.clearSlot n) := by
  have hkeep := c.endMovement_keeps asserted (LocalOwner.hasSlot n)
  rcases c.clearSlot_cases n with he | ⟨cl, hl, ho, he⟩ <;> rw [he]
  · exact hkeep
  · refine hkeep.trans (.of_sameBut (l := .local') (by simp [Circuit.SameBut]) (by decide) (fun hs => ?_) (fun hm => ?_) nofun)
    · have hform (l : Layer) : ({ c.endMovement (LocalOwner.hasSlot n) with local' := some ⟨cl.form, none⟩ } : Circuit).form? l
          = (c.endMovement (LocalOwner.hasSlot n)).form? l := by
        cases l <;> simp [Circuit.form?, hl]
      obtain ⟨hraw, hout⟩ := hs
      exact ⟨hraw.trans (Circuit.rawOf_congr (d := { c.endMovement (LocalOwner.hasSlot n) with local' := some ⟨cl.form, none⟩ })
        hform rfl).symm, hout⟩
    · refine hm.of_sameBut (l := .local') (by simp [Circuit.SameBut]) fun f hf => ?_
      obtain rfl : cl.form = f := Option.some.inj hf
      exact Circuit.endMovement_still hl ho

/-- A change to the forms of the claims, layer by layer, that leaves their targets and sets nothing in motion. -/
theorem Circuit.Keeps.of_forms {asserted : SafeSet} {c d : Circuit} (hcfg : d.cfg = c.cfg) (hset : d.Settled)
    (hbase : d.base.isSome = c.base.isSome) (hlocal : d.local'.map (fun cl => (cl.owner, cl.form.isMoving))
      = c.local'.map fun cl => (cl.owner, cl.form.isMoving))
    (hstand : d.safeStand = c.safeStand) (hstill : ∀ l, (d.form? l).map Form.isMoving = (c.form? l).map Form.isMoving) :
    c.Keeps asserted asserted d := by
  refine ⟨fun h => by rwa [hcfg], fun _ => hset, fun h => by rwa [hbase], fun h => ?_, fun h => h.congr hcfg hstand⟩
  rw [Circuit.movementSound_iff] at h ⊢
  obtain ⟨hother, hloc⟩ := h
  refine ⟨fun l hl f hf => ?_, fun cl hcl hm => ?_⟩
  · have := hstill l
    rw [hf, Option.map_some] at this
    obtain ⟨g, hg, hgm⟩ := Option.map_eq_some_iff.1 this.symm
    rw [← hgm]; exact hother l hl g hg
  · rw [hcl, Option.map_some] at hlocal
    obtain ⟨cl', hcl', he⟩ := Option.map_eq_some_iff.1 hlocal.symm
    simp only [Prod.mk.injEq] at he
    rw [hcfg, ← he.1]
    exact hloc cl' hcl' (by rw [he.2, hm])

/-- The forms after a fade tick are the ticked forms (R16). -/
theorem Circuit.tick_form (c : Circuit) (l : Layer) : c.tick.form? l = (c.form? l).map (Form.tick c.cfg) := by
  cases l <;> simp [Circuit.tick, Circuit.form?, Function.comp_def, Claim.tick]

/-- A fade tick (R16). -/
theorem Circuit.tick_keeps (asserted : SafeSet) (c : Circuit) : c.Keeps asserted asserted c.tick := by
  refine .of_forms rfl (Circuit.recompute_settled _) ?_ ?_ ?_ fun l => ?_
  · simp [Circuit.tick]
  · simp [Circuit.tick, Function.comp_def, Claim.tick]
  · simp [Circuit.tick, Circuit.safeStand, Function.comp_def, Claim.tick]
  · simp [Circuit.tick_form, Function.comp_def]

/-- A fade's completion finishes the form of its layer's claim and leaves the others (R22). -/
theorem Circuit.finish_form (l k : Layer) (c : Circuit) :
    (c.finish l).form? k = if k = l then (c.form? k).map Form.finish else c.form? k := by
  cases l <;> cases k <;> simp [Circuit.finish, Circuit.form?, Function.comp_def, Claim.finish]

/-- A fade's completion (R22). -/
theorem Circuit.finish_keeps (asserted : SafeSet) (l : Layer) (c : Circuit) : c.Keeps asserted asserted (c.finish l) := by
  refine .of_forms (Circuit.finish_cfg l c) ?_ ?_ ?_ ?_ fun k => ?_
  · cases l <;> exact Circuit.recompute_settled _
  · cases l <;> simp [Circuit.finish]
  · cases l <;> simp [Circuit.finish, Function.comp_def, Claim.finish]
  · cases l <;> simp [Circuit.finish, Circuit.safeStand, Function.comp_def, Claim.finish]
  · rw [Circuit.finish_form]
    split
    · simp [Function.comp_def]
    · rfl

/-- A handover's end (R32): nothing without one; else it is removed and the levels recomputed. -/
theorem Circuit.endHandover_cases (c : Circuit) :
    c.handover = none ∧ c.endHandover = c ∨ c.handover.isSome = true ∧ c.endHandover = ({ c with handover := none }).recompute := by
  unfold Circuit.endHandover
  cases c.handover <;> simp

/-- A handover's end (R32). -/
theorem Circuit.endHandover_keeps (asserted : SafeSet) (c : Circuit) : c.Keeps asserted asserted c.endHandover := by
  rcases c.endHandover_cases with ⟨-, he⟩ | ⟨-, he⟩ <;> rw [he]
  · exact .refl _ c
  · exact .of_forms rfl (Circuit.recompute_settled _) rfl rfl rfl fun _ => by simp only [Circuit.recompute_form]; rfl

/-- Everything a safety input that asserts can do to a circuit (R124): nothing, or a Safe claim. -/
theorem Circuit.assertSafe_cases (i : SafeInput) (c : Circuit) :
    c.assertSafe i = c ∨ ∃ m v, c.assertSafe i = c.safeClaim m v 0 := by
  unfold Circuit.assertSafe
  cases c.cfg.safeLevel i with
  | none => exact .inl rfl
  | some v => cases c.safe <;> exact .inr ⟨_, _, rfl⟩

/-- Everything a safety input that deasserts can do to a circuit (R125): nothing, a release of Safe, or a Safe claim. -/
theorem Circuit.deassertSafe_cases (i : SafeInput) (fade : Nat) (c : Circuit) :
    c.deassertSafe i fade = c ∨ c.deassertSafe i fade = c.release .safe fade ∨ ∃ m v, c.deassertSafe i fade = c.safeClaim m v fade := by
  unfold Circuit.deassertSafe
  cases c.safe with
  | none => exact .inl rfl
  | some cl =>
    simp only
    split
    · split
      · exact .inr (.inl rfl)
      · exact .inr (.inr ⟨_, _, rfl⟩)
    · exact .inl rfl

/-- A Safe claim leaves Base. -/
@[simp] theorem Circuit.safeClaim_base (i : SafeSet) (v fade : Nat) (c : Circuit) : (c.safeClaim i v fade).base = c.base :=
  (c.place_sameBut (.safe i) _).2.1 nofun

/-- A release of a layer above Base leaves Base (R11). -/
theorem Circuit.release_base {l : Layer} (h : l ≠ .base) (fade : Nat) (c : Circuit) : (c.release l fade).base = c.base :=
  (c.release_sameBut l fade).2.1 h

/-- A safety input asserts (R124). -/
theorem Circuit.assertSafe_keeps (asserted : SafeSet) (i : SafeInput) (c : Circuit) :
    c.Keeps asserted (asserted.insert i) (c.assertSafe i) := by
  refine ⟨fun h => by rwa [Circuit.assertSafe_cfg], ?_, ?_, ?_, fun h => h.assertSafe i⟩
  all_goals rcases c.assertSafe_cases i with he | ⟨m, v, he⟩ <;> rw [he]
  · exact id
  · exact fun _ => c.safeClaim_settled m v 0
  · exact id
  · simp
  · exact id
  · exact fun h => h.safeClaim m v 0

/-- A safety input deasserts (R125). -/
theorem Circuit.deassertSafe_keeps (asserted : SafeSet) (i : SafeInput) (fade : Nat) (c : Circuit) :
    c.Keeps asserted (asserted.erase i) (c.deassertSafe i fade) := by
  refine ⟨fun h => by rwa [Circuit.deassertSafe_cfg], ?_, ?_, ?_, fun h => h.deassertSafe i fade⟩
  all_goals rcases c.deassertSafe_cases i fade with he | he | ⟨m, v, he⟩ <;> rw [he]
  · exact id
  · exact fun h => Circuit.release_settled h .safe fade
  · exact fun _ => c.safeClaim_settled m v fade
  · exact id
  · rw [Circuit.release_base (by decide)]; exact id
  · simp
  · exact id
  · exact fun h => h.release .safe fade
  · exact fun h => h.safeClaim m v fade

end Sys2Proof.Machine

namespace Sys2Proof.Machine

/-! ## A configuration write -/

/-- A circuit whose kind changes, with its new configuration and its layers above Base released (R14 steps 1 to 3). -/
def Circuit.cleared (cfg : CircuitConfig) (c : Circuit) : Circuit :=
  ((({ c with cfg := cfg } : Circuit).release .local' 0).release .show' 0).release .safe 0

@[simp] theorem Circuit.cleared_cfg (cfg : CircuitConfig) (c : Circuit) : (c.cleared cfg).cfg = cfg := by simp [Circuit.cleared]

@[simp] theorem Circuit.cleared_safe (cfg : CircuitConfig) (c : Circuit) : (c.cleared cfg).safe = none := by simp [Circuit.cleared]

@[simp] theorem Circuit.cleared_show (cfg : CircuitConfig) (c : Circuit) : (c.cleared cfg).show' = none := by
  have h := (((({ c with cfg := cfg } : Circuit).release .local' 0).release .show' 0).release_sameBut .safe 0).2.2.2.1 (by decide)
  rw [Circuit.cleared, h, Circuit.release_show]

@[simp] theorem Circuit.cleared_local (cfg : CircuitConfig) (c : Circuit) : (c.cleared cfg).local' = none := by
  have hsafe := (((({ c with cfg := cfg } : Circuit).release .local' 0).release .show' 0).release_sameBut .safe 0).2.2.1 (by decide)
  have hshow := ((({ c with cfg := cfg } : Circuit).release .local' 0).release_sameBut .show' 0).2.2.1 (by decide)
  rw [Circuit.cleared, hsafe, hshow, Circuit.release_local]

@[simp] theorem Circuit.cleared_base (cfg : CircuitConfig) (c : Circuit) : (c.cleared cfg).base = c.base := by
  simp [Circuit.cleared, Circuit.release_base]

/-- A change of kind clears the layers above Base, claims Base anew, and makes the Safe claim called for (R14). -/
theorem Circuit.changeKind_eq (cfg : CircuitConfig) (m : Mode) (asserted : SafeSet) (c : Circuit) :
    c.changeKind cfg m asserted = ((c.cleared cfg).claim (.base m) (cfg.base.at m) 0).makeSafe asserted := rfl

/-- Everything the making of a Safe claim can do (R14, R160). -/
theorem Circuit.makeSafe_cases (asserted : SafeSet) (c : Circuit) :
    (c.cfg.wantedSet asserted).isEmpty = true ∧ c.makeSafe asserted = c
    ∨ (c.cfg.wantedSet asserted).isEmpty = false
      ∧ c.makeSafe asserted = c.safeClaim (c.cfg.wantedSet asserted) (c.cfg.wantedLevel asserted) 0 := by
  unfold Circuit.makeSafe
  by_cases h : (c.cfg.wantedSet asserted).isEmpty <;> simp [h]

/-- A Safe claim changes the Safe layer alone. -/
theorem Circuit.safeClaim_sameBut (i : SafeSet) (v fade : Nat) (c : Circuit) : c.SameBut (c.safeClaim i v fade) .safe :=
  c.place_sameBut (.safe i) _

/-- The making of a Safe claim changes the Safe layer alone. -/
theorem Circuit.makeSafe_sameBut (asserted : SafeSet) (c : Circuit) : c.SameBut (c.makeSafe asserted) .safe := by
  rcases c.makeSafe_cases asserted with ⟨-, he⟩ | ⟨-, he⟩ <;> rw [he]
  · exact .refl c _
  · exact c.safeClaim_sameBut _ _ _

theorem Circuit.makeSafe_settled {c : Circuit} (h : c.Settled) (asserted : SafeSet) : (c.makeSafe asserted).Settled := by
  rcases c.makeSafe_cases asserted with ⟨-, he⟩ | ⟨-, he⟩ <;> rw [he]
  · exact h
  · exact c.safeClaim_settled _ _ _

theorem Circuit.MovementSound.makeSafe {c : Circuit} (h : c.MovementSound) (asserted : SafeSet) :
    (c.makeSafe asserted).MovementSound := by
  rcases c.makeSafe_cases asserted with ⟨-, he⟩ | ⟨-, he⟩ <;> rw [he]
  · exact h
  · exact h.safeClaim _ _ _

/-- The agreement with the safety inputs changes the Safe layer alone (R15). -/
theorem Circuit.agreeSafe_sameBut (asserted : SafeSet) (fade : Nat) (c : Circuit) : c.SameBut (c.agreeSafe asserted fade) .safe := by
  rcases c.agreeSafe_cases asserted fade with ⟨-, he⟩ | ⟨-, ⟨-, he⟩ | ⟨-, he⟩⟩ <;> rw [he]
  · exact .refl c _
  · exact c.release_sameBut .safe fade
  · exact c.safeClaim_sameBut _ _ _

theorem Circuit.agreeSafe_settled {c : Circuit} (h : c.Settled) (asserted : SafeSet) (fade : Nat) :
    (c.agreeSafe asserted fade).Settled := by
  rcases c.agreeSafe_cases asserted fade with ⟨-, he⟩ | ⟨-, ⟨-, he⟩ | ⟨-, he⟩⟩ <;> rw [he]
  · exact h
  · exact Circuit.release_settled h .safe fade
  · exact c.safeClaim_settled _ _ _

theorem Circuit.MovementSound.agreeSafe {c : Circuit} (h : c.MovementSound) (asserted : SafeSet) (fade : Nat) :
    (c.agreeSafe asserted fade).MovementSound := by
  rcases c.agreeSafe_cases asserted fade with ⟨-, he⟩ | ⟨-, ⟨-, he⟩ | ⟨-, he⟩⟩ <;> rw [he]
  · exact h
  · exact h.release .safe fade
  · exact h.safeClaim _ _ _

/-- Everything a configuration write can do (R13 to R15). -/
theorem Circuit.write_cases (cfg : CircuitConfig) (m : Mode) (asserted : SafeSet) (fade : Nat) (c : Circuit) :
    cfg.kind = c.cfg.kind ∧ c.write cfg m asserted fade = ({ c with cfg := cfg } : Circuit).recompute.agreeSafe asserted fade
    ∨ cfg.kind ≠ c.cfg.kind ∧ c.write cfg m asserted fade = ((c.cleared cfg).claim (.base m) (cfg.base.at m) 0).makeSafe asserted := by
  unfold Circuit.write
  by_cases h : cfg.kind = c.cfg.kind
  · exact .inl ⟨h, if_pos h⟩
  · exact .inr ⟨h, by rw [if_neg h, Circuit.changeKind_eq]⟩

/-- After a configuration write the levels follow from the claims (R13). -/
theorem Circuit.write_settled (cfg : CircuitConfig) (m : Mode) (asserted : SafeSet) (fade : Nat) (c : Circuit) :
    (c.write cfg m asserted fade).Settled := by
  rcases c.write_cases cfg m asserted fade with ⟨-, he⟩ | ⟨-, he⟩ <;> rw [he]
  · exact Circuit.agreeSafe_settled (Circuit.recompute_settled _) _ _
  · exact Circuit.makeSafe_settled (Circuit.claim_settled _ _ _ _) _

/-- Base is claimed anew, with its clamp, where the kind changes (R14), and the Safe layer is still empty then. -/
theorem Circuit.cleared_claim_base (cfg : CircuitConfig) (m : Mode) (v : Nat) (c : Circuit) :
    ((c.cleared cfg).claim (.base m) v 0).base = some ⟨.steady (cfg.clamp v), m⟩ := by
  simp [Circuit.claim, Form.ofFade]

theorem Circuit.cleared_claim_above (cfg : CircuitConfig) (m : Mode) (v : Nat) (c : Circuit) :
    ((c.cleared cfg).claim (.base m) v 0).local' = none ∧ ((c.cleared cfg).claim (.base m) v 0).show' = none
      ∧ ((c.cleared cfg).claim (.base m) v 0).safe = none := by
  obtain ⟨-, -, hl, hs, hf⟩ := (c.cleared cfg).place_sameBut (.base m) (Form.ofFade ((c.cleared cfg).startLevel .base) ((c.cleared cfg).cfg.clamp v) 0)
  exact ⟨(hl nofun).trans (c.cleared_local cfg), (hs nofun).trans (c.cleared_show cfg), (hf nofun).trans (c.cleared_safe cfg)⟩

/-- After a configuration write the Safe layer agrees with the safety inputs (R15). -/
theorem Circuit.write_agrees (cfg : CircuitConfig) (m : Mode) (asserted : SafeSet) (fade : Nat) (c : Circuit) :
    (c.write cfg m asserted fade).SafeAgrees asserted := by
  rcases c.write_cases cfg m asserted fade with ⟨-, he⟩ | ⟨-, he⟩ <;> rw [he]
  · exact Circuit.agreeSafe_agrees _ _ _
  · exact Circuit.makeSafe_agrees _ (c.cleared_claim_above cfg m _).2.2

/-- A configuration write leaves no movement where there must be none: one that keeps the kind keeps the claims, one that changes it drops
Local (R13, R14). -/
theorem Circuit.MovementSound.write {c : Circuit} (h : c.MovementSound) (cfg : CircuitConfig) (m : Mode) (asserted : SafeSet) (fade : Nat) :
    (c.write cfg m asserted fade).MovementSound := by
  rw [Circuit.movementSound_iff] at h
  obtain ⟨hother, hlocal⟩ := h
  rcases c.write_cases cfg m asserted fade with ⟨hk, he⟩ | ⟨-, he⟩ <;> rw [he]
  · refine Circuit.MovementSound.agreeSafe ?_ _ _
    rw [Circuit.movementSound_iff]
    refine ⟨fun l hl f hf => hother l hl f ?_, fun cl hcl hm => ?_⟩
    · rw [Circuit.recompute_form] at hf; exact hf
    · rw [Circuit.recompute_cfg, hk]; exact hlocal cl hcl hm
  · refine Circuit.MovementSound.makeSafe (Circuit.MovementSound.claim ?_ _ _ _) _
    rw [Circuit.movementSound_iff]
    refine ⟨fun l hl f hf => ?_, by simp⟩
    cases l with
    | base => exact hother .base (by decide) f (by simpa [Circuit.form?] using hf)
    | local' => exact absurd rfl hl
    | show' => simp [Circuit.form?] at hf
    | safe => simp [Circuit.form?] at hf

/-- A configuration write keeps a Base claim (R13, R14). -/
theorem Circuit.write_base_isSome {c : Circuit} (h : c.base.isSome = true) (cfg : CircuitConfig) (m : Mode) (asserted : SafeSet) (fade : Nat) :
    (c.write cfg m asserted fade).base.isSome = true := by
  rcases c.write_cases cfg m asserted fade with ⟨-, he⟩ | ⟨-, he⟩ <;> rw [he]
  · rw [(Circuit.agreeSafe_sameBut asserted fade _).2.1 (by decide)]; exact h
  · rw [(Circuit.makeSafe_sameBut asserted _).2.1 (by decide), Circuit.cleared_claim_base]; rfl

/-- A configuration write of a configuration in range (R13 to R15). -/
theorem Circuit.write_keeps (asserted : SafeSet) {cfg : CircuitConfig} (m : Mode) (fade : Nat) {c : Circuit} (h : c.cfg.Legal → cfg.Legal) :
    c.Keeps asserted asserted (c.write cfg m asserted fade) :=
  ⟨fun hc => by rw [Circuit.write_cfg]; exact h hc, fun _ => c.write_settled _ _ _ _, fun hb => Circuit.write_base_isSome hb _ _ _ _,
    fun hm => hm.write _ _ _ _, fun _ => c.write_agrees _ _ _ _⟩

/-! ## Configuration fields -/

@[simp] theorem optWithin_iff (lo hi : Nat) (o : Option Nat) : optWithin lo hi o = true ↔ ∀ v, o = some v → lo ≤ v ∧ v ≤ hi := by
  simp [optWithin, Option.all_eq_true, within]

@[simp] theorem circuitKindOf_isSome (k : Nat) : (circuitKindOf k).isSome = true ↔ k ≤ 1 := by
  rcases k with _ | _ | k <;> simp [circuitKindOf]

@[simp] theorem yesNoOf_isSome (k : Nat) : (yesNoOf k).isSome = true ↔ k ≤ 1 := by
  rcases k with _ | _ | k <;> simp [yesNoOf]

@[simp] theorem modeSetOf_isSome (b : Nat) : (modeSetOf b).isSome = true ↔ b < 32 := by
  unfold modeSetOf
  split <;> simp_all

/-- Base levels in range: one for each house mode (R1). -/
theorem baseInRange_iff (b : BaseLevels) : baseInRange b = true ↔ ∀ m, b.at m ≤ 1000 := by
  constructor
  · intro h m
    cases m <;> simp_all [baseInRange, within, BaseLevels.at]
  · intro h
    simpa [baseInRange, within, and_assoc, BaseLevels.at] using
      And.intro (h .closed) ⟨h .cleaning, h .work, h .rehearsal, h .performance⟩

/-- The fields of a configuration write in their ranges, one by one (R1). -/
theorem circuitFieldsInRange_iff (f : CircuitFields) : circuitFieldsInRange f = true ↔
    (∀ v, f.kind = some v → v ≤ 1) ∧ (∀ v, f.floor = some v → v ≤ 500)
      ∧ (∀ v, f.cap = some v → 1 ≤ v ∧ v ≤ 1000) ∧ (∀ v, f.threshold = some v → 1 ≤ v ∧ v ≤ 1000)
      ∧ (∀ v, f.inverted = some v → v ≤ 1) ∧ (∀ b m, f.base = some b → b.at m ≤ 1000)
      ∧ (∀ v, f.safe1 = some (some v) → 1 ≤ v ∧ v ≤ 1000) ∧ (∀ v, f.safe2 = some (some v) → 1 ≤ v ∧ v ≤ 1000)
      ∧ ∀ v, f.localClear = some v → v < 32 := by
  have hbase : (∀ b, f.base = some b → ∀ m, b.at m ≤ 1000) ↔ ∀ b m, f.base = some b → b.at m ≤ 1000 :=
    ⟨fun h b m hb => h b hb m, fun h b hb m => h b m hb⟩
  have hopt (o : Option (Option Nat)) : (∀ x, o = some x → ∀ v, x = some v → 1 ≤ v ∧ v ≤ 1000) ↔ ∀ v, o = some (some v) → 1 ≤ v ∧ v ≤ 1000 :=
    ⟨fun h v hv => h _ hv v rfl, fun h x hx v hv => h v (by rw [hx, hv])⟩
  unfold circuitFieldsInRange
  simp only [Bool.and_eq_true, Option.all_eq_true, circuitKindOf_isSome, optWithin_iff, yesNoOf_isSome, modeSetOf_isSome, baseInRange_iff,
    hbase, hopt, Nat.zero_le, true_and, and_assoc]

/-- The limits of a record agree (R2 check 4). -/
theorem CircuitConfig.limitsAgree_iff (cfg : CircuitConfig) : cfg.limitsAgree = true ↔ cfg.floor ≤ cfg.cap ∧ 1 ≤ cfg.cap := by
  simp [CircuitConfig.limitsAgree]

/-- What holds of a field given and of the present value holds of the one that results. -/
theorem getD_of {α : Type} {p : α → Prop} {o : Option α} {d : α} (ho : ∀ v, o = some v → p v) (hd : p d) : p (o.getD d) := by
  cases o with
  | none => exact hd
  | some v => exact ho v rfl

/-- The configuration that results from fields in range is in range where its limits agree (R1, R2). -/
theorem CircuitConfig.Legal.withFields {cfg : CircuitConfig} (h : cfg.Legal) {f : CircuitFields} (hf : circuitFieldsInRange f = true)
    (hl : (cfg.withFields f).limitsAgree = true) : (cfg.withFields f).Legal := by
  obtain ⟨hfloor, -, -, hcap, hth1, hth2, hbase, hsafe⟩ := h
  obtain ⟨-, ffloor, fcap, fth, -, fbase, fsafe1, fsafe2, -⟩ := (circuitFieldsInRange_iff f).1 hf
  obtain ⟨hle, hcap1⟩ := (cfg.withFields f).limitsAgree_iff.1 hl
  refine ⟨getD_of (p := (· ≤ 500)) ffloor hfloor, hle, hcap1, getD_of (p := (· ≤ 1000)) (fun v hv => (fcap v hv).2) hcap,
    getD_of (p := (1 ≤ ·)) (fun v hv => (fth v hv).1) hth1, getD_of (p := (· ≤ 1000)) (fun v hv => (fth v hv).2) hth2, fun m => ?_, ?_⟩
  · exact getD_of (p := fun b : BaseLevels => b.at m ≤ 1000) (fun b hb => fbase b m hb) (hbase m)
  · intro i
    cases i with
    | safe1 =>
      exact getD_of (p := fun o => ∀ l, o = some l → 1 ≤ l ∧ l ≤ 1000) (fun o ho l hl => fsafe1 l (by rw [ho, hl])) (hsafe .safe1)
    | safe2 =>
      exact getD_of (p := fun o => ∀ l, o = some l → 1 ≤ l ∧ l ≤ 1000) (fun o ho l hl => fsafe2 l (by rw [ho, hl])) (hsafe .safe2)

end Sys2Proof.Machine

namespace Sys2Proof.Machine

/-! ## The circuit table, record by record -/

/-- The tables agree in length, and each record stands to the one in its place as `R` says: by the numbers of the circuits. -/
theorem forall₂_of_circuitAt {R : Circuit → Circuit → Prop} {l m : List Circuit} (hlen : m.length = l.length)
    (h : ∀ n c, circuitAt l n = some c → ∃ d, circuitAt m n = some d ∧ R c d) : List.Forall₂ R l m := by
  refine List.forall₂_iff_get.2 ⟨hlen.symm, fun i h1 h2 => ?_⟩
  obtain ⟨d, hd, hr⟩ := h (i + 1) l[i] (by simp [circuitAt, h1])
  obtain rfl : m[i] = d := by simpa [circuitAt, h2] using hd
  exact hr

/-- A change of every record. -/
theorem forall₂_map {R : Circuit → Circuit → Prop} {f : Circuit → Circuit} (h : ∀ c, R c (f c)) (l : List Circuit) :
    List.Forall₂ R l (l.map f) := List.forall₂_map_right_iff.2 (List.forall₂_same.2 fun c _ => h c)

/-- Tables related one after the other. -/
theorem forall₂_trans {R S T : Circuit → Circuit → Prop} (hT : ∀ c d e, R c d → S d e → T c e) {l m n : List Circuit}
    (h : List.Forall₂ R l m) (k : List.Forall₂ S m n) : List.Forall₂ T l n := by
  induction h generalizing n with
  | nil => cases k; exact .nil
  | cons hcd _ ih =>
    cases k with
    | cons hde hrest => exact .cons (hT _ _ _ hcd hde) (ih hrest)

/-- What holds of every record carries over along related tables. -/
theorem forall₂_carry {R : Circuit → Circuit → Prop} {p q : Circuit → Prop} {l m : List Circuit} (h : List.Forall₂ R l m)
    (hpq : ∀ c d, R c d → p c → q d) (hp : ∀ c ∈ l, p c) : ∀ d ∈ m, q d := by
  induction h with
  | nil => simp
  | @cons c d l m hcd _ ih =>
    intro e he
    rcases List.mem_cons.1 he with rfl | he
    · exact hpq c _ hcd (hp c (by simp))
    · exact ih (fun c hc => hp c (by simp [hc])) e he

/-! ## What a running part keeps -/

/-- The stored tables of circuits, in the image and in a SAVE's copy, are in range. -/
def State.StoreCircuits (s : State) : Prop := s.store.All fun t => LegalCircuits t.circuits

/-- The circuits of the part are in range. -/
def State.LiveCircuits (s : State) : Prop := LegalCircuits (s.circuits.map (·.cfg))

/-- The laws of the Base, Local and Safe layers. -/
def State.LayersSound (s : State) : Prop := s.BaseSound ∧ s.MovementSound ∧ s.SafeSound

/-- What a command of a running part does to the laws of the circuits: the part goes on running, each circuit keeps its own laws under the safety
inputs as they then are, and the stored tables stay in range. -/
structure KeepsCircuits (s t : State) : Prop where
  phase : t.phase = s.phase
  circuits : List.Forall₂ (Circuit.Keeps s.asserted t.asserted) s.circuits t.circuits
  store : s.LiveCircuits → s.StoreCircuits → t.StoreCircuits

theorem KeepsCircuits.live {s t : State} (h : KeepsCircuits s t) (hs : s.LiveCircuits) : t.LiveCircuits := by
  obtain ⟨hlen, hlegal⟩ := hs
  refine ⟨?_, ?_⟩
  · rw [List.length_map, ← h.circuits.length_eq]; simpa using hlen
  · rw [List.forall_mem_map] at hlegal ⊢
    exact forall₂_carry h.circuits (fun c d hk => hk.legal) hlegal

/-- A change that leaves the circuits, the safety inputs and the store. -/
theorem KeepsCircuits.same {s t : State} (hp : t.phase = s.phase) (hc : t.circuits = s.circuits) (ha : t.asserted = s.asserted)
    (hs : t.store = s.store) : KeepsCircuits s t := by
  refine ⟨hp, ?_, fun _ h => by rw [State.StoreCircuits, hs]; exact h⟩
  rw [hc, ha]
  exact List.forall₂_same.2 fun c _ => .refl _ c

theorem KeepsCircuits.refl (s : State) : KeepsCircuits s s := .same rfl rfl rfl rfl

theorem KeepsCircuits.trans {s t u : State} (h : KeepsCircuits s t) (k : KeepsCircuits t u) : KeepsCircuits s u := by
  exact ⟨k.phase.trans h.phase, forall₂_trans (fun _ _ _ hcd hde => hcd.trans hde) h.circuits k.circuits,
    fun hl hs => k.store (h.live hl) (h.store hl hs)⟩

/-- Folding steps that each keep the laws keeps them. -/
theorem KeepsCircuits.foldl {o : Type} {f : State → o → State} (hf : ∀ s x, KeepsCircuits s (f s x)) (xs : List o) (s : State) :
    KeepsCircuits s (xs.foldl f s) := by
  induction xs generalizing s with
  | nil => exact .refl s
  | cons x xs ih => exact (hf s x).trans (ih _)

/-- A change to every circuit. -/
theorem mapCircuits_keeps {f : Circuit → Circuit} (s : State) (hf : ∀ c : Circuit, c.Keeps s.asserted s.asserted (f c)) :
    KeepsCircuits s (s.mapCircuits f) := ⟨rfl, forall₂_map hf s.circuits, fun _ h => h⟩

/-- A change to circuit `n`. -/
theorem onCircuit_keeps (n : Nat) {f : Circuit → Circuit} (s : State) (hf : ∀ c : Circuit, c.Keeps s.asserted s.asserted (f c)) :
    KeepsCircuits s (s.onCircuit n f) := by
  refine ⟨rfl, forall₂_of_circuitAt (by simp [State.onCircuit]) fun k c hc => ?_, fun _ h => h⟩
  simp only [State.onCircuit, withCircuits_circuits, circuitAt_updateAt, hc]
  by_cases hk : k = n
  · exact ⟨f c, by simp [hk], hf c⟩
  · exact ⟨c, by simp [hk], .refl _ c⟩

/-- Changes to several circuits, one after the other. -/
theorem foldCircuits_keeps {o : Type} (g : o → Nat) {f : o → Circuit → Circuit} (xs : List o) (s : State)
    (hf : ∀ (e : o) (c : Circuit), c.Keeps s.asserted s.asserted (f e c)) :
    KeepsCircuits s (s.withCircuits (xs.foldl (fun l e => updateAt (g e) (f e) l) s.circuits)) := by
  induction xs generalizing s with
  | nil => exact .refl s
  | cons x xs ih => exact (onCircuit_keeps (g x) s (hf x)).trans (ih (s.onCircuit (g x) (f x)) hf)

theorem forCircuits_keeps (ns : List Nat) {f : Circuit → Circuit} (s : State) (hf : ∀ c : Circuit, c.Keeps s.asserted s.asserted (f c)) :
    KeepsCircuits s (s.forCircuits ns f) := foldCircuits_keeps id ns s fun _ => hf

/-! ## What every command keeps -/

/-- The laws of the circuits and of their layers stand after a step where they stood before it. -/
structure KeepsLaws (s t : State) : Prop where
  circuits : s.CircuitsSound → t.CircuitsSound
  layers : s.LayersSound → t.LayersSound

theorem KeepsLaws.refl (s : State) : KeepsLaws s s := ⟨id, id⟩

theorem KeepsLaws.trans {s t u : State} (h : KeepsLaws s t) (k : KeepsLaws t u) : KeepsLaws s u :=
  ⟨k.circuits ∘ h.circuits, k.layers ∘ h.layers⟩

/-- A change that leaves the phase, the circuits, the safety inputs and the store. -/
theorem KeepsLaws.same {s t : State} (hp : t.phase = s.phase) (hc : t.circuits = s.circuits) (ha : t.asserted = s.asserted)
    (hs : t.store = s.store) : KeepsLaws s t := by
  refine ⟨fun h => ?_, fun h => ?_⟩
  · simpa only [State.CircuitsSound, hc, hs] using h
  · simpa only [State.LayersSound, State.BaseSound, State.MovementSound, State.SafeSound, hp, hc, ha] using h

/-- What a running part keeps, circuit by circuit, is what the laws ask for. -/
theorem KeepsCircuits.laws {s t : State} (h : KeepsCircuits s t) (hr : s.phase = .running) : KeepsLaws s t := by
  have htr : t.phase = .running := h.phase.trans hr
  refine ⟨?_, ?_⟩
  · rintro ⟨hlive, hset, hstore⟩
    exact ⟨h.live hlive, forall₂_carry h.circuits (fun _ _ hk => hk.settled) hset, h.store hlive hstore⟩
  · rintro ⟨⟨hbase, -⟩, hmove, hsafe⟩
    refine ⟨⟨fun _ => ?_, fun hn => absurd htr hn⟩, ?_, fun _ => ?_⟩
    · exact forall₂_carry h.circuits (fun _ _ hk => hk.base) (hbase hr)
    · exact forall₂_carry h.circuits (fun _ _ hk => hk.movement) hmove
    · exact forall₂_carry h.circuits (fun _ _ hk => hk.safe) (hsafe hr)

/-- An arrival that only a running part takes. -/
theorem whenRunning_laws {f : State → State} (hf : ∀ s, KeepsCircuits s (f s)) (s : State) : KeepsLaws s (s.whenRunning f) := by
  by_cases h : s.phase = .running
  · rw [whenRunning_running h]; exact (hf s).laws h
  · rw [whenRunning_other h]; exact .refl s

theorem answer_laws (s : State) (e : Byte) (r : ResultCode) (p : List Byte) : KeepsLaws s (s.answer e r p) := .same rfl rfl rfl rfl

theorem accept_laws (s : State) (i : Instr) : KeepsLaws s (s.accept i) := .same rfl rfl rfl rfl

theorem discardRequest_laws (s : State) : KeepsLaws s s.discardRequest := .same rfl rfl rfl rfl

theorem whenSelFree_laws {f : State → State} {s : State} (hf : KeepsLaws s (f s)) : KeepsLaws s (s.whenSelFree f) := by
  unfold State.whenSelFree
  split
  · exact .refl s
  · exact hf

/-- A request row, by the phase and the state of the port (R148). -/
theorem requestStep_laws {i : Instr} {carry : State → State} (hc : ∀ s, s.phase = .running → KeepsLaws s (carry s)) (s : State) :
    KeepsLaws s (s.requestStep i carry) := by
  unfold State.requestStep
  split
  · exact .refl s
  · exact .refl s
  · exact whenSelFree_laws (answer_laws s _ _ _)
  · next hr =>
    have hcarry : KeepsLaws s (carry (s.accept i)) := (accept_laws s i).trans (hc _ hr)
    split
    · split
      · exact hcarry
      · exact whenSelFree_laws (discardRequest_laws s)
    · exact whenSelFree_laws hcarry

/-- A request carried out by an owner that keeps the laws (R149). -/
theorem complete_laws {i : Instr} {owner : State → Carried} (h : ∀ s, KeepsCircuits s (owner s).state) (s : State) :
    KeepsLaws s (s.complete i owner) :=
  requestStep_laws (fun t hr => ((h t).laws hr).trans (answer_laws _ _ _ _)) s

theorem storedWrite_keeps {owner : State → Carried} (h : ∀ s, KeepsCircuits s (owner s).state) (s : State) :
    KeepsCircuits s (State.storedWrite owner s).state := by
  unfold State.storedWrite
  split
  · exact .refl s
  · exact h s

/-- A write of a stored table, refused while the store is busy (R157). -/
theorem write_laws {i : Instr} {owner : State → Carried} (h : ∀ s, KeepsCircuits s (owner s).state) (s : State) :
    KeepsLaws s (s.complete i (State.storedWrite owner)) := complete_laws (storedWrite_keeps h) s

/-- A request that changes nothing but the port. -/
theorem read_laws {i : Instr} {owner : State → Carried} (h : ∀ s, (owner s).state = s) (s : State) : KeepsLaws s (s.complete i owner) :=
  complete_laws (fun t => by rw [h t]; exact .refl t) s

end Sys2Proof.Machine

namespace Sys2Proof.Machine

/-! ## Events and modes -/

theorem raise_keeps (s : State) (f : Flag) : KeepsCircuits s (s.raise f) := .same rfl rfl rfl rfl

theorem withLine_keeps (l : Line) (x : LineCtl) (s : State) : KeepsCircuits s (s.withLine l x) := by
  cases l <;> exact .same rfl rfl rfl rfl

theorem stateEndMovement_keeps (pick : LocalOwner → Bool) (s : State) : KeepsCircuits s (s.endMovement pick) :=
  mapCircuits_keeps s (Circuit.endMovement_keeps _ pick)

/-- A mode change (R89). -/
theorem changeMode_keeps (m : Mode) (fade : Nat) (s : State) : KeepsCircuits s (s.changeMode m fade) := by
  unfold State.changeMode
  split
  · exact .refl s
  · have hmode : KeepsCircuits s (s.withMode m) := .same rfl rfl rfl rfl
    have hbase := mapCircuits_keeps (s.withMode m) fun c : Circuit =>
      c.claim_keeps (w := .base m) _ (by simp [Stake.layer]) (c.cfg.base.at m) fade
    have hclear (t : State) := mapCircuits_keeps (f := fun c => if c.cfg.localClear.has m then c.release .local' fade else c) t fun c => by
      split
      · exact c.release_keeps _ (by decide) fade
      · exact .refl _ c
    have hlines (t : State) : KeepsCircuits t ((t.withLineA (t.lineA.askAnnounce m)).withLineB (t.lineB.askAnnounce m)) :=
      .same rfl rfl rfl rfl
    exact hmode.trans (hbase.trans ((hclear _).trans ((stateEndMovement_keeps _ _).trans ((hlines _).trans (raise_keeps _ _)))))

theorem claimLocal_keeps (o : LocalOwner) (ns : List Nat) (v fade : Nat) (s : State) : KeepsCircuits s (s.claimLocal o ns v fade) :=
  forCircuits_keeps ns s fun c => c.claim_keeps _ (by simp [Stake.layer]) v fade

/-- One binding of a matching set (R57 to R64). -/
theorem carryOut_keeps (k : SourceKey) (s : State) (nb : Nat × Binding) : KeepsCircuits s (s.carryOut k nb) := by
  have hmove (dir : Direction) (rate : Nat) (ns : List Nat) : KeepsCircuits s (s.forCircuits ns (Circuit.move (some (nb.1, k)) dir rate)) :=
    forCircuits_keeps ns s fun c => c.move_keeps _ rfl dir rate
  unfold State.carryOut
  simp only
  cases nb.2.action with
  | on => exact claimLocal_keeps _ _ _ _ s
  | off => exact claimLocal_keeps _ _ _ _ s
  | toggle => dsimp only; split <;> exact claimLocal_keeps _ _ _ _ s
  | raise => exact hmove _ _ _
  | lower => exact hmove _ _ _
  | release => exact forCircuits_keeps _ s fun c => c.release_keeps _ (by decide) _
  | mode =>
    dsimp only
    split
    · exact changeMode_keeps _ _ s
    · exact .refl s
  | _ => -- the one action left, a recall (its name is a word of Lean)
    dsimp only
    split
    · split
      · exact .refl s
      · exact foldCircuits_keeps Prod.fst _ s fun e c => c.claim_keeps _ (by simp [Stake.layer]) e.2 _
    · exact .refl s

theorem endBySource_keeps (k : SourceKey) (e : EventKind) (s : State) : KeepsCircuits s (s.endBySource k e) := by
  cases e with
  | release => exact stateEndMovement_keeps _ s
  | open' => exact stateEndMovement_keeps _ s
  | press => exact .refl s
  | hold => exact .refl s
  | close => exact .refl s

/-- The resolution of an event (R54). -/
theorem resolve_keeps (k : SourceKey) (e : EventKind) (s : State) : KeepsCircuits s (s.resolve k e) :=
  (endBySource_keeps k e s).trans (.foldl (carryOut_keeps k) _ _)

/-! ## Contact, safety and cue inputs -/

theorem withContact_keeps (n : Nat) (x : ContactInput) (s : State) : KeepsCircuits s (s.withContact n x) := by
  unfold State.withContact
  split
  · exact .refl s
  · exact .same rfl rfl rfl rfl

theorem contactClosed_keeps (n : Nat) (x : ContactInput) (s : State) : KeepsCircuits s (s.contactClosed n x) := by
  unfold State.contactClosed
  split
  · exact (withContact_keeps n _ s).trans (resolve_keeps _ _ _)
  · exact withContact_keeps n x s

theorem contactOpened_keeps (n : Nat) (x : ContactInput) (s : State) : KeepsCircuits s (s.contactOpened n x) := by
  unfold State.contactOpened
  dsimp only
  split
  · exact (withContact_keeps n _ s).trans (resolve_keeps _ _ _)
  · exact withContact_keeps n _ s

theorem contactHeld_keeps (n : Nat) (x : ContactInput) (s : State) : KeepsCircuits s (s.contactHeld n x) :=
  (withContact_keeps n _ s).trans (resolve_keeps _ _ _)

theorem contactStuck_keeps (n : Nat) (x : ContactInput) (s : State) : KeepsCircuits s (s.contactStuck n x) :=
  (withContact_keeps n _ s).trans ((stateEndMovement_keeps _ _).trans (raise_keeps _ _))

theorem contactCounted_keeps (n : Nat) (x : ContactInput) (s : State) : KeepsCircuits s (s.contactCounted n x) := by
  unfold State.contactCounted
  dsimp only
  split
  · split
    · exact contactHeld_keeps n _ s
    · split
      · exact contactStuck_keeps n _ s
      · exact withContact_keeps n _ s
  · exact withContact_keeps n x s

theorem contactTurned_keeps (n : Nat) (x : ContactInput) (s : State) : KeepsCircuits s (s.contactTurned n x) := by
  unfold State.contactTurned
  split <;> exact (withContact_keeps n _ s).trans (resolve_keeps _ _ _)

theorem sampleContact_keeps (n : Nat) (level : Bool) (s : State) : KeepsCircuits s (s.sampleContact n level) := by
  unfold State.sampleContact
  split
  · exact .refl s
  · dsimp only
    split
    · exact withContact_keeps n _ s
    · split
      · exact contactTurned_keeps n _ s
      · exact withContact_keeps n _ s
    · split
      · split
        · exact contactClosed_keeps n _ s
        · exact contactOpened_keeps n _ s
      · exact contactCounted_keeps n _ s

/-- What happens to a contact input, where its record is one that it can happen to (log 8). -/
theorem onContact_keeps (n : Nat) (occasion : ContactInput → Bool) {f : ContactInput → State → State} (hf : ∀ x s, KeepsCircuits s (f x s))
    (s : State) : KeepsCircuits s (s.onContact n occasion f) := by
  unfold State.onContact
  split
  · exact .refl s
  · split
    · exact hf _ s
    · exact .refl s

/-- The asserted inputs after a safety pin is written. -/
theorem withSafePin_asserted (i : SafeInput) (p : Pin) (s : State) :
    (s.withSafePin i p).asserted = if p.level then s.asserted.insert i else s.asserted.erase i := by
  cases i <;> cases h : p.level <;> simp [State.withSafePin, State.asserted, SafeSet.insert, SafeSet.erase, h]

/-- A safety input asserts (R124): the circuits follow it. -/
theorem assertInput_keeps (i : SafeInput) (s : State) : KeepsCircuits s (s.assertInput i) := by
  have ha : (s.assertInput i).asserted = s.asserted.insert i := withSafePin_asserted i _ s
  have hs : (s.assertInput i).store = s.store := by cases i <;> rfl
  have hc : (s.assertInput i).circuits = s.circuits.map (Circuit.assertSafe i) := by cases i <;> rfl
  refine ⟨by cases i <;> rfl, ?_, fun _ h => by rw [State.StoreCircuits, hs]; exact h⟩
  rw [ha, hc]
  exact forall₂_map (Circuit.assertSafe_keeps s.asserted i) s.circuits

/-- A safety input deasserts (R125): the circuits follow it. -/
theorem deassertInput_keeps (i : SafeInput) (s : State) : KeepsCircuits s (s.deassertInput i) := by
  have ha : (s.deassertInput i).asserted = s.asserted.erase i := withSafePin_asserted i _ s
  have hs : (s.deassertInput i).store = s.store := by cases i <;> rfl
  have hc : (s.deassertInput i).circuits = s.circuits.map (Circuit.deassertSafe i s.options.safeReleaseFade) := by cases i <;> rfl
  refine ⟨by cases i <;> rfl, ?_, fun _ h => by rw [State.StoreCircuits, hs]; exact h⟩
  rw [ha, hc]
  exact forall₂_map (Circuit.deassertSafe_keeps s.asserted i _) s.circuits

/-- A sample that is not accepted leaves the level (R116). -/
theorem Pin.sample_level_of_not_accepts {p : Pin} {debounce : Nat} {level : Bool} (h : ¬p.accepts debounce level = true) :
    (p.sample debounce level).level = p.level := by
  unfold Pin.sample
  rw [if_neg h]
  split <;> rfl

theorem sampleSafe_keeps (i : SafeInput) (level : Bool) (s : State) : KeepsCircuits s (s.sampleSafe i level) := by
  unfold State.sampleSafe
  split
  · split
    · exact assertInput_keeps i s
    · exact deassertInput_keeps i s
  · next h =>
    have hl := Pin.sample_level_of_not_accepts h
    cases i
    · exact .same rfl rfl (congrArg (SafeSet.mk · s.safe2.level) hl) rfl
    · exact .same rfl rfl (congrArg (SafeSet.mk s.safe1.level ·) hl) rfl

theorem withStage_keeps (i : StageId) (x : Stage) (s : State) : KeepsCircuits s (s.withStage i x) := by
  cases i <;> exact .same rfl rfl rfl rfl

/-- A stage's entries are carried out on the Show layer (R135). -/
theorem transferOne_keeps (i : StageId) (s : State) : KeepsCircuits s (s.transferOne i) := by
  refine .trans (foldCircuits_keeps Prod.fst (s.stage i).entries s fun e c => ?_) (withStage_keeps i _ _)
  cases e.2 with
  | claim v fade => exact c.claim_keeps _ (by simp [Stake.layer]) v fade
  | release fade => exact c.release_keeps _ (by decide) fade

/-- A transfer (R135, R136). -/
theorem transfer_keeps (i : StageId) (s : State) : KeepsCircuits s (s.transfer i) := by
  unfold State.transfer
  dsimp only
  split
  · exact (transferOne_keeps i s).trans (transferOne_keeps _ _)
  · exact transferOne_keeps i s

theorem countIgnored_keeps (c : CueLine) (s : State) : KeepsCircuits s (s.countIgnored c) := by
  cases c <;> exact .same rfl rfl rfl rfl

/-- A cue event at the stage unit (R134). -/
theorem cueArrives_keeps (c : CueLine) (s : State) : KeepsCircuits s (s.cueArrives c) := by
  have hone (b : Bool) : KeepsCircuits s (if b then s.transfer .one else s) := by
    split
    · exact transfer_keeps .one s
    · exact .refl s
  unfold State.cueArrives
  dsimp only
  split
  · split
    · exact (hone _).trans (transfer_keeps .two _)
    · exact hone _
  · exact (countIgnored_keeps c s).trans (raise_keeps _ _)

theorem withCue_keeps (c : CueLine) (x : CueInput) (s : State) : KeepsCircuits s (s.withCue c x) := by
  cases c <;> exact .same rfl rfl rfl rfl

theorem sampleCue_keeps (c : CueLine) (level : Bool) (s : State) : KeepsCircuits s (s.sampleCue c level) := by
  unfold State.sampleCue
  dsimp only
  split
  · exact (withCue_keeps c _ s).trans (cueArrives_keeps c _)
  · exact withCue_keeps c _ s

theorem sampleInput_keeps (pins : BitVec 28) (s : State) (n : Nat) : KeepsCircuits s (State.sampleInput pins s n) := by
  unfold State.sampleInput
  dsimp only
  split
  · exact sampleSafe_keeps .safe1 _ s
  · split
    · exact sampleSafe_keeps .safe2 _ s
    · split
      · exact sampleCue_keeps .cue1 _ s
      · split
        · exact sampleCue_keeps .cue2 _ s
        · exact sampleContact_keeps n _ s

/-- A sample of all the inputs (R116). -/
theorem sampleAll_keeps (pins : BitVec 28) (order : List Nat) (s : State) : KeepsCircuits s (s.sampleAll pins order) :=
  .foldl (sampleInput_keeps pins) _ s

/-! ## Station lines -/

theorem faultLine_keeps (l : Line) (s : State) : KeepsCircuits s (s.faultLine l) := (withLine_keeps l _ s).trans (raise_keeps _ _)

theorem poll_keeps (l : Line) (r : Station) (s : State) : KeepsCircuits s (s.poll l r) := withLine_keeps l _ s

theorem endRound_keeps (l : Line) (s : State) : KeepsCircuits s (s.endRound l) := by
  unfold State.endRound
  dsimp only
  split
  · split
    · exact withLine_keeps l _ s
    · exact (withLine_keeps l _ s).trans (raise_keeps _ _)
  · exact withLine_keeps l _ s

theorem walk_keeps (l : Line) (s : State) : KeepsCircuits s (s.walk l) := by
  unfold State.walk
  split
  · exact poll_keeps l _ s
  · exact endRound_keeps l s

theorem repeatOrWalk_keeps (l : Line) (s : State) : KeepsCircuits s (s.repeatOrWalk l) := by
  unfold State.repeatOrWalk
  split
  · split
    · exact poll_keeps l _ s
    · exact (withLine_keeps l _ s).trans (walk_keeps l _)
  · split
    · exact withLine_keeps l _ s
    · exact (withLine_keeps l _ s).trans (walk_keeps l _)
  · exact walk_keeps l s

theorem chooseExchange_keeps (l : Line) (s : State) : KeepsCircuits s (s.chooseExchange l) := by
  unfold State.chooseExchange
  split
  · exact .refl s
  · split
    · exact withLine_keeps l _ s
    · split
      · exact .refl s
      · exact repeatOrWalk_keeps l s

theorem collide_keeps (l : Line) (s : State) : KeepsCircuits s (s.collide l) := by
  unfold State.collide
  split
  · exact .refl s
  · split
    · exact .refl s
    · dsimp only
      split
      · exact (withLine_keeps l _ s).trans (faultLine_keeps l _)
      · exact withLine_keeps l _ s

theorem onStation_keeps (l : Line) (a : Nat) (f : Station → Station) (s : State) : KeepsCircuits s (s.onStation l a f) :=
  withLine_keeps l _ s

theorem raiseIf_keeps (cond : Bool) (f : Flag) (s : State) : KeepsCircuits s (s.raiseIf cond f) := by
  unfold State.raiseIf
  split
  · exact raise_keeps s f
  · exact .refl s

/-- A valid reply from a station (R106). -/
theorem validReply_keeps (l : Line) (r : Station) (reply : StationReply) (s : State) : KeepsCircuits s (s.validReply l r reply) := by
  have hback := (onStation_keeps l r.ident.address (Station.answered reply) s).trans
    (raiseIf_keeps (decide (r.state = .silent)) .stationBack _)
  unfold State.validReply
  dsimp only
  split
  · exact hback.trans ((raiseIf_keeps _ _ _).trans (.foldl (fun t e => resolve_keeps _ _ t) _ _))
  · exact hback

/-- A miss (R107). -/
theorem miss_keeps (l : Line) (r : Station) (s : State) : KeepsCircuits s (s.miss l r) := by
  unfold State.miss
  dsimp only
  split
  · exact (onStation_keeps l _ _ s).trans ((stateEndMovement_keeps _ _).trans (raise_keeps _ _))
  · exact onStation_keeps l _ _ s

theorem censusJudged_keeps (l : Line) (a : Nat) (entry : Option StationIdent) (s : State) :
    KeepsCircuits s (s.censusJudged l a entry) := by
  unfold State.censusJudged
  dsimp only
  split
  · exact (withLine_keeps l _ s).trans (raise_keeps _ _)
  · exact withLine_keeps l _ s

theorem judge_keeps (l : Line) (x : Exchange) (chars : Option (List RxChar)) (s : State) : KeepsCircuits s (s.judge l x chars) := by
  unfold State.judge
  split
  · split
    · split
      · exact validReply_keeps l _ _ s
      · exact miss_keeps l _ s
    · exact .refl s
  · exact censusJudged_keeps l _ _ s
  · exact .refl s

/-- The end of a reply window (R105). -/
theorem endReply_keeps (l : Line) (chars : Option (List RxChar)) (s : State) : KeepsCircuits s (s.endReply l chars) := by
  unfold State.endReply
  split
  · exact .refl s
  · split
    · exact .refl s
    · exact (judge_keeps l _ _ s).trans (withLine_keeps l _ _)

end Sys2Proof.Machine

namespace Sys2Proof.Machine

/-! ## Requests: what their owners keep -/

/-- A request that one of its checks may refuse. -/
theorem KeepsCircuits.orRefused {s : State} {r : ResultCode} {x : Carried} {p : Prop} [Decidable p] (h : KeepsCircuits s x.state) :
    KeepsCircuits s (if p then s.refuse r else x).state := by
  split
  · exact .refl s
  · exact h

/-- A request carried out where its check passes. -/
theorem KeepsCircuits.ifPassed {s : State} {r : ResultCode} {x : Carried} {p : Prop} [Decidable p] (h : KeepsCircuits s x.state) :
    KeepsCircuits s (if p then x else s.refuse r).state := by
  split
  · exact h
  · exact .refl s

theorem clearAttention_keeps (flags : Nat) (s : State) : KeepsCircuits s (s.clearAttention flags).state :=
  .ifPassed (.same rfl rfl rfl rfl)

theorem setAttentionMask_keeps (mask : Nat) (s : State) : KeepsCircuits s (s.setAttentionMask mask).state :=
  .ifPassed (.same rfl rfl rfl rfl)

/-- The circuits of a span, each once. -/
theorem mem_spanOf {first last n : Nat} : n ∈ spanOf first last ↔ first ≤ n ∧ n ≤ last := by
  unfold spanOf
  rw [List.mem_range'_1]
  omega

theorem spanOf_nodup (first last : Nat) : (spanOf first last).Nodup := List.nodup_range'

/-- Changing each circuit of a list that names each once: those named have had the change, and no other. -/
theorem circuitAt_forCircuits {ns : List Nat} (hn : ns.Nodup) (f : Circuit → Circuit) (s : State) (n : Nat) :
    circuitAt (s.forCircuits ns f).circuits n = if n ∈ ns then (circuitAt s.circuits n).map f else circuitAt s.circuits n := by
  split
  · next h => exact circuitAt_foldl_on id (fun _ => f) ns s.circuits (by simpa using hn) n h
  · next h => exact circuitAt_foldl_off id (fun _ => f) ns s.circuits n fun e he hen => h (hen ▸ he)

/-- The records that would result in a span pass the fourth check of R2. -/
theorem spanAgrees_iff (s : State) (first last : Nat) (f : CircuitFields) : s.spanAgrees first last f = true ↔
    ∀ n x, first ≤ n → n ≤ last → circuitAt s.circuits n = some x → (x.cfg.withFields f).floor ≤ (x.cfg.withFields f).cap
      ∧ 1 ≤ (x.cfg.withFields f).cap := by
  simp only [State.spanAgrees, List.all_eq_true, mem_spanOf, Option.all_eq_true, CircuitConfig.limitsAgree_iff]
  exact ⟨fun h n x h1 h2 => h n ⟨h1, h2⟩ x, fun h n hn x => h n x hn.1 hn.2⟩

/-- SET CIRCUIT CONFIG: every circuit of the span is written with a configuration in range (R2, R13 to R15). -/
theorem setCircuitConfig_keeps (first last : Nat) (f : CircuitFields) (s : State) :
    KeepsCircuits s (s.setCircuitConfig first last f).state := by
  unfold State.setCircuitConfig
  split
  · exact .refl s
  · split
    · exact .refl s
    · next hf =>
      split
      · exact .refl s
      · next ha =>
        have hf : circuitFieldsInRange f = true := by simpa using hf
        have ha := (spanAgrees_iff s first last f).1 (by simpa using ha)
        refine ⟨rfl, forall₂_of_circuitAt (by simp [State.forCircuits]) fun n c hc => ?_, fun _ h => h⟩
        rw [done_state, circuitAt_forCircuits (spanOf_nodup first last), hc]
        split
        · next hn =>
          obtain ⟨h1, h2⟩ := mem_spanOf.1 hn
          exact ⟨_, rfl, Circuit.write_keeps _ _ _ fun hlegal =>
            hlegal.withFields hf ((CircuitConfig.limitsAgree_iff _).2 (ha n c h1 h2 hc))⟩
        · exact ⟨c, rfl, .refl _ c⟩

theorem readCircuitConfig_state (first count : Nat) (s : State) : (s.readCircuitConfig first count).state = s := by
  unfold State.readCircuitConfig; split <;> rfl

theorem readCircuitState_state (first count : Nat) (s : State) : (s.readCircuitState first count).state = s := by
  unfold State.readCircuitState; split <;> rfl

/-- The port makes its claims on Local and Show alone (R17, R18). -/
theorem portStake_layer {code : Nat} {w : Stake} (h : portStake code = some w) : w.layer ≠ .safe := by
  unfold portStake at h
  split at h <;> cases h <;> simp [Stake.layer]

theorem claimLevel_keeps (n code v fade : Nat) (s : State) : KeepsCircuits s (s.claimLevel n code v fade).state := by
  unfold State.claimLevel
  split
  · exact .refl s
  · next hw => exact .ifPassed (onCircuit_keeps n s fun c => c.claim_keeps _ (portStake_layer hw) v fade)

theorem releaseLayer_keeps (n code fade : Nat) (s : State) : KeepsCircuits s (s.releaseLayer n code fade).state := by
  unfold State.releaseLayer
  split
  · exact .refl s
  · next hw => exact .ifPassed (onCircuit_keeps n s fun c => c.release_keeps _ (portStake_layer hw) fade)

theorem addBinding_keeps (r : RawBinding) (s : State) : KeepsCircuits s (s.addBinding r).state := by
  unfold State.addBinding
  split
  · exact .refl s
  · split
    · exact .refl s
    · exact .orRefused (.orRefused (.same rfl rfl rfl rfl))

theorem clearSlotClaims_keeps (n : Nat) (s : State) : KeepsCircuits s (s.clearSlotClaims n) :=
  mapCircuits_keeps s (Circuit.clearSlot_keeps _ n)

theorem replaceBinding_keeps (n : Nat) (r : RawBinding) (s : State) : KeepsCircuits s (s.replaceBinding n r).state := by
  refine .orRefused ?_
  split
  · exact .refl s
  · split
    · exact .refl s
    · exact .orRefused (.orRefused ((clearSlotClaims_keeps n s).trans (.same rfl rfl rfl rfl)))

theorem retire_keeps (n : Nat) (s : State) : KeepsCircuits s (s.retire n) := by
  unfold State.retire
  split
  · exact .refl s
  · exact (clearSlotClaims_keeps n s).trans (.same rfl rfl rfl rfl)

theorem retireBinding_keeps (n : Nat) (s : State) : KeepsCircuits s (s.retireBinding n).state :=
  .orRefused (.orRefused (retire_keeps n s))

theorem retireSource_keeps (k : RawKey) (s : State) : KeepsCircuits s (s.retireSource k).state := by
  unfold State.retireSource
  split
  · exact .refl s
  · exact .foldl (fun t n => retire_keeps n t) _ s

theorem disable_keeps (n : Nat) (s : State) : KeepsCircuits s (s.disable n).state := by
  refine .orRefused ?_
  split
  · exact .refl s
  · exact (stateEndMovement_keeps _ s).trans (.same rfl rfl rfl rfl)
  · exact .refl s

theorem enable_keeps (n : Nat) (s : State) : KeepsCircuits s (s.enable n).state := by
  refine .orRefused ?_
  split <;> exact .same rfl rfl rfl rfl

theorem readBinding_state (n : Nat) (s : State) : (s.readBinding n).state = s := by
  unfold State.readBinding
  repeat' split
  all_goals rfl

theorem findBindings_state (k : RawKey) (kind : Nat) (s : State) : (s.findBindings k kind).state = s := by
  unfold State.findBindings; split <;> rfl

theorem injectEvent_keeps (k : RawKey) (kind : Nat) (s : State) : KeepsCircuits s (s.injectEvent k kind).state := by
  unfold State.injectEvent
  split
  · exact .ifPassed (resolve_keeps _ _ s)
  · exact .refl s

theorem writeGroup_keeps (g : Nat) (ranges : List (Nat × Nat)) (s : State) : KeepsCircuits s (s.writeGroup g ranges).state :=
  .orRefused (.orRefused (.orRefused (.orRefused (.same rfl rfl rfl rfl))))

theorem deleteGroup_keeps (g : Nat) (s : State) : KeepsCircuits s (s.deleteGroup g).state :=
  .orRefused (.orRefused (.same rfl rfl rfl rfl))

theorem readGroup_state (g first count : Nat) (s : State) : (s.readGroup g first count).state = s := by
  unfold State.readGroup
  repeat' split
  all_goals rfl

theorem placeScene_keeps (n : Nat) (sc : Scene) (s : State) : KeepsCircuits s (s.placeScene n sc).state :=
  .orRefused (.same rfl rfl rfl rfl)

theorem writeScene_keeps (n : Nat) (fade : Option Nat) (entries : List (Nat × Nat)) (s : State) :
    KeepsCircuits s (s.writeScene n fade entries).state :=
  .orRefused (.orRefused (.orRefused (.orRefused (placeScene_keeps n _ s))))

theorem extendScene_keeps (n : Nat) (entries : List (Nat × Nat)) (s : State) : KeepsCircuits s (s.extendScene n entries).state := by
  refine .orRefused (.orRefused (.orRefused ?_))
  split
  · exact .refl s
  · exact placeScene_keeps n _ s

theorem captureScene_keeps (n : Nat) (fade : Option Nat) (ranges : List (Nat × Nat)) (s : State) :
    KeepsCircuits s (s.captureScene n fade ranges).state :=
  .orRefused (.orRefused (.orRefused (.orRefused (placeScene_keeps n _ s))))

theorem deleteScene_keeps (n : Nat) (s : State) : KeepsCircuits s (s.deleteScene n).state :=
  .orRefused (.orRefused (.same rfl rfl rfl rfl))

theorem readScene_state (n first count : Nat) (s : State) : (s.readScene n first count).state = s := by
  unfold State.readScene
  repeat' split
  all_goals rfl

theorem setMode_keeps (m : Nat) (fade : Option Nat) (s : State) : KeepsCircuits s (s.setMode m fade).state := by
  unfold State.setMode
  split
  · exact .refl s
  · exact .ifPassed (changeMode_keeps _ _ s)

theorem setModeOptions_keeps (f : OptionFields) (s : State) : KeepsCircuits s (s.setModeOptions f).state :=
  .ifPassed (.same rfl rfl rfl rfl)

theorem setLineConfig_keeps (line : Nat) (f : LineFields) (s : State) : KeepsCircuits s (s.setLineConfig line f).state := by
  unfold State.setLineConfig
  split
  · exact .refl s
  · exact .ifPassed (withLine_keeps _ _ s)

theorem enrolStation_keeps (line a buttons indicators : Nat) (s : State) :
    KeepsCircuits s (s.enrolStation line a buttons indicators).state := by
  unfold State.enrolStation
  split
  · exact .orRefused (.orRefused (.orRefused (withLine_keeps _ _ s)))
  · exact .refl s

theorem unenrolStation_keeps (line a : Nat) (s : State) : KeepsCircuits s (s.unenrolStation line a).state := by
  unfold State.unenrolStation
  split
  · exact .refl s
  · exact .orRefused (.orRefused ((stateEndMovement_keeps _ s).trans (withLine_keeps _ _ _)))

theorem readStation_state (line a : Nat) (s : State) : (s.readStation line a).state = s := by
  unfold State.readStation
  repeat' split
  all_goals rfl

theorem readLine_state (line : Nat) (s : State) : (s.readLine line).state = s := by
  unfold State.readLine; split <;> rfl

theorem censusStart_keeps (line : Nat) (s : State) : KeepsCircuits s (s.censusStart line).state := by
  unfold State.censusStart
  split
  · exact .refl s
  · exact .orRefused (.orRefused (withLine_keeps _ _ s))

theorem censusRead_state (line : Nat) (s : State) : (s.censusRead line).state = s := by
  unfold State.censusRead; split <;> rfl

theorem setInputConfig_keeps (n : Nat) (f : InputFields) (s : State) : KeepsCircuits s (s.setInputConfig n f).state := by
  unfold State.setInputConfig
  split
  · exact .orRefused (.ifPassed (withCue_keeps _ _ s))
  · split
    · exact .refl s
    · exact .orRefused (.ifPassed (withContact_keeps n _ s))

theorem readInput_state (n : Nat) (s : State) : (s.readInput n).state = s := by
  unfold State.readInput
  repeat' split
  all_goals rfl

theorem stageEntry_keeps (stage circuit : Nat) (e : StageForm) (s : State) : KeepsCircuits s (s.stageEntry stage circuit e).state := by
  unfold State.stageEntry
  split
  · exact .refl s
  · exact .orRefused (.orRefused (withStage_keeps _ _ s))

theorem stageClear_keeps (stage : Nat) (s : State) : KeepsCircuits s (s.stageClear stage).state := by
  unfold State.stageClear
  split
  · exact .refl s
  · exact .orRefused (withStage_keeps _ _ s)

theorem setStageTrigger_keeps (stage trigger : Nat) (s : State) : KeepsCircuits s (s.setStageTrigger stage trigger).state := by
  unfold State.setStageTrigger
  split
  · exact .orRefused (withStage_keeps _ _ s)
  · exact .refl s

theorem standby_keeps (stage : Nat) (s : State) : KeepsCircuits s (s.standby stage).state := by
  unfold State.standby
  split
  · exact .refl s
  · exact .orRefused (withStage_keeps _ _ s)

theorem unstandby_keeps (stage : Nat) (s : State) : KeepsCircuits s (s.unstandby stage).state := by
  unfold State.unstandby
  split
  · exact .refl s
  · split
    · exact withStage_keeps _ _ s
    · exact .refl s

theorem go_keeps (stage : Nat) (s : State) : KeepsCircuits s (s.go stage).state := by
  unfold State.go
  split
  · exact .refl s
  · exact .ifPassed (transfer_keeps _ s)

theorem readStage_state (stage first count : Nat) (s : State) : (s.readStage stage first count).state = s := by
  unfold State.readStage
  repeat' split
  all_goals rfl

theorem setLinkConfig_keeps (period : Nat) (s : State) : KeepsCircuits s (s.setLinkConfig period).state :=
  .ifPassed (.same rfl rfl rfl rfl)

/-! ## The settings store -/

/-- A change of the store alone that leaves the stored tables of circuits in range. -/
theorem KeepsCircuits.withStore {s : State} {st : Store}
    (h : s.LiveCircuits → s.StoreCircuits → st.All fun t => LegalCircuits t.circuits) : KeepsCircuits s (s.withStore st) :=
  ⟨rfl, List.forall₂_same.2 fun c _ => .refl _ c, h⟩

/-- Erased memory says nothing of any table, and so the copy alone counts (R157, R158). -/
theorem erased_all {st : StoreState} {v : Bool} {copy : Option Stored} {p : Stored → Prop} (h : ∀ t, copy = some t → p t) :
    (Store.mk st v [] copy).All p := by
  refine ⟨fun t ht => ?_, h⟩
  rw [image_of_erased] at ht
  cases ht

theorem erased_none {st : StoreState} {v : Bool} {p : Stored → Prop} : (Store.mk st v [] none).All p :=
  erased_all fun _ ht => nomatch ht

/-- SAVE copies the live tables, which are in range (R157). -/
theorem save_keeps (s : State) : KeepsCircuits s s.save.state :=
  .orRefused (.withStore fun hlive _ => erased_all fun t ht => by cases ht; exact hlive)

theorem eraseStore_keeps (s : State) : KeepsCircuits s s.eraseStore.state := .orRefused (.withStore fun _ _ => erased_none)

/-- A verified image holds the copy that SAVE took (R157). -/
theorem endSave_keeps (verified : Bool) (s : State) : KeepsCircuits s (s.endSave verified) := by
  unfold State.endSave
  split
  · exact .refl s
  · split
    · refine .trans (.withStore fun _ hs => ?_) (raise_keeps _ _)
      cases hc : s.store.copy with
      | none => exact erased_none
      | some u =>
        refine ⟨fun t ht => ?_, fun _ ht => nomatch ht⟩
        rw [Option.map_some, Option.getD_some, image_of_file] at ht
        cases ht
        exact hs.2 u hc
    · exact .trans (.withStore fun _ _ => erased_none) (raise_keeps _ _)

theorem endErase_keeps (s : State) : KeepsCircuits s s.endErase := by
  unfold State.endErase
  split
  · exact .refl s
  · exact .trans (.withStore fun _ _ => erased_none) (raise_keeps _ _)

end Sys2Proof.Machine

namespace Sys2Proof.Machine

/-! ## Start-up, supply and reset -/

/-- A stopped operation leaves the image and no copy, so its stored tables are in range where they were. -/
theorem Store.All.dropCopy {p : Stored → Prop} {st st' : Store} (h : st.All p) (hm : st'.memory = st.memory) (hc : st'.copy = none) :
    st'.All p :=
  ⟨fun t ht => h.1 t (by rw [← image_of_memory hm]; exact ht), fun t ht => by rw [hc] at ht; cases ht⟩

theorem legalCircuits_bare {l : List CircuitConfig} (h : LegalCircuits l) : LegalCircuits ((l.map Circuit.bare).map (·.cfg)) := by
  simpa [Function.comp_def, Circuit.bare] using h

/-- The circuits with every layer empty stand by their laws in a part that does not run (R4). -/
theorem bare_soundness {t : State} {l : List CircuitConfig} (hc : t.circuits = l.map Circuit.bare) :
    (LegalCircuits l → t.StoreCircuits → t.CircuitsSound) ∧ (t.phase ≠ .running → t.LayersSound) := by
  have hall {q : Circuit → Prop} (h : ∀ cfg ∈ l, q (Circuit.bare cfg)) : ∀ c ∈ t.circuits, q c := by
    rw [hc]
    exact List.forall_mem_map.2 h
  refine ⟨fun hl hs => ⟨?_, hall fun cfg hcfg => Circuit.bare_settled (hl.2 cfg hcfg), hs⟩, fun hp => ?_⟩
  · rw [hc]
    exact legalCircuits_bare hl
  · exact ⟨⟨fun h => absurd h hp, fun _ => hall fun _ _ => rfl⟩, hall fun cfg _ => Circuit.bare_movementSound cfg, fun h => absurd h hp⟩

/-- The blank configuration of a circuit is in range (R1). -/
theorem CircuitConfig.blank_legal : CircuitConfig.blank.Legal :=
  ⟨by decide, by decide, by decide, by decide, by decide, by decide, fun m => by cases m <;> decide, fun i l h => by cases i <;> cases h⟩

theorem legalCircuits_blank : LegalCircuits Stored.blank.circuits :=
  ⟨List.length_replicate, fun cfg h => by rw [List.eq_of_mem_replicate h]; exact CircuitConfig.blank_legal⟩

/-- The part stopped, held or without supply (R159, R160). -/
theorem stop_laws {p : Phase} (hp : p ≠ .running) (s : State) : KeepsLaws s (s.stop p) := by
  have hc : (s.stop p).circuits = (s.circuits.map (·.cfg)).map Circuit.bare := by simp [stop_eq, Function.comp_def]
  have hb := bare_soundness hc
  refine ⟨fun ⟨hlive, _, hstore⟩ => hb.1 hlive ?_, fun _ => hb.2 ?_⟩
  · exact Store.All.dropCopy hstore (by rw [stop_eq]) (by rw [stop_eq])
  · rw [stop_eq]; exact hp

/-- A start-up begins (R160): the circuits are those of the image, or blank. -/
theorem startUp_laws (cause : StartCause) (s : State) : KeepsLaws s (s.startUp cause) := by
  have he := startUp_eq cause s _ rfl
  have hb := bare_soundness (t := s.startUp cause) (l := (s.store.image.getD Stored.blank).circuits) (by rw [he])
  refine ⟨fun ⟨_, _, hstore⟩ => hb.1 ?_ ?_, fun _ => hb.2 (by rw [he]; exact nofun)⟩
  · exact getD_of (p := fun t : Stored => LegalCircuits t.circuits) hstore.1 legalCircuits_blank
  · exact Store.All.dropCopy hstore (by rw [he]) (by rw [he])

/-- What steps 5 and 6 of start-up make of a circuit (R85, R160): its Base claim, and the Safe claim called for. -/
def Circuit.started (m : Mode) (asserted : SafeSet) (c : Circuit) : Circuit := (c.makeBase m).makeSafe asserted

@[simp] theorem Circuit.started_cfg (m : Mode) (asserted : SafeSet) (c : Circuit) : (c.started m asserted).cfg = c.cfg := by
  simp [Circuit.started, Circuit.makeBase]

theorem Circuit.started_settled (m : Mode) (asserted : SafeSet) (c : Circuit) : (c.started m asserted).Settled :=
  Circuit.makeSafe_settled (Circuit.claim_settled _ _ _ _) _

theorem Circuit.started_base (m : Mode) (asserted : SafeSet) (c : Circuit) : (c.started m asserted).base.isSome = true := by
  rw [Circuit.started, (Circuit.makeSafe_sameBut asserted _).2.1 (by decide)]
  simp [Circuit.makeBase, Circuit.claim]

theorem Circuit.started_agrees (m : Mode) (asserted : SafeSet) {c : Circuit} (h : c.safe = none) :
    (c.started m asserted).SafeAgrees asserted :=
  Circuit.makeSafe_agrees asserted (((c.place_sameBut (.base m) _).2.2.2.2 nofun).trans h)

/-- Start-up runs to its end (R160 steps 5 to 7). -/
theorem endSettling_laws {s : State} (h : s.phase = .settling) : KeepsLaws s s.endSettling := by
  have hc : s.endSettling.circuits = s.circuits.map (Circuit.started s.options.startMode s.adoptInputs.asserted) := by
    rw [endSettling_eq, List.map_map]
    rfl
  have ha : s.endSettling.asserted = s.adoptInputs.asserted := by rw [endSettling_eq]; rfl
  have hr : s.endSettling.phase = .running := by rw [endSettling_eq]
  have hst : s.endSettling.store = s.store := by rw [endSettling_eq, adoptInputs_eq]
  have hall {p q : Circuit → Prop} (hs : ∀ c ∈ s.circuits, p c)
      (hpq : ∀ c, p c → q (c.started s.options.startMode s.adoptInputs.asserted)) : ∀ c ∈ s.endSettling.circuits, q c := by
    rw [hc]
    exact List.forall_mem_map.2 fun c hm => hpq c (hs c hm)
  refine ⟨fun ⟨hlive, hset, hstore⟩ => ⟨?_, hall hset fun c _ => c.started_settled _ _, by rw [hst]; exact hstore⟩, ?_⟩
  · simpa [hc, Function.comp_def] using hlive
  · rintro ⟨⟨-, hbare⟩, hmove, -⟩
    have hbare := hbare (by rw [h]; exact nofun)
    refine ⟨⟨fun _ => hall hmove fun c _ => c.started_base _ _, fun hn => absurd hr hn⟩, hall hmove fun c hm => (hm.claim _ _ _).makeSafe _, fun _ => ?_⟩
    rw [ha]
    exact hall hbare fun c hb => Circuit.started_agrees _ _ (by rw [hb]; rfl)

/-! ## The management port's transactions -/

/-- What a transaction brings to the port touches the port alone (R146). -/
theorem endTransaction_laws (x : Transfer) (s : State) : KeepsLaws s (s.endTransaction x) := by
  unfold State.endTransaction
  split
  · exact .refl s
  · split
    · rw [takeFrame_touches]; exact .same rfl rfl rfl rfl
    · split
      · exact .same rfl rfl rfl rfl
      · exact .refl s

/-- A piece of a transaction (R146). -/
theorem shift_laws (bits : List Bool) (rises : Bool) (s : State) : KeepsLaws s (s.shift bits rises) := by
  have hlow : KeepsLaws s (s.shift bits false) := by rw [shift_low_touches]; exact .same rfl rfl rfl rfl
  cases rises with
  | false => exact hlow
  | true =>
    refine hlow.trans ?_
    show KeepsLaws _ (s.shift bits false).riseSel
    unfold State.riseSel
    split
    · exact .refl _
    · exact (endTransaction_laws _ _).trans (.same rfl rfl rfl rfl)

/-- A piece of a fetch (R150). -/
theorem fetch_laws (bits : Nat) (rises : Bool) (s : State) : KeepsLaws s (s.fetch bits rises) := by
  unfold State.fetch
  dsimp only
  split
  · exact shift_laws _ _ s
  · split
    · exact shift_laws _ _ s
    · exact .refl s
    · split
      · exact shift_laws _ _ s
      · exact .refl s

/-! ## Every command -/

/-- A change of a part that does not run, which leaves the phase, the circuits and the store. -/
theorem KeepsLaws.idle {s t : State} (hr : s.phase ≠ .running) (hp : t.phase = s.phase) (hc : t.circuits = s.circuits)
    (hs : t.store = s.store) : KeepsLaws s t := by
  refine ⟨fun h => ?_, fun ⟨⟨_, hbare⟩, hmove, _⟩ => ⟨⟨fun h => absurd (hp ▸ h) hr, fun _ => ?_⟩, ?_, fun h => absurd (hp ▸ h) hr⟩⟩
  · simpa only [State.CircuitsSound, hc, hs] using h
  · rw [hc]; exact hbare hr
  · rw [State.MovementSound, hc]; exact hmove

/-- A sample of step 4 of start-up touches the inputs alone (R122). -/
theorem settleSample_leaves (pins : BitVec 28) (s : State) :
    (s.settleSample pins).phase = s.phase ∧ (s.settleSample pins).circuits = s.circuits ∧ (s.settleSample pins).store = s.store := by
  unfold State.settleSample
  split <;> simp

/-- A sample of the pins, of a running part or of one that settles (R116, R122). -/
theorem contactSample_laws (pins : BitVec 28) (order : List Nat) (s : State) : KeepsLaws s (s.contactSample pins order) := by
  unfold State.contactSample
  split
  · next h =>
    obtain ⟨hp, hc, hs⟩ := settleSample_leaves pins s
    exact .idle (by rw [h]; exact nofun) hp hc hs
  · next h => exact (sampleAll_keeps pins order s).laws h
  · exact .refl s
  · exact .refl s

theorem breakLine_keeps (l : Line) (s : State) : KeepsCircuits s (s.breakLine l) := by
  unfold State.breakLine
  split
  · exact faultLine_keeps l s
  · exact .refl s

theorem recoverLine_keeps (l : Line) (s : State) : KeepsCircuits s (s.recoverLine l) := by
  unfold State.recoverLine
  split
  · exact withLine_keeps l _ s
  · exact .refl s

theorem endWait_keeps (l : Line) (s : State) : KeepsCircuits s (s.endWait l) := by
  unfold State.endWait
  split
  · exact withLine_keeps l _ s
  · exact .refl s

theorem reachNextStart_keeps (s : State) : KeepsCircuits s s.reachNextStart := by
  unfold State.reachNextStart
  split
  · exact .refl s
  · split <;> exact .same rfl rfl rfl rfl

theorem endFrame_keeps (s : State) : KeepsCircuits s s.endFrame := by
  unfold State.endFrame
  split
  · exact .refl s
  · split <;> exact .same rfl rfl rfl rfl

/-- The safety events, where the input is not yet, or is, asserted (R124, R125; log 7, log 8). -/
theorem safeEvent_keeps (i : SafeInput) (s : State) :
    KeepsCircuits s (if s.asserted.has i then s else s.assertInput i)
      ∧ KeepsCircuits s (if s.asserted.has i then s.deassertInput i else s) := by
  split
  · exact ⟨.refl s, deassertInput_keeps i s⟩
  · exact ⟨assertInput_keeps i s, .refl s⟩

theorem withSpi_laws (s : State) (x : Option Transfer) : KeepsLaws s (s.withSpi x) := .same rfl rfl rfl rfl

theorem withResetLow_laws (s : State) (x : Bool) : KeepsLaws s (s.withResetLow x) := .same rfl rfl rfl rfl

theorem withPending_laws (s : State) (x : List Instr) : KeepsLaws s (s.withPending x) := .same rfl rfl rfl rfl

/-- RESTART (R155): refused, or a start-up. -/
theorem restart_laws (s : State) : KeepsLaws s (s.requestStep .restart fun t =>
    if t.storeBusy then t.answer (requestEcho .restart) .occupied [] else t.startUp .restart) := by
  refine requestStep_laws (fun t _ => ?_) s
  split
  · exact answer_laws t _ _ _
  · exact startUp_laws .restart t

/-- Every command keeps the laws of the circuits and of their layers. -/
theorem exec_laws {i : Instr} {s t : State} (h : exec i s = .next t) : KeepsLaws s t := by
  cases i <;> cases h
  case powerOn =>
    split
    · exact stop_laws (by decide) s
    · exact (withSpi_laws s none).trans (startUp_laws .powerOn _)
  case resetPinLow =>
    refine .trans ?_ (withResetLow_laws _ true)
    split
    · exact .refl s
    · exact stop_laws (by decide) s
  case resetPinRelease =>
    refine .trans ?_ (withResetLow_laws _ false)
    split
    · exact .refl s
    · exact (withSpi_laws s none).trans (startUp_laws .pin _)
  case inputSettlingEnd =>
    split
    · next h => exact endSettling_laws h
    · exact .refl s
  case supplyLost => exact stop_laws (by decide) s
  case requestTransaction piece =>
    split
    · exact shift_laws _ _ s
    · exact .refl s
  case fetch piece =>
    split
    · exact fetch_laws _ _ s
    · exact .refl s
  case contactSample pins order => exact contactSample_laws pins order s
  case restart => exact restart_laws s
  case readIdentity => exact read_laws (fun _ => rfl) s
  case readAttention => exact read_laws (fun _ => rfl) s
  case clearAttention flags => exact complete_laws (clearAttention_keeps flags) s
  case setAttentionMask mask => exact write_laws (setAttentionMask_keeps mask) s
  case setCircuitConfig first last f => exact write_laws (setCircuitConfig_keeps first last f) s
  case readCircuitConfig first count => exact read_laws (readCircuitConfig_state first count) s
  case claimLevel n code v fade => exact complete_laws (claimLevel_keeps n code v fade) s
  case releaseLayer n code fade => exact complete_laws (releaseLayer_keeps n code fade) s
  case readCircuitState first count => exact read_laws (readCircuitState_state first count) s
  case addBinding r => exact write_laws (addBinding_keeps r) s
  case replaceBinding n r => exact write_laws (replaceBinding_keeps n r) s
  case retireBinding n => exact write_laws (retireBinding_keeps n) s
  case retireSource k => exact write_laws (retireSource_keeps k) s
  case disable n => exact write_laws (disable_keeps n) s
  case enable n => exact write_laws (enable_keeps n) s
  case readBinding n => exact read_laws (readBinding_state n) s
  case findBindings k kind => exact read_laws (findBindings_state k kind) s
  case injectEvent k kind => exact complete_laws (injectEvent_keeps k kind) s
  case writeGroup g ranges => exact write_laws (writeGroup_keeps g ranges) s
  case deleteGroup g => exact write_laws (deleteGroup_keeps g) s
  case readGroup g first count => exact read_laws (readGroup_state g first count) s
  case writeScene n fade entries => exact write_laws (writeScene_keeps n fade entries) s
  case extendScene n entries => exact write_laws (extendScene_keeps n entries) s
  case captureScene n fade ranges => exact write_laws (captureScene_keeps n fade ranges) s
  case deleteScene n => exact write_laws (deleteScene_keeps n) s
  case readScene n first count => exact read_laws (readScene_state n first count) s
  case setMode m fade => exact complete_laws (setMode_keeps m fade) s
  case readMode => exact read_laws (fun _ => rfl) s
  case setModeOptions f => exact write_laws (setModeOptions_keeps f) s
  case setLineConfig line f => exact write_laws (setLineConfig_keeps line f) s
  case enrolStation line a buttons indicators => exact write_laws (enrolStation_keeps line a buttons indicators) s
  case unenrolStation line a => exact write_laws (unenrolStation_keeps line a) s
  case readStation line a => exact read_laws (readStation_state line a) s
  case readLine line => exact read_laws (readLine_state line) s
  case censusStart line => exact complete_laws (censusStart_keeps line) s
  case censusRead line => exact read_laws (censusRead_state line) s
  case setInputConfig n f => exact write_laws (setInputConfig_keeps n f) s
  case readInput n => exact read_laws (readInput_state n) s
  case stageEntry stage circuit e => exact complete_laws (stageEntry_keeps stage circuit e) s
  case stageClear stage => exact complete_laws (stageClear_keeps stage) s
  case setStageTrigger stage trigger => exact complete_laws (setStageTrigger_keeps stage trigger) s
  case standby stage => exact complete_laws (standby_keeps stage) s
  case unstandby stage => exact complete_laws (unstandby_keeps stage) s
  case go stage => exact complete_laws (go_keeps stage) s
  case readStage stage first count => exact read_laws (readStage_state stage first count) s
  case setLinkConfig period => exact write_laws (setLinkConfig_keeps period) s
  case readRackLink => exact read_laws (fun _ => rfl) s
  case save => exact complete_laws save_keeps s
  case eraseStore => exact complete_laws eraseStore_keeps s
  case readStoreState => exact read_laws (fun _ => rfl) s
  case saveOperationEnd verified => exact whenRunning_laws (endSave_keeps verified) s
  case eraseOperationEnd => exact whenRunning_laws endErase_keeps s
  case fadeTick => exact whenRunning_laws (fun u => mapCircuits_keeps u (Circuit.tick_keeps _)) s
  case fadeComplete n l => exact whenRunning_laws (fun u => onCircuit_keeps n u (Circuit.finish_keeps _ l)) s
  case handoverEnd n => exact whenRunning_laws (fun u => onCircuit_keeps n u (Circuit.endHandover_keeps _)) s
  case nextExchange l => exact whenRunning_laws (chooseExchange_keeps l) s
  case exchangeSent l => exact whenRunning_laws (fun u => withLine_keeps l _ u) s
  case collision l => exact whenRunning_laws (collide_keeps l) s
  case reply l chars => exact whenRunning_laws (endReply_keeps l (some chars)) s
  case replyWindowEnd l => exact whenRunning_laws (endReply_keeps l none) s
  case lineBreak l => exact whenRunning_laws (breakLine_keeps l) s
  case faultRecovery l => exact whenRunning_laws (recoverLine_keeps l) s
  case roundWaitEnd l => exact whenRunning_laws (endWait_keeps l) s
  case acceptedClose n => exact whenRunning_laws (onContact_keeps n _ fun _ u => contactClosed_keeps n _ u) s
  case holdTimeReached n => exact whenRunning_laws (onContact_keeps n _ fun _ u => contactHeld_keeps n _ u) s
  case stuckTimeReached n => exact whenRunning_laws (onContact_keeps n _ fun _ u => contactStuck_keeps n _ u) s
  case acceptedOpen n => exact whenRunning_laws (onContact_keeps n _ fun _ u => contactOpened_keeps n _ u) s
  case maintainedChange n closed => exact whenRunning_laws (onContact_keeps n _ fun _ u => contactTurned_keeps n _ u) s
  case safeAssert i => exact whenRunning_laws (fun u => (safeEvent_keeps i u).1) s
  case safeDeassert i => exact whenRunning_laws (fun u => (safeEvent_keeps i u).2) s
  case cueEvent c => exact whenRunning_laws (fun u => (withCue_keeps c _ u).trans (cueArrives_keeps c _)) s
  case frameStart => exact whenRunning_laws reachNextStart_keeps s
  case frameEnd => exact whenRunning_laws endFrame_keeps s

/-- Every step keeps them. -/
theorem step_laws {s t : State} (h : step s = .next t) : KeepsLaws s t := by
  unfold step at h
  split at h
  · cases h; exact .refl s
  · exact (withPending_laws s _).trans (exec_laws h)

/-- Settles O4: by the laws that every command keeps, circuit by circuit. -/
theorem everyStepKeepsCircuitsSound : Obligations.EveryStepKeepsCircuitsSound :=
  fun _ _ hs h => (step_laws h).circuits hs

/-- Settles O6: by the laws that every command keeps, circuit by circuit. -/
theorem everyStepKeepsLayersSound : Obligations.EveryStepKeepsLayersSound :=
  fun _ _ hb hm hs h => (step_laws h).layers ⟨hb, hm, hs⟩

end Sys2Proof.Machine

namespace Sys2Proof.Machine

/-! ## The deciding layer and the levels -/

theorem Layer.forall_iff {p : Layer → Prop} : (∀ k, p k) ↔ p .base ∧ p .local' ∧ p .show' ∧ p .safe :=
  ⟨fun h => ⟨h _, h _, h _, h _⟩, fun ⟨hb, hl, hs, hf⟩ k => by cases k <;> assumption⟩

/-- The deciding layer holds a claim, and no layer above it does (R7). -/
theorem Circuit.deciding_eq_some_iff (c : Circuit) (d : Layer) :
    c.deciding = some d ↔ c.form? d ≠ none ∧ ∀ k, d.rank < k.rank → c.form? k = none := by
  unfold Circuit.deciding
  rw [Layer.forall_iff]
  simp only [Option.isSome_iff_ne_none]
  cases d <;> simp [Circuit.form?, Layer.rank] <;> grind

/-- No layer decides where none holds a claim (R4). -/
theorem Circuit.deciding_eq_none_iff (c : Circuit) : c.deciding = none ↔ ∀ k, c.form? k = none := by
  unfold Circuit.deciding
  rw [Layer.forall_iff]
  simp only [Option.isSome_iff_ne_none]
  simp only [Circuit.form?, Option.map_eq_none_iff]
  grind

/-- A claim on a layer decides where no layer above it holds one (R10). -/
theorem Circuit.decides_iff (c : Circuit) (l : Layer) : c.decides l = true ↔ ∀ k, l.rank < k.rank → c.form? k = none := by
  unfold Circuit.decides
  cases hd : c.deciding with
  | none => simpa using fun k _ => (c.deciding_eq_none_iff.1 hd) k
  | some d =>
    obtain ⟨hsome, habove⟩ := (c.deciding_eq_some_iff d).1 hd
    simp only [decide_eq_true_eq]
    exact ⟨fun hle k hk => habove k (by omega), fun h => by by_contra hlt; exact hsome (h d (by omega))⟩

/-- A claim that decides is then the deciding one (R10). -/
theorem Circuit.place_deciding {c : Circuit} {w : Stake} (h : c.decides w.layer = true) (f : Form) :
    (c.place w f).deciding = some w.layer := by
  refine (Circuit.deciding_eq_some_iff _ _).2 ⟨by simp, fun k hk => ?_⟩
  rw [(c.place_sameBut w f).form (by rintro rfl; omega)]
  exact (c.decides_iff _).1 h k hk

/-- A claim that does not decide is hidden by the layer that does (R10). -/
theorem Circuit.deciding_of_not_decides {c : Circuit} {l : Layer} (h : c.decides l = false) :
    ∃ d, c.deciding = some d ∧ l.rank < d.rank := by
  unfold Circuit.decides at h
  cases hd : c.deciding with
  | none => simp [hd] at h
  | some d => exact ⟨d, rfl, by simpa [hd] using h⟩

/-- Where the deciding layer keeps its claim and those above it stay empty, the deciding layer and its value stay (R7). -/
theorem Circuit.deciding_of_sameBut {c d : Circuit} {l k : Layer} (h : c.SameBut d l) (hk : c.deciding = some k)
    (hbelow : k ≠ l ∧ (d.form? l = none ∨ l.rank < k.rank)) : d.deciding = some k ∧ d.decidingValue = c.decidingValue := by
  obtain ⟨hkl, hl⟩ := hbelow
  obtain ⟨hsome, habove⟩ := (c.deciding_eq_some_iff k).1 hk
  have hd : d.deciding = some k := by
    refine (d.deciding_eq_some_iff k).2 ⟨by rwa [h.form hkl], fun j hj => ?_⟩
    by_cases hjl : j = l
    · subst hjl
      rcases hl with hn | hlt
      · exact hn
      · omega
    · rw [h.form hjl]; exact habove j hj
  refine ⟨hd, ?_⟩
  simp only [Circuit.decidingValue, hd, hk, h.form hkl]

/-- What the raw level is where a layer decides (R7). -/
theorem Circuit.rawOf_of_deciding {c : Circuit} {l : Layer} (h : c.deciding = some l) :
    c.rawOf = match c.handover with | none => c.decidingValue | some x => x.value c.decidingValue := by
  unfold Circuit.rawOf
  rw [h]
  cases c.handover <;> rfl

/-- Without a handover the raw level is the deciding value (R7). -/
theorem Circuit.rawOf_of_no_handover {c : Circuit} (h : c.handover = none) : c.rawOf = c.decidingValue := by
  unfold Circuit.rawOf
  rw [h]
  cases hd : c.deciding <;> simp [Circuit.decidingValue, hd]

/-- Where the deciding layer, its value and the handover stay, so does the raw level (R7). -/
theorem Circuit.rawOf_of_same {c d : Circuit} (hd : d.deciding = c.deciding) (hv : d.decidingValue = c.decidingValue)
    (hh : d.handover = c.handover) : d.rawOf = c.rawOf := by
  simp only [Circuit.rawOf, hd, hv, hh]

@[simp] theorem fadeValue_zero (a b d : Nat) : fadeValue a b d 0 = a := by simp [fadeValue]

/-- A claim made with a fade starts at its start level, or stands at its target at once (R5, R22). -/
theorem Form.ofFade_value (start target fade : Nat) : (Form.ofFade start target fade).value = if fade = 0 then target else start := by
  unfold Form.ofFade
  split
  · rfl
  · exact fadeValue_zero _ _ _

theorem Circuit.claim_sameBut (w : Stake) (v fade : Nat) (c : Circuit) : c.SameBut (c.claim w v fade) w.layer := c.place_sameBut w _

/-- The raw level after a claim (R10): at once the clamped level where it decides with fade 0, else as it was. -/
theorem Circuit.claim_raw {c : Circuit} (hs : c.Settled) (w : Stake) (v fade : Nat) :
    (c.claim w v fade).raw = if c.decides w.layer ∧ fade = 0 then c.cfg.clamp v else c.raw := by
  obtain ⟨hraw, -⟩ := c.claim_settled w v fade
  rw [hraw]
  cases hd : c.decides w.layer with
  | true =>
    have hh : (c.claim w v fade).handover = none := by rw [Circuit.claim, Circuit.place_handover, if_pos hd]
    rw [Circuit.rawOf_of_no_handover hh, Circuit.decidingValue, Circuit.claim, Circuit.place_deciding hd]
    simp [Form.ofFade_value, Circuit.startLevel, hd]
  | false =>
    obtain ⟨k, hk, hlt⟩ := Circuit.deciding_of_not_decides hd
    obtain ⟨hdec, hval⟩ := Circuit.deciding_of_sameBut (c.claim_sameBut w v fade) hk ⟨by rintro rfl; omega, .inr hlt⟩
    have hh : (c.claim w v fade).handover = c.handover := by rw [Circuit.claim, Circuit.place_handover, hd]; rfl
    rw [Circuit.rawOf_of_same (hdec.trans hk.symm) hval hh, ← hs.1]
    simp

/-- The claim's form on its layer (R5, R10). -/
theorem Circuit.claim_form (w : Stake) (v fade : Nat) (c : Circuit) : (c.claim w v fade).form? w.layer
    = some (if fade = 0 then .steady (c.cfg.clamp v) else .fading (c.startLevel w.layer) (c.cfg.clamp v) (10 * fade) 0) :=
  c.place_form w _

theorem Circuit.claim_handover (w : Stake) (v fade : Nat) (c : Circuit) :
    (c.claim w v fade).handover = if c.decides w.layer then none else c.handover := c.place_handover w _

/-! ## Requests on the circuits -/

/-- A request carried out with OK, where its owner says so on the accepted state and leaves the port to it (R149). -/
theorem completes_done {i : Instr} {s u : State} {owner : State → Carried} {p : List Byte} (h : s.Serves i)
    (he : exec i s = .next (s.complete i owner)) (ho : owner (s.accept i) = u.done p) (hp : u.port = (s.accept i).port) :
    s.Completes (u.answer (requestEcho i) .ok p) i .ok p := by
  refine ⟨?_, ?_⟩
  · rw [he, complete_of_serves h, ho]; rfl
  · rw [Port.Holds, answer_port, hp]; rfl

/-- A request that its owner refuses on the accepted state changes nothing but the port (0.9). -/
theorem refuses_of_owner {i : Instr} {s : State} {owner : State → Carried} {r : ResultCode} (h : s.Serves i)
    (he : exec i s = .next (s.complete i owner)) (ho : owner (s.accept i) = (s.accept i).refuse r) : s.Refuses i r := by
  refine ⟨(s.accept i).answer (requestEcho i) r [], ⟨?_, ?_⟩, rfl⟩
  · rw [he, complete_of_serves h, ho]; rfl
  · rw [Port.Holds, answer_port]; rfl

/-- A change to circuit `n` leaves every other. -/
theorem updateAt_agreeOff (n : Nat) (f : Circuit → Circuit) (l : List Circuit) : AgreeOff n l (updateAt n f l) :=
  ⟨updateAt_length n f l, fun k hk => by rw [circuitAt_updateAt, if_neg hk]⟩

/-- The circuit changed. -/
theorem circuitAt_updateAt_self {n : Nat} {l : List Circuit} {x : Circuit} (h : circuitAt l n = some x) (f : Circuit → Circuit) :
    circuitAt (updateAt n f l) n = some (f x) := by rw [circuitAt_updateAt, if_pos rfl, h]; rfl

/-- A circuit that has a record has a number from 1 on. -/
theorem pos_of_circuitAt {n : Nat} {l : List Circuit} {x : Circuit} (h : circuitAt l n = some x) : 1 ≤ n := by
  rcases Nat.eq_zero_or_pos n with rfl | hn
  · cases h
  · exact hn

@[simp] theorem within_iff (lo hi n : Nat) : within lo hi n = true ↔ lo ≤ n ∧ n ≤ hi := by simp [within]

/-- The layers a port request may name (R17, R18). -/
theorem portStake_of {code : Nat} {l : Layer} (h : code = 1 ∧ l = .local' ∨ code = 2 ∧ l = .show') :
    ∃ w, portStake code = some w ∧ w.layer = l ∧ (l = .local' → w = .local' none) ∧ (l = .show' → w = .show' .port) := by
  rcases h with ⟨rfl, rfl⟩ | ⟨rfl, rfl⟩
  · exact ⟨_, rfl, rfl, fun _ => rfl, nofun⟩
  · exact ⟨_, rfl, rfl, nofun, fun _ => rfl⟩

/-- Base, Safe and codes of no layer are none a port request may name (R17, R18). -/
theorem portStake_none {code : Nat} (h : code ≠ 1 ∧ code ≠ 2) : portStake code = none := by
  obtain ⟨h1, h2⟩ := h
  unfold portStake
  split
  · exact absurd rfl h1
  · exact absurd rfl h2
  · rfl

/-- CLAIM LEVEL with every item in range (R17). -/
theorem claimLevel_ok {n code v fade : Nat} {w : Stake} (hw : portStake code = some w) (hn : 1 ≤ n ∧ n ≤ 384) (hv : v ≤ 1000)
    (hf : fade ≤ 6000) (s : State) : s.claimLevel n code v fade = (s.onCircuit n (Circuit.claim w v fade)).done [] := by
  have hc : (within 1 Config.circuits n && within 0 1000 v && within 0 6000 fade) = true := by simp [within_iff, hn, hv, hf]
  simp only [State.claimLevel, hw, if_pos hc]

/-- CLAIM LEVEL with an item out of range (R17). -/
theorem claimLevel_refused {n code v fade : Nat} (h : n < 1 ∨ 384 < n ∨ (code ≠ 1 ∧ code ≠ 2) ∨ 1000 < v ∨ 6000 < fade) (s : State) :
    s.claimLevel n code v fade = s.refuse .range := by
  unfold State.claimLevel
  cases hw : portStake code with
  | none => rfl
  | some w =>
    have hcode : ¬(code ≠ 1 ∧ code ≠ 2) := fun hc => by rw [portStake_none hc] at hw; cases hw
    have hc : ¬(within 1 Config.circuits n && within 0 1000 v && within 0 6000 fade) = true := by
      simp only [Bool.and_eq_true, within_iff, Config.circuits]; omega
    simp only [if_neg hc]

/-- Settles O26: a claim is the arrival of R10 on its circuit, whose raw level follows by whether the layer decides. -/
theorem claimLevelMakesTheClaim : Obligations.ClaimLevelMakesTheClaim := by
  refine ⟨?_, fun n code v fade s hs h => refuses_of_owner hs rfl (claimLevel_refused h _)⟩
  intro n code v fade l s x hs hcode hv hf hn hx
  obtain ⟨w, hw, rfl, hlocal, hshow⟩ := portStake_of hcode
  have hok := claimLevel_ok hw ⟨pos_of_circuitAt hx, hn⟩ hv hf (s.accept (.claimLevel n code v fade))
  refine ⟨_, x.claim w v fade, completes_done hs rfl hok rfl, rfl, updateAt_agreeOff n _ _, circuitAt_updateAt_self hx _,
    x.claim_sameBut w v fade, x.claim_form w v fade, fun h => ?_, fun h => ?_, x.claim_handover w v fade, x.claim_settled w v fade,
    fun hset => Circuit.claim_raw hset w v fade⟩
  · simp [hlocal h, Circuit.claim]
  · simp [hshow h, Circuit.claim]

end Sys2Proof.Machine

namespace Sys2Proof.Machine

/-! ## Output levels -/

/-- A level within floor and cap (R8, R9). -/
theorem CircuitConfig.limit_within {cfg : CircuitConfig} (h : cfg.floor ≤ cfg.cap) (v : Nat) :
    cfg.floor ≤ cfg.limit v ∧ cfg.limit v ≤ cfg.cap := by
  unfold CircuitConfig.limit
  omega

/-- The output level of a circuit in range lies within its limits (R9). -/
theorem Circuit.Settled.outputInLimits {c : Circuit} (hs : c.Settled) (h : c.cfg.Legal) : c.OutputInLimits := by
  obtain ⟨-, hle, -⟩ := h
  unfold Circuit.OutputInLimits
  rw [hs.2]
  unfold CircuitConfig.outputOf
  cases c.cfg.kind with
  | dimmed =>
    by_cases hraw : c.raw = 0
    · exact .inl (by simp [hraw])
    · exact .inr (by simpa [hraw] using CircuitConfig.limit_within hle c.raw)
  | switched =>
    by_cases ht : c.cfg.threshold ≤ c.raw
    · exact .inr (by simp [ht])
    · exact .inl (by simp [ht])

/-- Settles O5: the law of the table gives R9's level, and the limits of the configuration its bounds. -/
theorem outputsAreWithinLimits : Obligations.OutputsAreWithinLimits := by
  rintro s ⟨⟨-, hlegal⟩, hset, -⟩ c hc
  refine ⟨(hset c hc).outputInLimits (hlegal _ (List.mem_map_of_mem hc)), ?_⟩
  rw [(hset c hc).2]
  cases hk : c.cfg.kind <;> simp only [CircuitConfig.outputOf, hk, CircuitConfig.limit]

/-! ## Releases -/

/-- From the end of start-up a layer always decides (R4, R7). -/
theorem Circuit.exists_deciding {c : Circuit} (hb : c.base.isSome = true) : ∃ k, c.deciding = some k := by
  rw [← Option.ne_none_iff_exists', Ne, Circuit.deciding_eq_none_iff]
  intro hn
  simpa [Circuit.form?, Option.isSome_iff_ne_none.1 hb] using hn .base

/-- A release of a hidden layer goes unseen (R11). -/
theorem Circuit.release_hidden {c : Circuit} (hs : c.Settled) (hb : c.base.isSome = true) {l : Layer} (hl : l ≠ .base)
    (hd : c.deciding ≠ some l) (fade : Nat) :
    (c.release l fade).raw = c.raw ∧ (c.release l fade).handover = c.handover := by
  obtain ⟨k, hk⟩ := Circuit.exists_deciding hb
  have hh : (c.release l fade).handover = c.handover := by
    rcases c.release_cases l fade with ⟨-, he⟩ | ⟨-, he⟩ <;> rw [he]
    simp [hd]
  obtain ⟨hdec, hval⟩ := Circuit.deciding_of_sameBut (c.release_sameBut l fade) hk
    ⟨fun h => hd (by rw [hk, h]), .inl (Circuit.release_form hl fade c)⟩
  exact ⟨by rw [(Circuit.release_settled hs l fade).1, Circuit.rawOf_of_same (hdec.trans hk.symm) hval hh, hs.1], hh⟩

/-- A release of the deciding layer begins a handover from the raw level, or none with fade 0 (R11). -/
theorem Circuit.release_deciding_handover {c : Circuit} {l : Layer} (hl : l ≠ .base) (hd : c.deciding = some l) (fade : Nat) :
    (c.release l fade).handover = if fade = 0 then none else some ⟨c.raw, 10 * fade, 0⟩ := by
  rcases c.release_cases l fade with ⟨h | h, -⟩ | ⟨-, he⟩
  · exact absurd h hl
  · exact absurd h ((c.deciding_eq_some_iff l).1 hd).1
  · rw [he]; simp [hd]

/-- A handover stands at its start before its first tick (R7, R20). -/
theorem Circuit.raw_of_new_handover {c : Circuit} (hs : c.Settled) (hb : c.base.isSome = true) {v d : Nat}
    (hh : c.handover = some ⟨v, d, 0⟩) : c.raw = v := by
  obtain ⟨k, hk⟩ := Circuit.exists_deciding hb
  rw [hs.1, Circuit.rawOf_of_deciding hk, hh]
  exact fadeValue_zero _ _ _

/-- RELEASE LAYER with every item in range (R18). -/
theorem releaseLayer_ok {n code fade : Nat} {w : Stake} (hw : portStake code = some w) (hn : 1 ≤ n ∧ n ≤ 384) (hf : fade ≤ 6000) (s : State) :
    s.releaseLayer n code fade = (s.onCircuit n (Circuit.release w.layer fade)).done [] := by
  have hc : (within 1 Config.circuits n && within 0 6000 fade) = true := by simp [within_iff, hn, hf]
  simp only [State.releaseLayer, hw, if_pos hc]

/-- RELEASE LAYER with an item out of range (R18). -/
theorem releaseLayer_refused {n code fade : Nat} (h : n < 1 ∨ 384 < n ∨ (code ≠ 1 ∧ code ≠ 2) ∨ 6000 < fade) (s : State) :
    s.releaseLayer n code fade = s.refuse .range := by
  unfold State.releaseLayer
  cases hw : portStake code with
  | none => rfl
  | some w =>
    have hcode : ¬(code ≠ 1 ∧ code ≠ 2) := fun hc => by rw [portStake_none hc] at hw; cases hw
    have hc : ¬(within 1 Config.circuits n && within 0 6000 fade) = true := by
      simp only [Bool.and_eq_true, within_iff, Config.circuits]; omega
    simp only [if_neg hc]

/-- Settles O27: a release is the arrival of R11 on its circuit, by whether its layer is empty, hidden or deciding. -/
theorem releaseLayerReleasesTheLayer : Obligations.ReleaseLayerReleasesTheLayer := by
  refine ⟨?_, fun n code fade s hs h => refuses_of_owner hs rfl (releaseLayer_refused h _)⟩
  intro n code fade l s x hs hcode hf hn hx hset hbase
  obtain ⟨w, hw, rfl, -, -⟩ := portStake_of hcode
  have hl : w.layer ≠ .base := by rcases hcode with ⟨-, h⟩ | ⟨-, h⟩ <;> rw [h] <;> decide
  have hok := releaseLayer_ok hw ⟨pos_of_circuitAt hx, hn⟩ hf (s.accept (.releaseLayer n code fade))
  have hset' := Circuit.release_settled hset w.layer fade
  refine ⟨_, x.release w.layer fade, completes_done hs rfl hok rfl, rfl, updateAt_agreeOff n _ _, circuitAt_updateAt_self hx _,
    x.release_sameBut w.layer fade, Circuit.release_form hl fade x, hset', fun h => ?_, fun _ hd => ?_, fun hd h0 => ?_, fun hd h0 => ?_⟩
  · exact if_pos (.inr (by rw [h]; rfl))
  · exact Circuit.release_hidden hset hbase hl hd fade
  · have hh : (x.release w.layer fade).handover = none := by rw [Circuit.release_deciding_handover hl hd, if_pos h0]
    exact ⟨hh, by rw [hset'.1, Circuit.rawOf_of_no_handover hh]⟩
  · have hh : (x.release w.layer fade).handover = some ⟨x.raw, 10 * fade, 0⟩ := by
      rw [Circuit.release_deciding_handover hl hd, if_neg (by omega)]
    exact ⟨hh, Circuit.raw_of_new_handover hset' (by rw [Circuit.release_base hl]; exact hbase) hh⟩

/-! ## The level engine -/

/-- A fade tick on a form, case by case (R16, R22, R26, R33). -/
theorem Form.tick_eq (cfg : CircuitConfig) (f : Form) : f.tick cfg = match f with
    | .steady v => .steady v
    | .fading a b d k => if d ≤ k + 1 then .steady b else .fading a b d (k + 1)
    | .moving a dir r k _ => .moving a dir r (min (k + 1) 65535) (moveValue cfg a dir r (min (k + 1) 65535)) := by
  cases f with
  | steady v => rfl
  | moving => rfl
  | fading a b d k =>
    simp only [Form.tick, Form.complete]
    by_cases h : d ≤ k + 1
    · simp [h]
    · rw [Nat.min_eq_left (by omega)]

/-- A fade tick on a handover (R16, R32). -/
theorem Handover.tick_eq (h : Handover) : h.tick = if h.duration ≤ h.count + 1 then none else some { h with count := h.count + 1 } := by
  unfold Handover.tick
  dsimp only
  by_cases hd : h.duration ≤ h.count + 1
  · simp [hd]
  · rw [Nat.min_eq_left (by omega)]

/-- Settles O29: a tick is the same change of every circuit, and ticks each form and the handover. -/
theorem fadeTickAdvancesEveryClaim : Obligations.FadeTickAdvancesEveryClaim := by
  intro s hr
  refine ⟨s.mapCircuits Circuit.tick, ?_, rfl, by simp [State.mapCircuits], fun n x hx => ?_⟩
  · show Host.Outcome.next _ = _
    rw [whenRunning_running hr]
  · refine ⟨x.tick, ?_, rfl, Circuit.recompute_settled _, ?_, fun l => ?_, ?_⟩
    · rw [State.mapCircuits, withCircuits_circuits, circuitAt_map, hx]; rfl
    · simp [Circuit.tick, Function.comp_def, Claim.tick]
    · exact (x.tick_form l).trans (congrArg (fun g => (x.form? l).map g) (funext (Form.tick_eq x.cfg)))
    · show x.handover.bind Handover.tick = _
      cases x.handover with
      | none => rfl
      | some h => exact h.tick_eq

/-- A fade's completion changes its layer alone (R22). -/
theorem Circuit.finish_sameBut (l : Layer) (c : Circuit) : c.SameBut (c.finish l) l := by
  cases l <;> simp [Circuit.SameBut, Circuit.finish]

theorem Circuit.finish_settled (l : Layer) (c : Circuit) : (c.finish l).Settled := by cases l <;> exact Circuit.recompute_settled _

theorem Circuit.finish_handover (l : Layer) (c : Circuit) : (c.finish l).handover = c.handover := by cases l <;> rfl

/-- Settles O30: each is a change of its circuit alone. -/
theorem fadesAndHandoversComplete : Obligations.FadesAndHandoversComplete := by
  intro n l s x hr hx
  refine ⟨fun a b d k hf => ?_, fun hh => ?_⟩
  · refine ⟨s.onCircuit n (Circuit.finish l), x.finish l, ?_, rfl, updateAt_agreeOff n _ _, circuitAt_updateAt_self hx _,
      x.finish_sameBut l, ?_, x.finish_handover l, x.finish_settled l⟩
    · show Host.Outcome.next _ = _
      rw [whenRunning_running hr]
    · rw [Circuit.finish_form, if_pos rfl, hf]; rfl
  · obtain ⟨hn, -⟩ | ⟨-, he⟩ := x.endHandover_cases
    · rw [hn] at hh; cases hh
    · have hform (k : Layer) : x.endHandover.form? k = x.form? k := by rw [he, Circuit.recompute_form]; cases k <;> rfl
      have hnone : x.endHandover.handover = none := by rw [he]; rfl
      have hset : x.endHandover.Settled := by rw [he]; exact Circuit.recompute_settled _
      refine ⟨s.onCircuit n Circuit.endHandover, x.endHandover, ?_, rfl, updateAt_agreeOff n _ _, circuitAt_updateAt_self hx _, hform,
        x.endHandover_cfg, hnone, ?_, hset⟩
      · show Host.Outcome.next _ = _
        rw [whenRunning_running hr]
      · rw [hset.1, Circuit.rawOf_of_no_handover hnone, Circuit.decidingValue_congr hform]

/-! ## Raise and lower -/

/-- The step of R25, a tenth of a level a tick for each unit of rate. -/
theorem moveStep_succ {r : Nat} (hr : 1 ≤ r) (k : Nat) :
    1000 * (k + 1) / (10 * r) = 1000 * k / (10 * r) + 100 / r ∨ 1000 * (k + 1) / (10 * r) = 1000 * k / (10 * r) + 100 / r + 1 := by
  have hten (m : Nat) : 1000 * m / (10 * r) = 100 * m / r := by
    rw [show 1000 * m = 10 * (100 * m) by ring, Nat.mul_div_mul_left _ _ (by decide)]
  rw [hten, hten, Nat.mul_succ, Nat.add_div (by omega)]
  split
  · exact .inr rfl
  · exact .inl rfl

/-- From 10 R ticks on the step is the whole range (R25). -/
theorem moveStep_saturated {r k : Nat} (hr : 1 ≤ r) (h : 10 * r ≤ k) : 1000 ≤ moveStep r k := by
  unfold moveStep
  rw [Nat.le_div_iff_mul_le (by omega)]
  omega

/-- The value of a raise stands within the limits (R25). -/
theorem moveValue_within {cfg : CircuitConfig} (h : cfg.floor ≤ cfg.cap) (start : Nat) (dir : Direction) (r k : Nat) :
    cfg.floor ≤ moveValue cfg start dir r k ∧ moveValue cfg start dir r k ≤ cfg.cap := by
  cases dir <;> exact CircuitConfig.limit_within h _

/-- From 10 R ticks on a movement stands at its limit (R25, R26). -/
theorem moveValue_saturated {cfg : CircuitConfig} (h : cfg.floor ≤ cfg.cap) (hcap : cfg.cap ≤ 1000) {start : Nat} (hs : start ≤ 1000)
    {r k : Nat} (hr : 1 ≤ r) (hk : 10 * r ≤ k) (dir : Direction) :
    moveValue cfg start dir r k = match dir with | .up => cfg.cap | .down => cfg.floor := by
  have := moveStep_saturated hr hk
  cases dir <;> simp only [moveValue, CircuitConfig.limit] <;> omega

/-- Settles O32: a raise or lower is the arrival of a Local claim in the form of R24, and its value is R25's within the limits. -/
theorem raiseAndLowerStartWithinTheLimitsAndSaturate : Obligations.RaiseAndLowerStartWithinTheLimitsAndSaturate := by
  intro o dir r k x hle hcap hr
  refine ⟨?_, by rw [Circuit.move_eq]; exact x.place_sameBut _ _, fun start => ?_, moveStep_succ hr k, fun start hs => ?_⟩
  · rw [Circuit.move_eq, Circuit.place_local]
    cases hk : x.cfg.kind <;> cases dir <;> simp [Circuit.moveForm, hk, Form.ofMove, CircuitConfig.limit]
  · simp only [moveValue, CircuitConfig.limit, moveStep]
    generalize 1000 * k / (10 * r) = d
    omega
  · obtain ⟨hlow, hhigh⟩ := moveValue_within hle start dir r k
    exact ⟨hlow, hhigh, fun hk => moveValue_saturated hle hcap hs hr hk dir⟩

end Sys2Proof.Machine

namespace Sys2Proof.Machine

/-! ## SET CIRCUIT CONFIG -/

/-- A write that keeps the kind keeps the claims below Safe (R13). -/
theorem Circuit.write_same_kind {cfg : CircuitConfig} {c : Circuit} (hk : cfg.kind = c.cfg.kind) (m : Mode) (asserted : SafeSet) (fade : Nat) :
    (c.write cfg m asserted fade).base = c.base ∧ (c.write cfg m asserted fade).local' = c.local'
      ∧ (c.write cfg m asserted fade).show' = c.show' := by
  obtain ⟨-, he⟩ | ⟨hne, -⟩ := c.write_cases cfg m asserted fade
  · obtain ⟨-, hb, hl, hs, -⟩ := ({ c with cfg := cfg } : Circuit).recompute.agreeSafe_sameBut asserted fade
    rw [he]
    exact ⟨hb (by decide), hl (by decide), hs (by decide)⟩
  · exact absurd hk hne

/-- And where it leaves the Safe layer it leaves the handover and the raw level (R13). -/
theorem Circuit.write_same_safe {cfg : CircuitConfig} {c : Circuit} (hk : cfg.kind = c.cfg.kind) {m : Mode} {asserted : SafeSet} {fade : Nat}
    (hs : (c.write cfg m asserted fade).safe = c.safe) :
    (c.write cfg m asserted fade).handover = c.handover ∧ (c.Settled → (c.write cfg m asserted fade).raw = c.raw) := by
  have hagrees := c.write_agrees cfg m asserted fade
  obtain ⟨-, he⟩ | ⟨hne, -⟩ := c.write_cases cfg m asserted fade
  · rw [he] at hs hagrees ⊢
    obtain ⟨-, hz⟩ | ⟨hnot, -⟩ := ({ c with cfg := cfg } : Circuit).recompute.agreeSafe_cases asserted fade
    · rw [hz]
      exact ⟨rfl, fun hset => (Circuit.rawOf_congr (fun l => by cases l <;> rfl) rfl).trans hset.1.symm⟩
    · refine absurd (hagrees.congr (by simp) ?_) hnot
      rw [Circuit.safeStand, Circuit.safeStand, hs, Circuit.recompute_safe]
  · exact absurd hk hne

/-- A Safe claim leaves no handover where there was none. -/
theorem Circuit.safeClaim_no_handover {c : Circuit} (h : c.handover = none) (i : SafeSet) (v fade : Nat) :
    (c.safeClaim i v fade).handover = none := by
  rw [Circuit.safeClaim, Circuit.place_handover, h, ite_self]

/-- A change of kind drops Local and Show, makes Base anew at once and ends a handover; a Safe claim is made at once (R14). -/
theorem Circuit.write_other_kind {cfg : CircuitConfig} {c : Circuit} (hk : cfg.kind ≠ c.cfg.kind) (m : Mode) (asserted : SafeSet) (fade : Nat) :
    (c.write cfg m asserted fade).local' = none ∧ (c.write cfg m asserted fade).show' = none
      ∧ (c.write cfg m asserted fade).handover = none
      ∧ (c.write cfg m asserted fade).base = some ⟨.steady (cfg.clamp (cfg.base.at m)), m⟩
      ∧ ∀ cl, (c.write cfg m asserted fade).safe = some cl → cl.form = .steady (cfg.wantedLevel asserted) := by
  obtain ⟨hkk, -⟩ | ⟨-, he⟩ := c.write_cases cfg m asserted fade
  · exact absurd hkk hk
  obtain ⟨hlocal, hshow, hsafe⟩ := c.cleared_claim_above cfg m (cfg.base.at m)
  have hbase := c.cleared_claim_base cfg m (cfg.base.at m)
  have hcfg : ((c.cleared cfg).claim (.base m) (cfg.base.at m) 0).cfg = cfg := by simp
  have hdecides : (c.cleared cfg).decides .base = true := by
    rw [Circuit.decides_iff, Layer.forall_iff]
    simp [Circuit.form?, Layer.rank]
  have hhand : ((c.cleared cfg).claim (.base m) (cfg.base.at m) 0).handover = none := by
    rw [Circuit.claim_handover, show (Stake.base m).layer = .base from rfl, hdecides, if_pos rfl]
  rw [he]
  generalize (c.cleared cfg).claim (.base m) (cfg.base.at m) 0 = z at *
  obtain ⟨-, hb, hl, hs, -⟩ := z.makeSafe_sameBut asserted
  refine ⟨(hl (by decide)).trans hlocal, (hs (by decide)).trans hshow, ?_, (hb (by decide)).trans hbase, fun cl hcl => ?_⟩
  all_goals obtain ⟨-, hm⟩ | ⟨-, hm⟩ := z.makeSafe_cases asserted
  · rw [hm, hhand]
  · rw [hm, Circuit.safeClaim_no_handover hhand]
  · rw [hm, hsafe] at hcl; cases hcl
  · rw [hm, Circuit.safeClaim_safe] at hcl
    cases hcl
    rw [hcfg]; rfl

/-- SET CIRCUIT CONFIG where its span, its fields and the resulting records are in range (R2). -/
theorem setCircuitConfig_ok {first last : Nat} {f : CircuitFields} {s : State} (h1 : 1 ≤ first) (h2 : first ≤ last) (h3 : last ≤ 384)
    (hf : circuitFieldsInRange f = true) (ha : s.spanAgrees first last f = true) :
    s.setCircuitConfig first last f = (s.forCircuits (spanOf first last) (s.writeCircuit f)).done [] := by
  have hspan : (within 1 Config.circuits first && within 1 Config.circuits last && decide (first ≤ last)) = true := by
    simp only [Bool.and_eq_true, within_iff, decide_eq_true_eq, Config.circuits]; omega
  simp [State.setCircuitConfig, hspan, hf, ha]

/-- SET CIRCUIT CONFIG where one of them is not (R2). -/
theorem setCircuitConfig_refused {first last : Nat} {f : CircuitFields} {s : State}
    (h : first < 1 ∨ 384 < first ∨ last < 1 ∨ 384 < last ∨ last < first ∨ circuitFieldsInRange f = false ∨ s.spanAgrees first last f = false) :
    s.setCircuitConfig first last f = s.refuse .range := by
  by_cases hspan : (within 1 Config.circuits first && within 1 Config.circuits last && decide (first ≤ last)) = true
  · have hin := hspan
    simp only [Bool.and_eq_true, within_iff, decide_eq_true_eq, Config.circuits] at hin
    have h : circuitFieldsInRange f = false ∨ s.spanAgrees first last f = false := by grind
    rcases h with h | h <;> simp [State.setCircuitConfig, h]
  · simp [State.setCircuitConfig, hspan]

/-- Settles O28: each circuit of the span is written once, by R13 or R14 as its kind stays or changes. -/
theorem setCircuitConfigWritesItsSpan : Obligations.SetCircuitConfigWritesItsSpan := by
  refine ⟨fun first last f s hserves hready h1 h2 h3 hf hlimits => ?_, fun first last f s hserves hready h => ?_, circuitFieldsInRange_iff⟩
  · have hown := (storedWrite_ready (s := s.accept (.setCircuitConfig first last f)) hready (State.setCircuitConfig first last f)).trans
      (setCircuitConfig_ok h1 h2 h3 hf ((spanAgrees_iff _ _ _ _).2 hlimits))
    refine ⟨_, completes_done hserves rfl hown rfl, rfl, by simp [State.forCircuits], fun n hn => ?_, fun n x hn1 hn2 hx => ?_⟩
    · rw [answer_circuits, circuitAt_forCircuits (spanOf_nodup first last), if_neg (by rwa [mem_spanOf])]; rfl
    · refine ⟨_, ?_, Circuit.write_cfg _ _ _ _ _, x.write_agrees (x.cfg.withFields f) s.mode s.asserted s.options.safeReleaseFade,
        Circuit.write_settled _ _ _ _ _, fun hk => ?_, fun hk => ?_⟩
      · rw [answer_circuits, circuitAt_forCircuits (spanOf_nodup first last), if_pos (mem_spanOf.2 ⟨hn1, hn2⟩), accept_circuits, hx]; rfl
      · rw [Circuit.write_cfg] at hk
        obtain ⟨hb, hl, hs⟩ := Circuit.write_same_kind hk s.mode s.asserted s.options.safeReleaseFade
        exact ⟨hb, hl, hs, Circuit.write_same_safe hk⟩
      · rw [Circuit.write_cfg] at hk ⊢
        exact Circuit.write_other_kind hk s.mode s.asserted s.options.safeReleaseFade
  · refine refuses_of_owner hserves rfl ((storedWrite_ready (s := s.accept (.setCircuitConfig first last f)) hready _).trans
      (setCircuitConfig_refused ?_))
    refine h.imp_right (.imp_right (.imp_right (.imp_right (.imp_right (.imp_right ?_)))))
    rintro ⟨n, x, h1, h2, hx, hlimits⟩
    rw [Bool.eq_false_iff, Ne, spanAgrees_iff]
    intro hall
    have := hall n x h1 h2 hx
    omega

end Sys2Proof.Machine

namespace Sys2Proof.Machine

/-! ## Reads of the part -/

/-- A read whose owner answers a payload on the accepted state reports it (R149). -/
theorem reports_of_owner {i : Instr} {s : State} {owner : State → Carried} {p : List Byte} (he : exec i s = .next (s.complete i owner))
    (ho : owner (s.accept i) = (s.accept i).done p) : s.Reports i p := fun h => ⟨_, completes_done h he ho rfl, rfl⟩

/-- The records that exist, one after the other. -/
theorem flatMap_filterMap {α β γ : Type} (g : α → Option β) (f : β → List γ) (l : List α) :
    (l.filterMap g).flatMap f = l.flatMap fun x => ((g x).map f).getD [] := by
  induction l with
  | nil => rfl
  | cons x l ih => cases h : g x <;> simp [h, ih]

/-- The records of a window, number by number (R3, R19). -/
theorem circuitRecords_flatMap (s : State) (first count : Nat) (f : Circuit → List Byte) :
    (s.circuitRecords first count).flatMap f
      = (List.range count).flatMap fun k => ((circuitAt s.circuits (first + k)).map f).getD [] := by
  rw [State.circuitRecords, flatMap_filterMap, List.range'_eq_map_range, List.flatMap_map]

/-- The window of R3 and R19. -/
theorem circuitWindow_iff (first count : Nat) :
    circuitWindow first count = true ↔ (1 ≤ first ∧ first ≤ 384) ∧ (1 ≤ count ∧ count ≤ 16) ∧ first + count - 1 ≤ 384 := by
  simp [circuitWindow, and_assoc]

/-! ### The 47-byte record of a circuit (R166) -/

/-- The block of a layer in a circuit's record (R166). -/
def Circuit.layerBytes (c : Circuit) : Layer → List Byte
  | .base => layerBlock (fun m => be1 (modeCode m) ++ zeros 4) c.base
  | .local' => layerBlock localOwnerBytes c.local'
  | .show' => layerBlock (fun m => be1 (makerCode m) ++ zeros 4) c.show'
  | .safe => layerBlock (fun i : SafeSet => be1 (i.safe1.toNat + 2 * i.safe2.toNat) ++ zeros 4) c.safe

/-- The record by its parts. -/
theorem circuitBytes_eq (c : Circuit) : circuitBytes c = be2 c.output ++ be2 c.raw ++ be1 (decidingCode c)
    ++ c.layerBytes .base ++ c.layerBytes .local' ++ c.layerBytes .show' ++ c.layerBytes .safe ++ be2 (remainingTicks c.handover) := rfl

@[simp] theorem be1_length (n : Nat) : (be1 n).length = 1 := rfl

@[simp] theorem be2_length (n : Nat) : (be2 n).length = 2 := rfl

@[simp] theorem formBytes_length (f : Form) : (formBytes f).length = 5 := by
  rcases f with _ | _ | ⟨_, _ | _, _, _, _⟩ <;> rfl

@[simp] theorem localOwnerBytes_length (o : LocalOwner) : (localOwnerBytes o).length = 5 := by
  rcases o with _ | ⟨_, _ | _⟩ <;> rfl

/-- A layer block has ten bytes, where its owner has five (R166). -/
theorem layerBlock_length {o : Type} {owner : o → List Byte} (h : ∀ x, (owner x).length = 5) (cl : Option (Claim o)) :
    (layerBlock owner cl).length = 10 := by
  cases cl with
  | none => rfl
  | some cl => simp [layerBlock, h]

@[simp] theorem Circuit.layerBytes_length (c : Circuit) (l : Layer) : (c.layerBytes l).length = 10 := by
  cases l with
  | base => exact layerBlock_length (owner := fun m => be1 (modeCode m) ++ zeros 4) (fun _ => rfl) _
  | local' => exact layerBlock_length localOwnerBytes_length _
  | show' => exact layerBlock_length (owner := fun m => be1 (makerCode m) ++ zeros 4) (fun _ => rfl) _
  | safe => exact layerBlock_length (owner := fun i : SafeSet => be1 (i.safe1.toNat + 2 * i.safe2.toNat) ++ zeros 4) (fun _ => rfl) _

/-- Where a layer's block stands in the record (R166). -/
theorem circuitBytes_block (c : Circuit) (l : Layer) : ((circuitBytes c).drop (5 + 10 * layerCode l)).take 10 = c.layerBytes l := by
  rw [circuitBytes_eq]
  cases l <;> simp [layerCode, be1, be2, List.drop_append, List.drop_of_length_le]

/-- An empty layer is ten bytes of 0 (R166). -/
theorem Circuit.layerBytes_none {c : Circuit} {l : Layer} (h : c.form? l = none) : c.layerBytes l = List.replicate 10 0 := by
  cases l <;> simp_all [Circuit.form?, Circuit.layerBytes, layerBlock, zeros]

/-- A claim's block begins with its form (R166). -/
theorem Circuit.layerBytes_form {c : Circuit} {l : Layer} {f : Form} (h : c.form? l = some f) :
    (c.layerBytes l).take 5 = formBytes f := by
  cases l <;> obtain ⟨cl, hcl, rfl⟩ := Option.map_eq_some_iff.1 h <;>
    simp [Circuit.layerBytes, layerBlock, hcl]

/-- A claim's block ends with its owner (R166). -/
theorem layerBlock_owner {o : Type} (owner : o → List Byte) (cl : Claim o) : (layerBlock owner (some cl)).drop 5 = owner cl.owner := by
  simp [layerBlock]

/-- Settles O24: each read answers from the state that its owner sees, and the record's blocks stand where R166 puts them. -/
theorem readsOfThePartReportAndChangeNothing : Obligations.ReadsOfThePartReportAndChangeNothing := by
  intro s
  refine ⟨reports_of_owner rfl rfl, reports_of_owner rfl rfl, fun first count h1 h2 h3 h4 h5 => ?_, fun n => ⟨rfl, rfl⟩, fun c => ?_,
    fun c => ⟨?_, ?_, fun l hl => ?_, ?_, ?_⟩, reports_of_owner rfl rfl, reports_of_owner rfl rfl, reports_of_owner rfl rfl⟩
  · have hw := (circuitWindow_iff first count).2 ⟨⟨h1, h2⟩, ⟨h3, h4⟩, h5⟩
    constructor
    · refine reports_of_owner rfl ?_
      rw [State.readCircuitConfig, if_pos hw, circuitRecords_flatMap]; rfl
    · refine reports_of_owner rfl ?_
      rw [State.readCircuitState, if_pos hw, circuitRecords_flatMap]; rfl
  · cases hk : c.kind <;> simp [configBytes, circuitKindCode, yesNoCode, opt2, hk]
  · simp [circuitBytes_eq]
  · simp [circuitBytes_eq, be2]
  · simp [circuitBytes_eq, be1, be2, decidingCode, hl]
  · rw [circuitBytes_eq]
    cases hh : c.handover <;> simp [be1, be2, List.drop_append, List.drop_of_length_le, remainingTicks]
  · rintro l block rfl
    rw [circuitBytes_block]
    refine ⟨Circuit.layerBytes_none, fun v => Circuit.layerBytes_form, fun a b d k => Circuit.layerBytes_form, fun a dir r k v h => ?_,
      fun cl hl h => ?_, fun cl hl h => ?_, fun cl hl h => ?_, fun cl hl h => ?_⟩
    · rw [Circuit.layerBytes_form h]
      cases dir <;> rfl
    all_goals
      subst hl
      rw [Circuit.layerBytes, h, layerBlock_owner]
    · rfl
    · rcases cl.owner with _ | ⟨n, ⟨_ | _, a, b⟩ | i⟩ <;> rfl
    · cases cl.owner <;> rfl
    · rcases cl.owner with ⟨_ | _, _ | _⟩ <;> rfl

end Sys2Proof.Machine

namespace Sys2Proof.Machine

/-! ## Bindings and their targets -/

/-- The members of a group stand in it once each (R71, R72). -/
theorem LegalGroups.members_nodup {s : State} (h : LegalGroups s.groups) (g : Nat) : (s.members g).Nodup := by
  unfold State.members
  cases hg : groupAt s.groups g with
  | none => exact List.nodup_nil
  | some l =>
    have hl : some l ∈ s.groups := by
      unfold groupAt at hg
      split at hg
      · cases hg
      · exact List.mem_of_getElem? (Option.join_eq_some_iff.1 hg)
    exact (h.2.1 l hl).1.imp Nat.ne_of_lt

/-- A target names each of its circuits once (R55, R71). -/
theorem targetCircuits_nodup {s : State} (h : LegalGroups s.groups) (t : Target) : (s.targetCircuits t).Nodup := by
  cases t with
  | circuit n => exact List.nodup_singleton n
  | group g => exact h.members_nodup g
  | scene n => exact List.nodup_nil
  | mode m => exact List.nodup_nil

/-- What a target names depends on the groups alone. -/
theorem targetCircuits_congr {s u : State} (h : u.groups = s.groups) (t : Target) : u.targetCircuits t = s.targetCircuits t := by
  cases t <;> simp only [State.targetCircuits, State.members, h]

/-- What a binding does to each circuit of its target, from the state at its turn (R57 to R61, R64). A recall or a mode change reaches no circuit
of a target. -/
def State.act (k : SourceKey) (u : State) (nb : Nat × Binding) : Circuit → Circuit :=
  match nb.2.action with
  | .on => Circuit.claim (.local' (some (nb.1, k))) (nb.2.level.getD 1000) (u.fadeOr nb.2)
  | .off => Circuit.claim (.local' (some (nb.1, k))) 0 (u.fadeOr nb.2)
  | .toggle => Circuit.claim (.local' (some (nb.1, k)))
      (if (u.targetCircuits nb.2.target).any u.circuitOn then 0 else nb.2.level.getD 1000) (u.fadeOr nb.2)
  | .raise => Circuit.move (some (nb.1, k)) .up (nb.2.rate.getD u.options.defaultRate)
  | .lower => Circuit.move (some (nb.1, k)) .down (nb.2.rate.getD u.options.defaultRate)
  | .release => Circuit.release .local' (u.fadeOr nb.2)
  | .recall => id
  | .mode => id

/-- A binding that neither recalls a scene nor changes the mode changes the circuits of its target (R57 to R61). -/
theorem carryOut_forCircuits (k : SourceKey) (u : State) (nb : Nat × Binding) (hr : nb.2.action ≠ .recall) (hm : nb.2.action ≠ .mode) :
    u.carryOut k nb = u.forCircuits (u.targetCircuits nb.2.target) (u.act k nb) := by
  unfold State.carryOut State.act
  simp only
  cases ha : nb.2.action with
  | on => rfl
  | off => rfl
  | toggle => dsimp only; split <;> rfl
  | raise => rfl
  | lower => rfl
  | release => rfl
  | mode => exact absurd ha hm
  | _ => exact absurd ha hr -- the one action left, a recall

/-- A binding on a circuit or a group that recalls or changes the mode does nothing (R38). -/
theorem carryOut_mismatched (k : SourceKey) (u : State) (nb : Nat × Binding) (ht : (∃ c, nb.2.target = .circuit c) ∨ ∃ g, nb.2.target = .group g)
    (ha : nb.2.action = .recall ∨ nb.2.action = .mode) : u.carryOut k nb = u := by
  unfold State.carryOut
  rcases ht with ⟨c, ht⟩ | ⟨g, ht⟩ <;> rcases ha with ha | ha <;> simp only [ha, ht]

/-- A circuit after a binding on circuits: changed where the target names it, and left otherwise (R55). -/
theorem circuitAt_carryOut {k : SourceKey} {u : State} {nb : Nat × Binding} (hg : LegalGroups u.groups)
    (ht : (∃ c, nb.2.target = .circuit c) ∨ ∃ g, nb.2.target = .group g) (c : Nat) :
    circuitAt (u.carryOut k nb).circuits c
      = if c ∈ u.targetCircuits nb.2.target then (circuitAt u.circuits c).map (u.act k nb) else circuitAt u.circuits c := by
  by_cases ha : nb.2.action = .recall ∨ nb.2.action = .mode
  · have hact : u.act k nb = id := by
      unfold State.act
      rcases ha with ha | ha <;> rw [ha]
    rw [carryOut_mismatched k u nb ht ha, hact, Option.map_id, id, ite_self]
  · obtain ⟨hr, hm⟩ := not_or.1 ha
    rw [carryOut_forCircuits k u nb hr hm, circuitAt_forCircuits (targetCircuits_nodup hg _)]

/-- A circuit that a binding's target does not name is left, unless it recalls a scene or changes the mode (R55). -/
theorem circuitAt_carryOut_off {k : SourceKey} {u : State} {nb : Nat × Binding} {c : Nat} (hc : c ∉ u.targetCircuits nb.2.target)
    (hr : nb.2.action ≠ .recall) (hm : nb.2.action ≠ .mode) : circuitAt (u.carryOut k nb).circuits c = circuitAt u.circuits c := by
  rw [carryOut_forCircuits k u nb hr hm]
  exact circuitAt_foldl_off id (fun _ => u.act k nb) _ _ c fun e he hec => hc (hec ▸ he)

/-- A binding's act changes the Local layer alone (R10, R57 to R61). -/
theorem act_sameBut (k : SourceKey) (u : State) (nb : Nat × Binding) (x : Circuit) : x.SameBut (u.act k nb x) .local' := by
  unfold State.act
  cases nb.2.action with
  | on => exact x.claim_sameBut (.local' _) _ _
  | off => exact x.claim_sameBut (.local' _) _ _
  | toggle => exact x.claim_sameBut (.local' _) _ _
  | raise => simp only; rw [Circuit.move_eq]; exact x.place_sameBut (.local' _) _
  | lower => simp only; rw [Circuit.move_eq]; exact x.place_sameBut (.local' _) _
  | release => exact x.release_sameBut .local' _
  | mode => exact .refl x _
  | _ => exact .refl x _ -- the one action left, a recall

/-- A Local claim's form and owner (R5, R6). -/
theorem Circuit.claim_local (o : LocalOwner) (v fade : Nat) (c : Circuit) :
    (c.claim (.local' o) v fade).local' = some ⟨Form.ofFade (c.startLevel .local') (c.cfg.clamp v) fade, o⟩ := c.place_local o _

/-- A binding that claims or moves leaves its claim under its slot and source (R6, R57 to R61). -/
theorem act_owner (k : SourceKey) (u : State) (nb : Nat × Binding) (x : Circuit)
    (h : nb.2.action = .on ∨ nb.2.action = .off ∨ nb.2.action = .toggle ∨ nb.2.action = .raise ∨ nb.2.action = .lower) :
    (u.act k nb x).local'.map (·.owner) = some (some (nb.1, k)) := by
  unfold State.act
  rcases h with h | h | h | h | h <;> rw [h] <;> simp [Circuit.claim_local, Circuit.move_eq]

/-- A binding that releases leaves no Local claim (R64). -/
theorem act_release (k : SourceKey) (u : State) (nb : Nat × Binding) (x : Circuit) (h : nb.2.action = .release) :
    (u.act k nb x).local' = none := by
  unfold State.act
  rw [h]
  exact x.release_local _

/-- An event with one matching binding (R54). -/
theorem resolve_single {k : SourceKey} {e : EventKind} {nb : Nat × Binding} {s : State} (h : s.matching k e = [nb]) :
    s.resolve k e = (s.endBySource k e).carryOut k nb := by rw [State.resolve, h]; rfl

/-- A circuit keeps its record through whatever keeps the laws. -/
theorem KeepsCircuits.circuitAt_isSome {s t : State} (h : KeepsCircuits s t) {c : Nat} (hc : (circuitAt s.circuits c).isSome = true) :
    (circuitAt t.circuits c).isSome = true := by
  have hlen := h.circuits.length_eq
  unfold circuitAt at hc ⊢
  split at hc
  · cases hc
  · next hn =>
    rw [if_neg hn]
    simpa [← hlen] using hc

/-- Bindings that do not reach a circuit leave it (R55). -/
theorem circuitAt_foldl_carryOut {k : SourceKey} {c : Nat} (after : List (Nat × Binding)) (u : State)
    (h : ∀ p ∈ after, c ∉ u.targetCircuits p.2.target ∧ p.2.action ≠ .recall ∧ p.2.action ≠ .mode) :
    circuitAt (after.foldl (State.carryOut k) u).circuits c = circuitAt u.circuits c := by
  induction after generalizing u with
  | nil => rfl
  | cons p after ih =>
    obtain ⟨hc, hr, hm⟩ := h p (by simp)
    rw [List.foldl_cons, ih _ fun q hq => ?_, circuitAt_carryOut_off hc hr hm]
    rw [targetCircuits_congr (carryOut_frame k u p).groups]
    exact h q (by simp [hq])

/-- A mode change does not look at the port, and raises its flag there (R89). -/
theorem changeMode_withPort (m : Mode) (fade : Nat) (p : Port) (s : State) :
    (s.withPort p).changeMode m fade = (s.changeMode m fade).withPort (if s.mode = m then p else p.raise .modeChanged) := by
  unfold State.changeMode
  by_cases h : s.mode = m
  · simp [h]
  · rw [if_neg h, if_neg h, if_neg (show (s.withPort p).mode ≠ m from h)]; rfl

/-- The flags after a mode change (R89). -/
theorem changeMode_flags (m : Mode) (fade : Nat) (s : State) :
    (s.changeMode m fade).port.flags = (if s.mode = m then s.port else s.port.raise .modeChanged).flags := by
  unfold State.changeMode
  by_cases h : s.mode = m
  · simp [h]
  · rw [if_neg h, if_neg h]; rfl

@[simp] theorem modeOf_modeCode (m : Mode) : modeOf (modeCode m) = some m := by cases m <;> rfl

/-- SET MODE with a mode and a fade in range (R87). -/
theorem setMode_ok (m : Mode) {fade : Nat} (h : fade ≤ 6000) (s : State) :
    s.setMode (modeCode m) (some fade) = (s.changeMode m fade).done (be1 (modeCode m) ++ be1 (yesNoCode (decide (s.mode ≠ m)))) := by
  have hf : optWithin 0 6000 (some fade) = true := by simp [h]
  simp only [State.setMode, modeOf_modeCode, if_pos hf, Option.getD_some]

/-- SET MODE makes the mode change and is answered (R87). -/
theorem exec_setMode {m : Mode} {fade : Nat} {s : State} (hs : s.Serves (.setMode (modeCode m) (some fade))) (hf : fade ≤ 6000) :
    ∃ p, exec (.setMode (modeCode m) (some fade)) s = .next (((s.accept (.setMode (modeCode m) (some fade))).changeMode m fade).answer
      (requestEcho (.setMode (modeCode m) (some fade))) .ok p) := by
  refine ⟨be1 (modeCode m) ++ be1 (yesNoCode (decide (s.mode ≠ m))), ?_⟩
  show Host.Outcome.next _ = _
  rw [complete_of_serves hs, setMode_ok m hf]
  rfl

/-- One matching binding on a circuit or a group: what it does to a circuit, by whether its target names it. -/
theorem resolve_single_circuitAt {k : SourceKey} {e : EventKind} {nb : Nat × Binding} {s : State} (h : s.matching k e = [nb])
    (hg : LegalGroups s.groups) (ht : (∃ c, nb.2.target = .circuit c) ∨ ∃ g, nb.2.target = .group g) {c : Nat} {x : Circuit}
    (hx : circuitAt (s.endBySource k e).circuits c = some x) : circuitAt (s.resolve k e).circuits c
      = some (if c ∈ s.targetCircuits nb.2.target then (s.endBySource k e).act k nb x else x) := by
  have hgroups := (endBySource_frame k e s).groups
  rw [resolve_single h, circuitAt_carryOut (by rw [hgroups]; exact hg) ht, targetCircuits_congr hgroups, hx]
  split <;> rfl

/-- Where several bindings match, the last one that reaches a circuit has acted on it last (R54, R67). -/
theorem resolve_last_circuitAt {k : SourceKey} {e : EventKind} {before after : List (Nat × Binding)} {nb : Nat × Binding} {c : Nat} {s : State}
    (h : s.matching k e = before ++ nb :: after) (hg : LegalGroups s.groups) (hc : (circuitAt s.circuits c).isSome = true)
    (hmem : c ∈ s.targetCircuits nb.2.target)
    (hafter : ∀ p ∈ after, c ∉ s.targetCircuits p.2.target ∧ p.2.action ≠ .recall ∧ p.2.action ≠ .mode) :
    ∃ u x, circuitAt (s.resolve k e).circuits c = some (State.act k u nb x) := by
  have hframe := (endBySource_frame k e s).trans (EventFrame.foldl _ (carryOut_frame k) before _)
  have hkeeps := (endBySource_keeps k e s).trans (KeepsCircuits.foldl (carryOut_keeps k) before _)
  have hresolve : s.resolve k e = after.foldl (State.carryOut k) ((before.foldl (State.carryOut k) (s.endBySource k e)).carryOut k nb) := by
    rw [State.resolve, h, List.foldl_append, List.foldl_cons]
  generalize before.foldl (State.carryOut k) (s.endBySource k e) = u at *
  obtain ⟨x, hx⟩ := Option.isSome_iff_exists.1 (hkeeps.circuitAt_isSome hc)
  have htargets := targetCircuits_congr (hframe.trans (carryOut_frame k u nb)).groups
  have ht : (∃ c, nb.2.target = .circuit c) ∨ ∃ g, nb.2.target = .group g := by
    cases hb : nb.2.target with
    | circuit n => exact .inl ⟨n, rfl⟩
    | group g => exact .inr ⟨g, rfl⟩
    | scene n => rw [hb] at hmem; cases hmem
    | mode m => rw [hb] at hmem; cases hmem
  refine ⟨u, x, ?_⟩
  rw [hresolve, circuitAt_foldl_carryOut after _ (fun p hp => by rw [htargets]; exact hafter p hp),
    circuitAt_carryOut (by rw [hframe.groups]; exact hg) ht, targetCircuits_congr hframe.groups, if_pos hmem, hx]
  rfl

/-- Settles O39: by what one binding does to a circuit, and what those after it leave. -/
theorem aBindingActsOnEveryCircuitOfItsTarget : Obligations.ABindingActsOnEveryCircuitOfItsTarget := by
  refine ⟨fun k e n b s h hsound ht c x hx => ?_, fun k e n b m s h ha ht => ?_, fun m fade s hserves hf => ?_,
    fun k e before after n c b s h hsound hc hmem hafter => ?_⟩
  · have hcirc := resolve_single_circuitAt h hsound.1 ht hx
    have hframe := endBySource_frame k e s
    have hfade : (s.endBySource k e).fadeOr b = b.fade.getD s.options.defaultFade := by rw [State.fadeOr, hframe.options]
    have htargets := targetCircuits_congr hframe.groups b.target
    refine ⟨fun hout => by rw [hcirc, if_neg hout], fun hin => ⟨(s.endBySource k e).act k (n, b) x, by rw [hcirc, if_pos hin], ?_⟩⟩
    obtain ⟨hcfg, hbase, -, hshow, hsafe⟩ := act_sameBut k (s.endBySource k e) (n, b) x
    refine ⟨hcfg, hbase (by decide), hshow (by decide), hsafe (by decide), fun ha => ?_, fun ha => ?_, fun ha => ?_, fun ha => ?_,
      fun ha => ?_, fun ha => ?_, fun ha => ?_⟩
    · simp only [State.act, ha, Circuit.claim_local, hfade]
    · simp only [State.act, ha, Circuit.claim_local, hfade]
    · simp only [State.act, ha, Circuit.claim_local, hfade, htargets]
    · simp only [State.act, ha, hframe.options]
    · simp only [State.act, ha, hframe.options]
    · simp only [State.act, ha, hfade]
    · rcases ha with ha | ha <;> simp only [State.act, ha, id]
  · rw [resolve_single h]
    simp only [State.carryOut, ha, ht, (endBySource_frame k e s).options]
  · obtain ⟨p, hexec⟩ := exec_setMode hserves hf
    have hport : (s.accept (.setMode (modeCode m) (some fade))).changeMode m fade = _ := changeMode_withPort m fade _ s
    refine ⟨_, hexec, by rw [hport]; rfl, ?_⟩
    rw [hport, changeMode_flags, answer_port]
    split <;> rfl
  · obtain ⟨u, x, hy⟩ := resolve_last_circuitAt h hsound.1 hc hmem hafter
    refine ⟨_, hy, act_owner k u (n, b) x, act_release k u (n, b) x⟩

end Sys2Proof.Machine

namespace Sys2Proof.Machine

/-! ## The fade formula -/

/-- The quotient of R20 grows from one count to the next by the whole part of `x / d` or by one more. -/
theorem mul_succ_div (x k : Nat) {d : Nat} (hd : 1 ≤ d) : x * (k + 1) / d = x * k / d + x / d ∨ x * (k + 1) / d = x * k / d + x / d + 1 := by
  rw [Nat.mul_succ, Nat.add_div hd]
  split
  · exact .inr rfl
  · exact .inl rfl

/-- Up to its duration a fade has gone at most the whole way. -/
theorem mul_div_le_of_le {k d : Nat} (x : Nat) (hk : k ≤ d) : x * k / d ≤ x :=
  Nat.div_le_of_le_mul (by rw [Nat.mul_comm d x]; exact Nat.mul_le_mul_left x hk)

/-- A fade upward (R20, R21). -/
theorem fadeValue_up {a b : Nat} (h : a ≤ b) (d k : Nat) : fadeValue a b d k = a + (b - a) * k / d := by
  unfold fadeValue
  rw [← Int.ofNat_sub h, ← Int.natCast_mul, ← Int.ofNat_tdiv, ← Int.natCast_add, Int.toNat_natCast]

/-- A fade downward: the negative quotient is truncated toward zero (R20, R21). -/
theorem fadeValue_down {a b : Nat} (h : b ≤ a) (d k : Nat) : fadeValue a b d k = a - (a - b) * k / d := by
  unfold fadeValue
  rw [← Int.neg_sub, ← Int.ofNat_sub h, Int.neg_mul, ← Int.natCast_mul, Int.neg_tdiv, ← Int.ofNat_tdiv, ← Int.sub_eq_add_neg, Int.toNat_sub]

/-- At its duration a fade is at its target (R20). -/
theorem fadeValue_at_duration (a b : Nat) {d : Nat} (hd : 1 ≤ d) : fadeValue a b d d = b := by
  rcases Nat.le_total a b with h | h
  · rw [fadeValue_up h, Nat.mul_div_cancel _ hd]; omega
  · rw [fadeValue_down h, Nat.mul_div_cancel _ hd]; omega

/-- A fade does not overshoot: up to its duration it stands between its start and its target. -/
theorem fadeValue_between (a b : Nat) {d k : Nat} (hk : k ≤ d) : min a b ≤ fadeValue a b d k ∧ fadeValue a b d k ≤ max a b := by
  rcases Nat.le_total a b with h | h
  · have hgone := mul_div_le_of_le (b - a) hk
    rw [fadeValue_up h]
    generalize (b - a) * k / d = gone at *
    omega
  · have hgone := mul_div_le_of_le (a - b) hk
    rw [fadeValue_down h]
    generalize (a - b) * k / d = gone at *
    omega

/-- A fade upward never goes back, and each tick is the whole part of the quotient or one more. -/
theorem fadeValue_up_succ {a b d : Nat} (h : a ≤ b) (hd : 1 ≤ d) (k : Nat) : fadeValue a b d k ≤ fadeValue a b d (k + 1)
    ∧ (b - a) / d ≤ fadeValue a b d (k + 1) - fadeValue a b d k ∧ fadeValue a b d (k + 1) - fadeValue a b d k ≤ (b - a) / d + 1 := by
  have hstep := mul_succ_div (b - a) k hd
  rw [fadeValue_up h, fadeValue_up h]
  generalize (b - a) / d = whole at *
  omega

/-- A fade downward never goes back, and each tick up to its duration is the whole part of the quotient or one more. -/
theorem fadeValue_down_succ {a b d k : Nat} (h : b ≤ a) (hd : 1 ≤ d) (hk : k < d) : fadeValue a b d (k + 1) ≤ fadeValue a b d k
    ∧ (a - b) / d ≤ fadeValue a b d k - fadeValue a b d (k + 1) ∧ fadeValue a b d k - fadeValue a b d (k + 1) ≤ (a - b) / d + 1 := by
  have hstep := mul_succ_div (a - b) k hd
  have hgone := mul_div_le_of_le (a - b) (Nat.succ_le_of_lt hk)
  rw [fadeValue_down h, fadeValue_down h]
  generalize (a - b) / d = whole, (a - b) * k / d = gone, (a - b) * (k + 1) / d = onward at *
  omega

/-- The product of R20 fits the range that R21 gives it. -/
theorem fade_product_le {a b k : Nat} (ha : a ≤ 1000) (hb : b ≤ 1000) (hk : k ≤ 60000) : (((b : Int) - a) * k).natAbs ≤ 60000000 := by
  rw [Int.natAbs_mul]
  exact Nat.mul_le_mul (by omega : ((b : Int) - a).natAbs ≤ 1000) (by omega : ((k : Int)).natAbs ≤ 60000)

/-! ## The duration of a fade -/

@[simp] theorem Form.tick_steady (cfg : CircuitConfig) (v : Nat) : (Form.steady v).tick cfg = .steady v := rfl

theorem Form.tick_fading (cfg : CircuitConfig) (a b d k : Nat) :
    (Form.fading a b d k).tick cfg = if d ≤ k + 1 then .steady b else .fading a b d (k + 1) := Form.tick_eq cfg _

/-- After `k` ticks a fade of duration `d` has count `k`, or is complete where `k` has reached `d` (R16, R22). -/
theorem Form.iterate_tick_fading (cfg : CircuitConfig) (a b : Nat) {d : Nat} (hd : 1 ≤ d) (k : Nat) :
    (Form.tick cfg)^[k] (.fading a b d 0) = if d ≤ k then .steady b else .fading a b d k := by
  induction k with
  | zero => exact (if_neg (by omega)).symm
  | succ k ih =>
    rw [Function.iterate_succ_apply', ih]
    by_cases hk : d ≤ k
    · rw [if_pos hk, if_pos (by omega), Form.tick_steady]
    · rw [if_neg hk, Form.tick_fading]

/-- A claim made with a fade of `fade` tenths is complete from its `10 * fade`-th tick on, and Fading before it (R5, R22). -/
theorem Form.iterate_tick_ofFade (cfg : CircuitConfig) (start target fade k : Nat) :
    (Form.tick cfg)^[k] (.ofFade start target fade) = if 10 * fade ≤ k then .steady target else .fading start target (10 * fade) k := by
  unfold Form.ofFade
  by_cases h : fade = 0
  · rw [if_pos h, if_pos (by omega)]
    exact Function.iterate_fixed (Form.tick_steady cfg target) k
  · rw [if_neg h, Form.iterate_tick_fading cfg start target (by omega)]

/-- Settles O31: each direction of the formula by its quotient of naturals, and the duration by the closed form of the ticks. -/
theorem aFadeRunsMonotonelyForItsDuration : Obligations.AFadeRunsMonotonelyForItsDuration := by
  refine ⟨fun a b d k ha hb hd hd' hk => ?_, fun cfg start target fade k => ?_⟩
  · obtain ⟨hlow, hhigh⟩ := fadeValue_between a b hk
    exact ⟨fade_product_le ha hb (hk.trans hd'), fun h => fadeValue_up h d k, fun h => fadeValue_down h d k, fadeValue_zero a b d,
      fadeValue_at_duration a b hd, hlow, hhigh, fun hlt => ⟨fun h => fadeValue_up_succ h hd k, fun h => fadeValue_down_succ h hd hlt⟩⟩
  · rw [Form.iterate_tick_ofFade]
    exact ⟨fun h => if_pos h, fun h => if_neg (by omega), fun h => if_pos h⟩

end Sys2Proof.Machine

namespace Sys2Proof.Machine

/-! ## Ending movement -/

@[simp] theorem Form.stop_value (f : Form) : f.stop.value = f.value := by cases f <;> rfl

theorem Form.stop_of_still {f : Form} (h : f.isMoving = false) : f.stop = f := by
  cases f with
  | steady => rfl
  | fading => rfl
  | moving => cases h

/-- A circuit whose Local claim, where it holds one, is changed by `f`, and nothing else. -/
def Circuit.mapLocal (f : Claim LocalOwner → Claim LocalOwner) (c : Circuit) : Circuit := { c with local' := c.local'.map f }

/-- A Local claim with its movement ended where the selection picks its owner (R28, R66). -/
def Claim.stopIf (pick : LocalOwner → Bool) (cl : Claim LocalOwner) : Claim LocalOwner :=
  if pick cl.owner then ⟨cl.form.stop, cl.owner⟩ else cl

/-- A Local claim with its movement ended and its owner absent where it is slot `n`'s (R42). -/
def Claim.clearIf (n : Nat) (cl : Claim LocalOwner) : Claim LocalOwner :=
  if LocalOwner.hasSlot n cl.owner then ⟨cl.form.stop, none⟩ else cl

@[simp] theorem Claim.stopIf_value (pick : LocalOwner → Bool) (cl : Claim LocalOwner) : (cl.stopIf pick).form.value = cl.form.value := by
  unfold Claim.stopIf
  split
  · exact Form.stop_value _
  · rfl

/-- A claim that the selection does not pick, or that does not move, is left. -/
theorem Claim.stopIf_of_still {pick : LocalOwner → Bool} {cl : Claim LocalOwner} (h : pick cl.owner = true → cl.form.isMoving = false) :
    cl.stopIf pick = cl := by
  unfold Claim.stopIf
  split
  · next hp => rw [Form.stop_of_still (h hp)]
  · rfl

/-- The raw level sees the value of the Local claim alone (R7). -/
theorem Circuit.mapLocal_rawOf {f : Claim LocalOwner → Claim LocalOwner} (hf : ∀ cl, (f cl).form.value = cl.form.value) (c : Circuit) :
    (c.mapLocal f).rawOf = c.rawOf := by
  have hsome : (c.mapLocal f).local'.isSome = c.local'.isSome := Option.isSome_map
  have hdec : (c.mapLocal f).deciding = c.deciding := by
    unfold Circuit.deciding
    rw [hsome]
    rfl
  have hvalue (l : Layer) : ((c.mapLocal f).form? l).map Form.value = (c.form? l).map Form.value := by
    cases l with
    | local' => simp [Circuit.mapLocal, Circuit.form?, Function.comp_def, hf]
    | base | show' | safe => rfl
  exact Circuit.rawOf_of_same hdec (by simp only [Circuit.decidingValue, hdec, hvalue]) rfl

/-- So where the levels follow from the claims, they still do (R7, R9). -/
theorem Circuit.mapLocal_recompute {f : Claim LocalOwner → Claim LocalOwner} (hf : ∀ cl, (f cl).form.value = cl.form.value) {c : Circuit}
    (hs : c.Settled) : (c.mapLocal f).recompute = c.mapLocal f := by
  obtain ⟨hraw, hout⟩ := hs
  unfold Circuit.recompute
  rw [Circuit.mapLocal_rawOf hf, ← hraw, show (c.mapLocal f).cfg.outputOf c.raw = c.output from hout.symm]
  rfl

/-- Where the levels follow from the claims, an end of movement is a change of the Local claim alone (R28). -/
theorem Circuit.endMovement_eq {c : Circuit} (hs : c.Settled) (pick : LocalOwner → Bool) :
    c.endMovement pick = c.mapLocal (Claim.stopIf pick) := by
  rcases c.endMovement_cases pick with ⟨he, hstill⟩ | ⟨cl, hl, hp, -, he⟩
  · have hleft : c.local'.map (Claim.stopIf pick) = c.local' := by
      cases hl : c.local' with
      | none => rfl
      | some cl => exact congrArg some (Claim.stopIf_of_still (hstill cl hl))
    rw [he, Circuit.mapLocal, hleft]
  · rw [he, ← Circuit.mapLocal_recompute (Claim.stopIf_value pick) hs]
    simp [Circuit.mapLocal, hl, Claim.stopIf, hp]

/-- And so is the clearing of a slot's claim (R42). -/
theorem Circuit.clearSlot_eq {c : Circuit} (hs : c.Settled) (n : Nat) : c.clearSlot n = c.mapLocal (Claim.clearIf n) := by
  unfold Circuit.clearSlot
  rw [Circuit.endMovement_eq hs]
  cases hl : c.local' with
  | none => simp [Circuit.mapLocal, hl]
  | some cl => by_cases ho : LocalOwner.hasSlot n cl.owner <;> simp [Circuit.mapLocal, hl, Claim.stopIf, Claim.clearIf, ho]

theorem Circuit.mapLocal_sameBut (f : Claim LocalOwner → Claim LocalOwner) (c : Circuit) : c.SameBut (c.mapLocal f) .local' := by
  simp [Circuit.SameBut, Circuit.mapLocal]

/-- Settles O37: on a circuit whose levels follow from its claims, each is a change of the Local claim alone. -/
theorem endingMovementIsNotSeen : Obligations.EndingMovementIsNotSeen := by
  intro pick n x hs
  refine ⟨fun y hy => ?_, fun y hy => ?_⟩
  · rw [hy, Circuit.endMovement_eq hs]
    exact ⟨x.mapLocal_sameBut _, rfl, rfl, rfl, rfl⟩
  · rw [hy, Circuit.clearSlot_eq hs]
    exact ⟨x.mapLocal_sameBut _, rfl, rfl, rfl, rfl⟩

end Sys2Proof.Machine

namespace Sys2Proof.Machine

/-! ## The lists of the key index (R41) -/

@[simp] theorem indexList_nil (k : SourceKey) (e : EventKind) : indexList [] k e = [] := rfl

theorem indexList_cons (x : IndexEntry) (index : List IndexEntry) (k : SourceKey) (e : EventKind) :
    indexList (x :: index) k e = if x.key = k ∧ x.kind = e then x.slots else indexList index k e := by
  unfold indexList
  by_cases h : x.key = k ∧ x.kind = e
  · obtain ⟨rfl, rfl⟩ := h; simp
  · rw [if_neg h, List.find?_cons_of_neg (by simpa using h)]

/-- The place of a list of the index among its lists. -/
def IndexEntry.rank (x : IndexEntry) : Nat := pairRank x.key x.kind

/-- The lists of the index stand in the order of their pairs. -/
abbrev IndexSorted (index : List IndexEntry) : Prop := index.Pairwise fun x y => x.rank < y.rank

/-- A pair that stands before every list of the index has none. -/
theorem indexList_of_rank_lt {index : List IndexEntry} {k : SourceKey} {e : EventKind} (h : ∀ x ∈ index, pairRank k e < x.rank) :
    indexList index k e = [] := by
  induction index with
  | nil => rfl
  | cons x index ih =>
    have hne : ¬(x.key = k ∧ x.kind = e) := fun ⟨hk, he⟩ => by
      have := h x (by simp)
      simp [IndexEntry.rank, hk, he] at this
    rw [indexList_cons, if_neg hne]
    exact ih fun y hy => h y (by simp [hy])

/-- The first list of a sorted index is its pair's only one. -/
theorem indexList_tail {x : IndexEntry} {index : List IndexEntry} (h : IndexSorted (x :: index)) : indexList index x.key x.kind = [] :=
  indexList_of_rank_lt (List.pairwise_cons.1 h).1

/-- A list that stands in a sorted index is that of its pair. -/
theorem indexList_of_mem {index : List IndexEntry} (h : IndexSorted index) {x : IndexEntry} (hx : x ∈ index) :
    indexList index x.key x.kind = x.slots := by
  induction index with
  | nil => cases hx
  | cons y index ih =>
    obtain ⟨hlt, htail⟩ := List.pairwise_cons.1 h
    rw [indexList_cons]
    rcases List.mem_cons.1 hx with rfl | hx
    · rw [if_pos ⟨rfl, rfl⟩]
    · have hne : ¬(y.key = x.key ∧ y.kind = x.kind) := fun ⟨hk, he⟩ => by
        have := hlt x hx
        simp [IndexEntry.rank, hk, he] at this
      rw [if_neg hne, ih htail hx]

/-- What stands in a pair's list stands in a list of the index of that pair. -/
theorem exists_of_mem_indexList {index : List IndexEntry} {k : SourceKey} {e : EventKind} {n : Nat} (h : n ∈ indexList index k e) :
    ∃ x ∈ index, x.key = k ∧ n ∈ x.slots := by
  induction index with
  | nil => cases h
  | cons x index ih =>
    rw [indexList_cons] at h
    split at h
    · next hx => exact ⟨x, by simp, hx.1, h⟩
    · obtain ⟨y, hy, hk, hn⟩ := ih h
      exact ⟨y, by simp [hy], hk, hn⟩

/-- What an insertion does to the lists (R41). -/
theorem indexList_indexInsert {index : List IndexEntry} (h : IndexSorted index) (k k' : SourceKey) (e e' : EventKind) (n : Nat) :
    indexList (indexInsert k e n index) k' e'
      = if k = k' ∧ e = e' then insertAscending n (indexList index k e) else indexList index k' e' := by
  induction index with
  | nil => simp [indexInsert, indexList_cons, insertAscending]
  | cons x index ih =>
    obtain ⟨hlt, htail⟩ := List.pairwise_cons.1 h
    unfold indexInsert
    split
    · next hx =>
      obtain ⟨rfl, rfl⟩ := hx
      by_cases hk : x.key = k' ∧ x.kind = e' <;> simp [indexList_cons, hk]
    · next hx =>
      split
      · next hr =>
        have hnil : indexList (x :: index) k e = [] := indexList_of_rank_lt fun y hy => by
          rcases List.mem_cons.1 hy with rfl | hy
          · exact hr
          · exact hr.trans (hlt y hy)
        rw [indexList_cons, hnil]
        rfl
      · rw [indexList_cons, ih htail, indexList_cons (k := k) (e := e), if_neg hx, indexList_cons]
        by_cases hk : k = k' ∧ e = e'
        · obtain ⟨rfl, rfl⟩ := hk
          simp [hx]
        · simp [hk]

theorem indexRemove_cons (k : SourceKey) (e : EventKind) (n : Nat) (x : IndexEntry) (index : List IndexEntry) :
    indexRemove k e n (x :: index) =
      if x.key = k ∧ x.kind = e then
        (if x.slots.filter (· ≠ n) = [] then indexRemove k e n index
          else { x with slots := x.slots.filter (· ≠ n) } :: indexRemove k e n index)
      else x :: indexRemove k e n index := by
  unfold indexRemove
  rw [List.filterMap_cons]
  by_cases hx : x.key = k ∧ x.kind = e
  · by_cases hs : x.slots.filter (· ≠ n) = [] <;> simp only [if_pos hx, hs, if_true, if_false]
  · simp only [if_neg hx]

/-- What a removal does to the lists (R41). -/
theorem indexList_indexRemove {index : List IndexEntry} (h : IndexSorted index) (k k' : SourceKey) (e e' : EventKind) (n : Nat) :
    indexList (indexRemove k e n index) k' e'
      = if k = k' ∧ e = e' then (indexList index k e).filter (· ≠ n) else indexList index k' e' := by
  induction index with
  | nil => simp [indexRemove]
  | cons x index ih =>
    have ih := ih (List.pairwise_cons.1 h).2
    rw [indexRemove_cons]
    by_cases hx : x.key = k ∧ x.kind = e
    · obtain ⟨rfl, rfl⟩ := hx
      have hhead : indexList (x :: index) x.key x.kind = x.slots := by rw [indexList_cons, if_pos ⟨rfl, rfl⟩]
      rw [if_pos ⟨rfl, rfl⟩, hhead]
      by_cases hk : x.key = k' ∧ x.kind = e'
      · rw [if_pos hk]
        split
        · next hs => rw [ih, if_pos hk, indexList_tail h, hs]; rfl
        · rw [indexList_cons, if_pos hk]
      · rw [if_neg hk, indexList_cons, if_neg hk]
        split
        · rw [ih, if_neg hk]
        · rw [indexList_cons, if_neg hk, ih, if_neg hk]
    · rw [if_neg hx, indexList_cons, ih, indexList_cons, indexList_cons, if_neg hx]
      by_cases hk : k = k' ∧ e = e'
      · obtain ⟨rfl, rfl⟩ := hk
        simp [hx]
      · simp [hk]

/-- An insertion puts the pair in its place among the others, where no other pair of the index shares it. -/
theorem ranks_indexInsert {k : SourceKey} {e : EventKind} {index : List IndexEntry}
    (hinj : ∀ x ∈ index, pairRank k e = x.rank → x.key = k ∧ x.kind = e) (n : Nat) :
    (indexInsert k e n index).map IndexEntry.rank = insertAscending (pairRank k e) (index.map IndexEntry.rank) := by
  induction index with
  | nil => rfl
  | cons x index ih =>
    have ih := ih fun y hy => hinj y (by simp [hy])
    unfold indexInsert
    split
    · next hx => simp [insertAscending, IndexEntry.rank, hx]
    · next hx =>
      split
      · next hr => simp [insertAscending, IndexEntry.rank, hr]
      · next hr =>
        have hne : pairRank k e ≠ x.rank := fun he => hx (hinj x (by simp) he)
        simp only [List.map_cons, insertAscending, if_neg hne, ih, if_neg (show ¬pairRank k e < x.rank from hr)]

theorem IndexSorted.insert {k : SourceKey} {e : EventKind} {index : List IndexEntry} (h : IndexSorted index)
    (hinj : ∀ x ∈ index, pairRank k e = x.rank → x.key = k ∧ x.kind = e) (n : Nat) : IndexSorted (indexInsert k e n index) := by
  rw [IndexSorted, ← List.pairwise_map] at h ⊢
  rw [ranks_indexInsert hinj]
  exact insertAscending_ascending _ _ h

/-- A list that a removal leaves is one of the index, less the slot removed, and not empty. -/
theorem of_mem_indexRemove {k : SourceKey} {e : EventKind} {n : Nat} {index : List IndexEntry} {y : IndexEntry}
    (h : y ∈ indexRemove k e n index) : ∃ x ∈ index, y.rank = x.rank ∧ (x.slots ≠ [] → y.slots ≠ []) := by
  obtain ⟨x, hx, hy⟩ := List.mem_filterMap.1 h
  refine ⟨x, hx, ?_⟩
  split at hy
  · split at hy
    · cases hy
    · next hs => cases hy; exact ⟨rfl, fun _ => hs⟩
  · cases hy; exact ⟨rfl, id⟩

theorem IndexSorted.remove {index : List IndexEntry} (h : IndexSorted index) (k : SourceKey) (e : EventKind) (n : Nat) :
    IndexSorted (indexRemove k e n index) := by
  induction index with
  | nil => exact .nil
  | cons x index ih =>
    obtain ⟨hlt, htail⟩ := List.pairwise_cons.1 h
    have hcons {y : IndexEntry} (hy : y.rank = x.rank) : IndexSorted (y :: indexRemove k e n index) :=
      List.pairwise_cons.2 ⟨fun z hz => by
        obtain ⟨w, hw, hr, -⟩ := of_mem_indexRemove hz
        rw [hy, hr]
        exact hlt w hw, ih htail⟩
    rw [indexRemove_cons]
    split
    · split
      · exact ih htail
      · exact hcons rfl
    · exact hcons rfl

/-- No list is empty after an insertion. -/
theorem indexInsert_filled {index : List IndexEntry} (h : ∀ x ∈ index, x.slots ≠ []) (k : SourceKey) (e : EventKind) (n : Nat) :
    ∀ x ∈ indexInsert k e n index, x.slots ≠ [] := by
  induction index with
  | nil => simp [indexInsert]
  | cons y index ih =>
    rw [List.forall_mem_cons] at h
    unfold indexInsert
    split
    · exact List.forall_mem_cons.2 ⟨insertAscending_ne_nil _ _, h.2⟩
    · split
      · exact List.forall_mem_cons.2 ⟨by simp, List.forall_mem_cons.2 h⟩
      · exact List.forall_mem_cons.2 ⟨h.1, ih h.2⟩

/-! ## The pairs of the index -/

theorem kindCode_lt (e : EventKind) : kindCode e < 8 := by cases e <;> decide

@[simp] theorem kindOf_kindCode (e : EventKind) : kindOf (kindCode e) = some e := by cases e <;> rfl

theorem kindCode_injective {e e' : EventKind} (h : kindCode e = kindCode e') : e = e' :=
  Option.some.inj (by rw [← kindOf_kindCode e, h, kindOf_kindCode])

/-- Pairs of keys in range have places of their own. -/
theorem pairRank_injective {k k' : SourceKey} {e e' : EventKind} (hk : k.Legal) (hk' : k'.Legal) (h : pairRank k e = pairRank k' e') :
    k' = k ∧ e' = e := by
  have he := kindCode_lt e
  have he' := kindCode_lt e'
  have hcode : kindCode e' = kindCode e := by
    rcases k with ⟨_ | _, a, b⟩ | n <;> rcases k' with ⟨_ | _, a', b'⟩ | n' <;> simp only [pairRank] at h <;> omega
  refine ⟨?_, kindCode_injective hcode⟩
  rcases k with ⟨_ | _, a, b⟩ | n <;> rcases k' with ⟨_ | _, a', b'⟩ | n' <;> simp only [pairRank, SourceKey.Legal] at h hk hk' <;> grind

/-! ## An index of records -/

/-- What R41 asks of the index, read off the records slot by slot. -/
structure IndexOf (index : List IndexEntry) (records : Nat → Option Binding) : Prop where
  ascending : ∀ k e, (indexList index k e).Pairwise (· < ·)
  mem : ∀ n k e, n ∈ indexList index k e ↔ ∃ b, records n = some b ∧ b.key = k ∧ b.kind = e
  filled : ∀ x ∈ index, x.slots ≠ []
  sorted : IndexSorted index

/-- The index of no records. -/
theorem IndexOf.empty : IndexOf [] fun _ => none := ⟨fun _ _ => .nil, by simp, by simp, .nil⟩

/-- Every pair of the index is that of some record. -/
theorem IndexOf.exists_record {index : List IndexEntry} {records : Nat → Option Binding} (h : IndexOf index records) {x : IndexEntry}
    (hx : x ∈ index) : ∃ n b, records n = some b ∧ b.key = x.key ∧ b.kind = x.kind := by
  obtain ⟨n, hn⟩ := List.exists_mem_of_ne_nil _ (h.filled x hx)
  rw [← indexList_of_mem h.sorted hx, h.mem] at hn
  exact ⟨n, hn⟩

/-- A slot that held no record gets one (R41). -/
theorem IndexOf.insert {index : List IndexEntry} {records : Nat → Option Binding} (h : IndexOf index records)
    (hlegal : ∀ n b, records n = some b → b.key.Legal) {n : Nat} (hn : records n = none) {b : Binding} (hb : b.key.Legal) :
    IndexOf (indexInsert b.key b.kind n index) (Function.update records n (some b)) := by
  refine ⟨fun k e => ?_, fun m k e => ?_, indexInsert_filled h.filled _ _ _, h.sorted.insert (fun x hx hr => ?_) n⟩
  · rw [indexList_indexInsert h.sorted]
    split
    · exact insertAscending_ascending _ _ (h.ascending _ _)
    · exact h.ascending _ _
  · have hout : n ∉ indexList index k e := fun hm => by
      obtain ⟨c, hc, -⟩ := (h.mem n k e).1 hm
      rw [hn] at hc; cases hc
    rw [indexList_indexInsert h.sorted]
    rcases eq_or_ne m n with rfl | hm
    · rw [Function.update_self]
      split
      · next hk => simpa [mem_insertAscending] using hk
      · next hk => simpa [hout] using hk
    · rw [Function.update_of_ne hm, ← h.mem]
      split
      · next hk => simp [mem_insertAscending, hm, hk]
      · rfl
  · obtain ⟨m, c, hc, hkey, hkind⟩ := h.exists_record hx
    rw [← hkey, ← hkind]
    exact pairRank_injective hb (hlegal m c hc) (by rw [hr, IndexEntry.rank, hkey, hkind])

/-- A slot loses its record (R41). -/
theorem IndexOf.remove {index : List IndexEntry} {records : Nat → Option Binding} (h : IndexOf index records) {n : Nat} {b : Binding}
    (hn : records n = some b) : IndexOf (indexRemove b.key b.kind n index) (Function.update records n none) := by
  refine ⟨fun k e => ?_, fun m k e => ?_, fun y hy => ?_, h.sorted.remove _ _ _⟩
  · rw [indexList_indexRemove h.sorted]
    split
    · exact (h.ascending _ _).filter _
    · exact h.ascending _ _
  · have hin : n ∈ indexList index k e ↔ b.key = k ∧ b.kind = e := by simp [h.mem, hn]
    rw [indexList_indexRemove h.sorted]
    rcases eq_or_ne m n with rfl | hm
    · rw [Function.update_self]
      split
      · simp
      · next hk => simpa [hin] using hk
    · rw [Function.update_of_ne hm, ← h.mem]
      split
      · next hk => simp [hm, hk]
      · rfl
  · obtain ⟨x, hx, -, hfilled⟩ := of_mem_indexRemove hy
    exact hfilled (h.filled x hx)

/-- A slot's record is replaced (R41). -/
theorem IndexOf.replace {index : List IndexEntry} {records : Nat → Option Binding} (h : IndexOf index records)
    (hlegal : ∀ n b, records n = some b → b.key.Legal) {n : Nat} {old new : Binding} (hn : records n = some old) (hnew : new.key.Legal) :
    IndexOf (replaceInIndex old new n index) (Function.update records n (some new)) := by
  unfold replaceInIndex
  split
  · next hsame =>
    obtain ⟨hkey, hkind⟩ := hsame
    refine ⟨h.ascending, fun m k e => ?_, h.filled, h.sorted⟩
    rcases eq_or_ne m n with rfl | hm
    · simp [h.mem, hn, hkey, hkind]
    · rw [Function.update_of_ne hm, h.mem]
  · rw [← Function.update_idem (a := n) (none : Option Binding) (some new) records]
    refine (h.remove hn).insert (fun m c hc => ?_) (Function.update_self ..) hnew
    rcases eq_or_ne m n with rfl | hm
    · rw [Function.update_self] at hc; cases hc
    · rw [Function.update_of_ne hm] at hc; exact hlegal m c hc

end Sys2Proof.Machine

namespace Sys2Proof.Machine

/-! ## The slot table (R35, R40) -/

/-- The records of a slot table, slot by slot. -/
def recordsOf (slots : List Slot) (n : Nat) : Option Binding := (slotAt slots n).record

/-- A slot that does not exist holds no record. -/
theorem slotAt_of_le {slots : List Slot} {n : Nat} (h : slots.length ≤ n) : slotAt slots n = .free := by
  simp [slotAt, List.getD_eq_getElem?_getD, List.getElem?_eq_none h]

theorem slotAt_of_lt {slots : List Slot} {n : Nat} (h : n < slots.length) : slotAt slots n = slots[n] := by
  simp [slotAt, h]

/-- A slot with a record is one of the table. -/
theorem lt_of_record {slots : List Slot} {n : Nat} {b : Binding} (h : (slotAt slots n).record = some b) : n < slots.length := by
  by_contra hn
  rw [slotAt_of_le (Nat.le_of_not_lt hn)] at h
  cases h

@[simp] theorem Slot.record_eq_none {x : Slot} : x.record = none ↔ x = .free := by cases x <;> simp [Slot.record]

theorem Slot.liveRecord_eq_some {x : Slot} {b : Binding} : x.liveRecord = some b ↔ x = .live b := by
  cases x <;> simp [Slot.liveRecord]

/-- A rewritten slot that held a record holds the new one (R44). -/
theorem Slot.rewrite_record {x : Slot} {old : Binding} (h : x.record = some old) (b : Binding) : (x.rewrite b).record = some b := by
  cases x with
  | free => cases h
  | live c => rfl
  | disabled c => rfl

/-- The records after a slot was written. -/
theorem recordsOf_set {slots : List Slot} {n : Nat} (h : n < slots.length) (x : Slot) :
    recordsOf (slots.set n x) = Function.update (recordsOf slots) n x.record := by
  funext m
  simp only [recordsOf, slotAt_set, h, and_true, Function.update_apply]
  split <;> rfl

/-- What the slots of a pair are, read from the table (R41). -/
theorem mem_slotsHolding {slots : List Slot} {k : SourceKey} {e : EventKind} {n : Nat} :
    n ∈ slotsHolding slots k e ↔ ∃ b, recordsOf slots n = some b ∧ b.key = k ∧ b.kind = e := by
  simp only [slotsHolding, List.mem_filter, List.mem_range, Option.any_eq_true_iff_get, recordsOf, Bool.and_eq_true, decide_eq_true_eq]
  constructor
  · rintro ⟨-, hs, hb⟩
    exact ⟨_, Option.eq_some_of_isSome hs, hb⟩
  · rintro ⟨b, hb, hk⟩
    exact ⟨lt_of_record hb, by simp [hb], by simpa [hb] using hk⟩

theorem slotsHolding_ascending (slots : List Slot) (k : SourceKey) (e : EventKind) : (slotsHolding slots k e).Pairwise (· < ·) :=
  List.pairwise_lt_range.filter _

theorem slotsHolding_nodup (slots : List Slot) (k : SourceKey) (e : EventKind) : (slotsHolding slots k e).Nodup :=
  (slotsHolding_ascending slots k e).imp Nat.ne_of_lt

/-- The index of a slot table, by its records. -/
theorem indexAgrees_iff {index : List IndexEntry} {slots : List Slot} : IndexAgrees index slots ↔ IndexOf index (recordsOf slots) := by
  constructor
  · rintro ⟨hlist, hfilled, hsorted⟩
    exact ⟨fun k e => by rw [hlist]; exact slotsHolding_ascending slots k e, fun n k e => by rw [hlist, mem_slotsHolding], hfilled, hsorted⟩
  · rintro ⟨hascending, hmem, hfilled, hsorted⟩
    exact ⟨fun k e => (hascending k e).eq_of_mem_iff (slotsHolding_ascending slots k e) fun n => by rw [hmem, mem_slotsHolding], hfilled, hsorted⟩

/-- An index that agrees with its slots lists exactly those with a record of the pair (R41). -/
theorem IndexAgrees.mem {index : List IndexEntry} {slots : List Slot} (h : IndexAgrees index slots) (n : Nat) (k : SourceKey)
    (e : EventKind) : n ∈ indexList index k e ↔ ∃ b, (slotAt slots n).record = some b ∧ b.key = k ∧ b.kind = e :=
  (indexAgrees_iff.1 h).mem n k e

theorem Binding.same_iff {a b : Binding} : a.same b = true ↔ a.key = b.key ∧ a.kind = b.kind ∧ a.action = b.action ∧ a.target = b.target := by
  simp [Binding.same, and_assoc]

theorem Binding.same_comm (a b : Binding) : a.same b = b.same a := by
  rw [Bool.eq_iff_iff, Binding.same_iff, Binding.same_iff]
  grind

/-- The records that a write of slot `n` with record `b` leaves room for: no other slot agrees with it, and fewer than eight others hold its
pair (R40). -/
structure RoomFor (slots : List Slot) (n : Nat) (b : Binding) : Prop where
  distinct : ∀ m c, m ≠ n → (slotAt slots m).record = some c → b.same c = false
  fewer : ((slotsHolding slots b.key b.kind).filter (· ≠ n)).length < Config.perKey

/-- The slot table keeps R40 where a slot is freed. -/
theorem LegalSlots.setFree {slots : List Slot} (h : LegalSlots slots) {n : Nat} (hn : n < slots.length) : LegalSlots (slots.set n .free) := by
  obtain ⟨hlength, hlegal, hdistinct, hfew⟩ := h
  have hold {m : Nat} {c : Binding} (hc : recordsOf (slots.set n .free) m = some c) : recordsOf slots m = some c := by
    rw [recordsOf_set hn, Function.update_apply] at hc
    split at hc
    · cases hc
    · exact hc
  refine ⟨by simpa using hlength, fun m c hc => hlegal m c (hold hc), fun m l c d hc hd => hdistinct m l c d (hold hc) (hold hd), fun k e => ?_⟩
  refine ((slotsHolding_nodup _ k e).length_le_of_subset fun m hm => ?_).trans (hfew k e)
  obtain ⟨c, hc, hpair⟩ := mem_slotsHolding.1 hm
  exact mem_slotsHolding.2 ⟨c, hold hc, hpair⟩

/-- The slot table keeps R40 where a slot is written with a record that it has room for. -/
theorem LegalSlots.setRecord {slots : List Slot} (h : LegalSlots slots) {n : Nat} (hn : n < slots.length) {x : Slot} {b : Binding}
    (hx : x.record = some b) (hb : b.Legal) (hroom : RoomFor slots n b) : LegalSlots (slots.set n x) := by
  obtain ⟨hlength, hlegal, hdistinct, hfew⟩ := h
  have hcases {m : Nat} {c : Binding} (hc : recordsOf (slots.set n x) m = some c) :
      m = n ∧ c = b ∨ m ≠ n ∧ recordsOf slots m = some c := by
    rw [recordsOf_set hn, Function.update_apply, hx] at hc
    split at hc
    · next hm => exact .inl ⟨hm, (Option.some.inj hc).symm⟩
    · next hm => exact .inr ⟨hm, hc⟩
  refine ⟨by simpa using hlength, fun m c hc => ?_, fun m l c d hc hd hsame => ?_, fun k e => ?_⟩
  · rcases hcases hc with ⟨-, rfl⟩ | ⟨-, hc⟩
    · exact hb
    · exact hlegal m c hc
  · rcases hcases hc with ⟨hm, rfl⟩ | ⟨hm, hc'⟩ <;> rcases hcases hd with ⟨hl, rfl⟩ | ⟨hl, hd'⟩
    · rw [hm, hl]
    · rw [hroom.distinct l d hl hd'] at hsame; cases hsame
    · rw [Binding.same_comm, hroom.distinct m c hm hc'] at hsame; cases hsame
    · exact hdistinct m l c d hc' hd' hsame
  · by_cases hpair : b.key = k ∧ b.kind = e
    · obtain ⟨rfl, rfl⟩ := hpair
      refine ((slotsHolding_nodup _ _ _).length_le_of_subset (l₂ := n :: (slotsHolding slots b.key b.kind).filter (· ≠ n))
        fun m hm => ?_).trans hroom.fewer
      obtain ⟨c, hc, hpair⟩ := mem_slotsHolding.1 hm
      rcases hcases hc with ⟨rfl, -⟩ | ⟨hm, hc⟩
      · simp
      · exact List.mem_cons_of_mem _ (List.mem_filter.2 ⟨mem_slotsHolding.2 ⟨c, hc, hpair⟩, by simpa using hm⟩)
    · refine ((slotsHolding_nodup _ k e).length_le_of_subset fun m hm => ?_).trans (hfew k e)
      obtain ⟨c, hc, hk⟩ := mem_slotsHolding.1 hm
      rcases hcases hc with ⟨-, rfl⟩ | ⟨-, hc⟩
      · exact absurd hk hpair
      · exact mem_slotsHolding.2 ⟨c, hc, hk⟩

/-! ## The checks of a binding write (R37, R38, R43, R44) -/

/-- A key that a payload may carry is in range (R37). -/
theorem keyOf_legal {r : RawKey} {k : SourceKey} (h : keyOf r = some k) : k.Legal := by
  unfold keyOf at h
  split at h
  case h_4 => cases h
  all_goals
    split at h
    · next hin =>
      cases h
      simpa [SourceKey.Legal, and_assoc] using hin
    · cases h

/-- A target that a payload may carry is in range (R37). -/
theorem targetOf_legal {kind no : Nat} {t : Target} (h : targetOf kind no = some t) : t.Legal := by
  unfold targetOf at h
  split at h
  case h_4 =>
    obtain ⟨m, -, rfl⟩ := Option.map_eq_some_iff.1 h
    trivial
  case h_5 => cases h
  all_goals
    split at h
    · next hin => cases h; simpa [Target.Legal] using hin
    · cases h

/-- A set of modes whose byte is not 0 holds a mode (R37). -/
theorem modeSetOf_has {code : Nat} {m : ModeSet} (h : modeSetOf code = some m) (hne : code ≠ 0) : ∃ x, m.has x = true := by
  unfold modeSetOf at h
  split at h
  case isFalse => cases h
  case isTrue hlt =>
    cases h
    obtain ⟨i, hi⟩ := Nat.exists_testBit_of_ne_zero hne
    have : i < 5 := by
      by_contra hge
      rw [Nat.testBit_lt_two_pow (hlt.trans_le (Nat.pow_le_pow_right (by decide) (Nat.le_of_not_lt hge) : 2 ^ 5 ≤ 2 ^ i))] at hi
      cases hi
    interval_cases i
    · exact ⟨.closed, hi⟩
    · exact ⟨.cleaning, hi⟩
    · exact ⟨.work, hi⟩
    · exact ⟨.rehearsal, hi⟩
    · exact ⟨.performance, hi⟩

/-- A record that passes the checks of a binding write is in range and agrees (R37, R38). -/
theorem checkBinding_legal {r : RawBinding} {b : Binding} (h : checkBinding r = .ok b) : b.Legal := by
  unfold checkBinding at h
  split at h
  · cases h
  · next hb =>
    split at h
    case isFalse => cases h
    case isTrue hagrees =>
      cases h
      unfold bindingOf at hb
      split at hb
      case h_2 => cases hb
      case h_1 hkey _ hmask _ htarget _ =>
        split at hb
        case isFalse => cases hb
        case isTrue hin =>
          obtain ⟨hne, hlevel, hfade, hrate⟩ := hin
          cases hb
          refine ⟨keyOf_legal hkey, targetOf_legal htarget, modeSetOf_has hmask hne, hagrees, fun l hl => ?_, fun f hf => ?_, fun x hx => ?_⟩
          · simp only at hl; simpa [optWithin, hl] using hlevel
          · simp only at hf; simpa [optWithin, hf] using hfade
          · simp only at hx; simpa [optWithin, hx] using hrate

/-- Where no slot but `except` agrees with a record (R43 check 5, R44 check 6). -/
theorem duplicateOf_eq_false {slots : List Slot} {b : Binding} {except : Option Nat} :
    duplicateOf slots b except = false ↔ ∀ m c, some m ≠ except → (slotAt slots m).record = some c → b.same c = false := by
  simp only [duplicateOf, List.any_eq_false, List.mem_range, Slot.holdsSame, Bool.and_eq_true, decide_eq_true_eq, Option.any_eq_true]
  constructor
  · intro h m c hm hc
    by_contra hsame
    exact h m (lt_of_record hc) ⟨hm, c, hc, by simpa using hsame⟩
  · rintro h m - ⟨hm, c, hc, hsame⟩
    rw [h m c hm hc] at hsame
    cases hsame

/-- The lowest-numbered Free slot (R43). -/
theorem lowestFree_eq_some {slots : List Slot} {n : Nat} :
    lowestFree slots = some n ↔ n < slots.length ∧ slotAt slots n = .free ∧ ∀ m, m < n → slotAt slots m ≠ .free := by
  unfold lowestFree
  rw [List.findIdx?_eq_some_iff_getElem]
  constructor
  · rintro ⟨hn, hfree, hbelow⟩
    refine ⟨hn, by simpa [slotAt_of_lt hn] using hfree, fun m hm => ?_⟩
    simpa [slotAt_of_lt (hm.trans hn)] using hbelow m hm
  · rintro ⟨hn, hfree, hbelow⟩
    refine ⟨hn, by simpa [slotAt_of_lt hn] using hfree, fun m hm => ?_⟩
    simpa [slotAt_of_lt (hm.trans hn)] using hbelow m hm

/-- No slot is Free (R43). -/
theorem lowestFree_eq_none {slots : List Slot} : lowestFree slots = none ↔ ∀ x ∈ slots, x ≠ .free := by
  simp only [lowestFree, List.findIdx?_eq_none_iff, Option.isNone_eq_false_iff, Option.isSome_iff_ne_none, ne_eq, Slot.record_eq_none]

/-! ## The index built at start-up (R41, R160 step 2) -/

theorem recordsOf_append (slots : List Slot) (x : Slot) :
    recordsOf (slots ++ [x]) = Function.update (recordsOf slots) slots.length x.record := by
  funext m
  rw [Function.update_apply]
  simp only [recordsOf, slotAt, List.getD_eq_getElem?_getD, List.getElem?_append]
  split
  · next h => rw [if_neg (Nat.ne_of_lt h)]
  · next h =>
    by_cases hm : m = slots.length
    · simp [hm]
    · have : m - slots.length ≠ 0 := by omega
      rw [if_neg hm, List.getElem?_eq_none (Nat.le_of_not_lt h), List.getElem?_singleton, if_neg this]

/-- The slots from `before.length` on are added to an index that agrees with those before them. -/
theorem buildFrom_indexOf {l before : List Slot} {index : List IndexEntry} (h : IndexOf index (recordsOf before))
    (hlegal : ∀ n b, recordsOf (before ++ l) n = some b → b.key.Legal) :
    IndexOf (buildFrom before.length l index) (recordsOf (before ++ l)) := by
  induction l generalizing before index with
  | nil => simpa [buildFrom] using h
  | cons x l ih =>
    have happend : before ++ x :: l = (before ++ [x]) ++ l := by simp
    have hlength : before.length + 1 = (before ++ [x]).length := by simp
    have hstep : IndexOf (match x.record with | none => index | some b => indexInsert b.key b.kind before.length index)
        (recordsOf (before ++ [x])) := by
      have hnone : recordsOf before before.length = none := by simp [recordsOf, slotAt_of_le]
      have hold {n : Nat} {b : Binding} (hb : recordsOf before n = some b) : recordsOf (before ++ x :: l) n = some b := by
        have hn := lt_of_record hb
        simpa [recordsOf, slotAt, List.getElem?_append_left hn] using hb
      rw [recordsOf_append]
      cases hx : x.record with
      | none => rw [Function.update_eq_self_iff.2 hnone.symm]; exact h
      | some b =>
        refine h.insert (fun n c hc => hlegal n c (hold hc)) hnone (hlegal before.length b ?_)
        simpa [recordsOf, slotAt] using hx
    rw [happend] at hlegal ⊢
    have := ih hstep hlegal
    rw [← hlength] at this
    unfold buildFrom
    cases hx : x.record <;> simpa [hx] using this

/-- The index built from a slot table agrees with it (R41). -/
theorem buildIndex_agrees {slots : List Slot} (h : LegalSlots slots) : IndexAgrees (buildIndex slots) slots := by
  obtain ⟨-, hlegal, -⟩ := h
  have hnone : recordsOf [] = fun _ => none := rfl
  exact indexAgrees_iff.2 (buildFrom_indexOf (before := []) (by rw [hnone]; exact .empty) fun n b hb => (hlegal n b hb).1)

/-- A table of Free slots keeps R40. -/
theorem legalSlots_blank : LegalSlots Stored.blank.slots := by
  have hfree (n : Nat) : slotAt Stored.blank.slots n = .free := by
    simp only [Stored.blank, slotAt, List.getD_eq_getElem?_getD, List.getElem?_replicate]
    split <;> rfl
  refine ⟨List.length_replicate, fun n b h => ?_, fun n m b c h => ?_, fun k e => ?_⟩
  · rw [hfree] at h; cases h
  · rw [hfree] at h; cases h
  · have hnil : slotsHolding Stored.blank.slots k e = [] := List.eq_nil_iff_forall_not_mem.2 fun n hn => by
      obtain ⟨b, hb, -⟩ := mem_slotsHolding.1 hn
      rw [recordsOf, hfree] at hb; cases hb
    rw [hnil]
    decide

end Sys2Proof.Machine

namespace Sys2Proof.Machine

/-! ## What leaves the stored tables -/

/-- The tables that an event leaves (R36, R41, R72, R77, R86), and the settings store. -/
structure Tables where
  slots   : List Slot
  index   : List IndexEntry
  groups  : List (Option (List Nat))
  scenes  : List (Option Scene)
  options : ModeOptions
  store   : Store

/-- The tables of a state. -/
def State.tables (s : State) : Tables := ⟨s.slots, s.index, s.groups, s.scenes, s.options, s.store⟩

@[simp] theorem withPhase_tables (s : State) (x : Phase) : (s.withPhase x).tables = s.tables := rfl
@[simp] theorem withResetLow_tables (s : State) (x : Bool) : (s.withResetLow x).tables = s.tables := rfl
@[simp] theorem withCircuits_tables (s : State) (x : List Circuit) : (s.withCircuits x).tables = s.tables := rfl
@[simp] theorem withMode_tables (s : State) (x : Mode) : (s.withMode x).tables = s.tables := rfl
@[simp] theorem withLineA_tables (s : State) (x : LineCtl) : (s.withLineA x).tables = s.tables := rfl
@[simp] theorem withLineB_tables (s : State) (x : LineCtl) : (s.withLineB x).tables = s.tables := rfl
@[simp] theorem withInputs_tables (s : State) (x : List ContactInput) : (s.withInputs x).tables = s.tables := rfl
@[simp] theorem withSafe1_tables (s : State) (x : Pin) : (s.withSafe1 x).tables = s.tables := rfl
@[simp] theorem withSafe2_tables (s : State) (x : Pin) : (s.withSafe2 x).tables = s.tables := rfl
@[simp] theorem withCue1_tables (s : State) (x : CueInput) : (s.withCue1 x).tables = s.tables := rfl
@[simp] theorem withCue2_tables (s : State) (x : CueInput) : (s.withCue2 x).tables = s.tables := rfl
@[simp] theorem withSettleSamples_tables (s : State) (x : Nat) : (s.withSettleSamples x).tables = s.tables := rfl
@[simp] theorem withStage1_tables (s : State) (x : Stage) : (s.withStage1 x).tables = s.tables := rfl
@[simp] theorem withStage2_tables (s : State) (x : Stage) : (s.withStage2 x).tables = s.tables := rfl
@[simp] theorem withIgnored1_tables (s : State) (x : Nat) : (s.withIgnored1 x).tables = s.tables := rfl
@[simp] theorem withIgnored2_tables (s : State) (x : Nat) : (s.withIgnored2 x).tables = s.tables := rfl
@[simp] theorem withLink_tables (s : State) (x : Link) : (s.withLink x).tables = s.tables := rfl
@[simp] theorem withPort_tables (s : State) (x : Port) : (s.withPort x).tables = s.tables := rfl
@[simp] theorem withSpi_tables (s : State) (x : Option Transfer) : (s.withSpi x).tables = s.tables := rfl
@[simp] theorem withPending_tables (s : State) (x : List Instr) : (s.withPending x).tables = s.tables := rfl
@[simp] theorem raise_tables (s : State) (f : Flag) : (s.raise f).tables = s.tables := rfl
@[simp] theorem mapCircuits_tables (s : State) (f : Circuit → Circuit) : (s.mapCircuits f).tables = s.tables := rfl
@[simp] theorem onCircuit_tables (n : Nat) (f : Circuit → Circuit) (s : State) : (s.onCircuit n f).tables = s.tables := rfl
@[simp] theorem stateEndMovement_tables (p : LocalOwner → Bool) (s : State) : (s.endMovement p).tables = s.tables := rfl
@[simp] theorem startFrame_tables (s : State) : s.startFrame.tables = s.tables := rfl

@[simp] theorem withLine_tables (l : Line) (x : LineCtl) (s : State) : (s.withLine l x).tables = s.tables := by cases l <;> rfl

@[simp] theorem withStage_tables (i : StageId) (x : Stage) (s : State) : (s.withStage i x).tables = s.tables := by cases i <;> rfl

@[simp] theorem withCue_tables (c : CueLine) (x : CueInput) (s : State) : (s.withCue c x).tables = s.tables := by cases c <;> rfl

@[simp] theorem withSafePin_tables (i : SafeInput) (p : Pin) (s : State) : (s.withSafePin i p).tables = s.tables := by cases i <;> rfl

@[simp] theorem withContact_tables (n : Nat) (x : ContactInput) (s : State) : (s.withContact n x).tables = s.tables := by
  unfold State.withContact; split <;> rfl

theorem foldl_tables {o : Type} {f : State → o → State} (hf : ∀ s x, (f s x).tables = s.tables) (xs : List o) (s : State) :
    (xs.foldl f s).tables = s.tables := by
  induction xs generalizing s with
  | nil => rfl
  | cons x xs ih => rw [List.foldl_cons, ih, hf]

theorem EventFrame.tables {s t : State} (h : EventFrame s t) : t.tables = s.tables := by rw [h.state]; rfl

@[simp] theorem changeMode_tables (m : Mode) (fade : Nat) (s : State) : (s.changeMode m fade).tables = s.tables :=
  (changeMode_frame m fade s).tables

@[simp] theorem resolve_tables (k : SourceKey) (e : EventKind) (s : State) : (s.resolve k e).tables = s.tables :=
  (resolve_frame k e s).tables

@[simp] theorem deliver_tables (l : Line) (a : Nat) (events : List (Nat × EventKind)) (s : State) :
    (s.deliver l a events).tables = s.tables := (deliver_frame l a events s).tables

/-! ### Contact, safety and cue inputs -/

@[simp] theorem contactClosed_tables (n : Nat) (x : ContactInput) (s : State) : (s.contactClosed n x).tables = s.tables := by
  unfold State.contactClosed; split <;> simp

@[simp] theorem contactOpened_tables (n : Nat) (x : ContactInput) (s : State) : (s.contactOpened n x).tables = s.tables := by
  unfold State.contactOpened; dsimp only; split <;> simp

@[simp] theorem contactHeld_tables (n : Nat) (x : ContactInput) (s : State) : (s.contactHeld n x).tables = s.tables := by
  simp [State.contactHeld]

@[simp] theorem contactStuck_tables (n : Nat) (x : ContactInput) (s : State) : (s.contactStuck n x).tables = s.tables := by
  simp [State.contactStuck]

@[simp] theorem contactCounted_tables (n : Nat) (x : ContactInput) (s : State) : (s.contactCounted n x).tables = s.tables := by
  unfold State.contactCounted
  dsimp only
  split
  · split
    · simp
    · split <;> simp
  · simp

@[simp] theorem contactTurned_tables (n : Nat) (x : ContactInput) (s : State) : (s.contactTurned n x).tables = s.tables := by
  unfold State.contactTurned; split <;> simp

@[simp] theorem sampleContact_tables (n : Nat) (level : Bool) (s : State) : (s.sampleContact n level).tables = s.tables := by
  unfold State.sampleContact
  split
  · rfl
  · dsimp only
    split
    · simp
    · split <;> simp
    · split
      · split <;> simp
      · simp

theorem onContact_tables (n : Nat) (occasion : ContactInput → Bool) {f : ContactInput → State → State}
    (hf : ∀ x s, (f x s).tables = s.tables) (s : State) : (s.onContact n occasion f).tables = s.tables := by
  unfold State.onContact
  split
  · rfl
  · split
    · exact hf _ s
    · rfl

@[simp] theorem assertInput_tables (i : SafeInput) (s : State) : (s.assertInput i).tables = s.tables := by simp [State.assertInput]

@[simp] theorem deassertInput_tables (i : SafeInput) (s : State) : (s.deassertInput i).tables = s.tables := by simp [State.deassertInput]

@[simp] theorem sampleSafe_tables (i : SafeInput) (level : Bool) (s : State) : (s.sampleSafe i level).tables = s.tables := by
  unfold State.sampleSafe
  split
  · split <;> simp
  · simp

/-- A transfer changes circuits and stages (R135, R136). -/
@[simp] theorem transfer_tables (i : StageId) (s : State) : (s.transfer i).tables = s.tables := by
  have hone (j : StageId) (u : State) : (u.transferOne j).tables = u.tables := by simp [State.transferOne]
  unfold State.transfer
  dsimp only
  split <;> simp [hone]

@[simp] theorem cueArrives_tables (c : CueLine) (s : State) : (s.cueArrives c).tables = s.tables := by
  unfold State.cueArrives
  dsimp only
  split
  · split <;> split <;> simp
  · cases c <;> rfl

@[simp] theorem sampleCue_tables (c : CueLine) (level : Bool) (s : State) : (s.sampleCue c level).tables = s.tables := by
  unfold State.sampleCue; dsimp only; split <;> simp

/-- A sample of all the inputs (R116). -/
@[simp] theorem sampleAll_tables (pins : BitVec 28) (order : List Nat) (s : State) : (s.sampleAll pins order).tables = s.tables := by
  refine foldl_tables (fun u n => ?_) _ s
  unfold State.sampleInput
  dsimp only
  repeat' split
  all_goals simp

/-- A sample of step 4 of start-up (R122). -/
@[simp] theorem settleSample_tables (pins : BitVec 28) (s : State) : (s.settleSample pins).tables = s.tables := by
  unfold State.settleSample; split <;> simp

@[simp] theorem contactSample_tables (pins : BitVec 28) (order : List Nat) (s : State) : (s.contactSample pins order).tables = s.tables := by
  unfold State.contactSample; split <;> simp

/-! ### Station lines -/

@[simp] theorem faultLine_tables (l : Line) (s : State) : (s.faultLine l).tables = s.tables := by simp [State.faultLine]

@[simp] theorem poll_tables (l : Line) (r : Station) (s : State) : (s.poll l r).tables = s.tables := by simp [State.poll]

@[simp] theorem walk_tables (l : Line) (s : State) : (s.walk l).tables = s.tables := by
  unfold State.walk State.endRound
  dsimp only
  split
  · simp
  · split
    · split <;> simp
    · simp

@[simp] theorem chooseExchange_tables (l : Line) (s : State) : (s.chooseExchange l).tables = s.tables := by
  unfold State.chooseExchange State.repeatOrWalk
  repeat' split
  all_goals simp

@[simp] theorem collide_tables (l : Line) (s : State) : (s.collide l).tables = s.tables := by
  unfold State.collide
  dsimp only
  repeat' split
  all_goals simp

@[simp] theorem onStation_tables (l : Line) (a : Nat) (f : Station → Station) (s : State) : (s.onStation l a f).tables = s.tables := by
  simp [State.onStation]

@[simp] theorem raiseIf_tables (cond : Bool) (f : Flag) (s : State) : (s.raiseIf cond f).tables = s.tables := by
  unfold State.raiseIf; split <;> simp

@[simp] theorem validReply_tables (l : Line) (r : Station) (reply : StationReply) (s : State) :
    (s.validReply l r reply).tables = s.tables := by
  unfold State.validReply; dsimp only; split <;> simp

@[simp] theorem miss_tables (l : Line) (r : Station) (s : State) : (s.miss l r).tables = s.tables := by
  unfold State.miss; dsimp only; split <;> simp

@[simp] theorem censusJudged_tables (l : Line) (a : Nat) (entry : Option StationIdent) (s : State) :
    (s.censusJudged l a entry).tables = s.tables := by
  unfold State.censusJudged; dsimp only; split <;> simp

/-- The end of a reply window (R105). -/
@[simp] theorem endReply_tables (l : Line) (chars : Option (List RxChar)) (s : State) : (s.endReply l chars).tables = s.tables := by
  have hjudge (x : Exchange) : (s.judge l x chars).tables = s.tables := by
    unfold State.judge
    repeat' split
    all_goals simp
  unfold State.endReply
  split
  · rfl
  · split
    · rfl
    · rw [withLine_tables, hjudge]

@[simp] theorem breakLine_tables (l : Line) (s : State) : (s.breakLine l).tables = s.tables := by unfold State.breakLine; split <;> simp

@[simp] theorem recoverLine_tables (l : Line) (s : State) : (s.recoverLine l).tables = s.tables := by
  unfold State.recoverLine; split <;> simp

@[simp] theorem endWait_tables (l : Line) (s : State) : (s.endWait l).tables = s.tables := by unfold State.endWait; split <;> simp

/-! ### Rack link, transactions and the end of settling -/

@[simp] theorem reachNextStart_tables (s : State) : s.reachNextStart.tables = s.tables := by
  unfold State.reachNextStart
  repeat' split
  all_goals simp

@[simp] theorem endFrame_tables (s : State) : s.endFrame.tables = s.tables := by
  unfold State.endFrame
  repeat' split
  all_goals simp

/-- A piece of a transaction (R146). -/
@[simp] theorem shift_tables (bits : List Bool) (rises : Bool) (s : State) : (s.shift bits rises).tables = s.tables := by
  have hlow : (s.shift bits false).tables = s.tables := by rw [shift_low_touches]; rfl
  cases rises with
  | false => exact hlow
  | true =>
    refine .trans ?_ hlow
    show (s.shift bits false).riseSel.tables = _
    generalize s.shift bits false = u
    unfold State.riseSel
    split
    · rfl
    · rw [withSpi_tables]
      unfold State.endTransaction
      split
      · rfl
      · split
        · rw [takeFrame_touches]; rfl
        · split <;> rfl

/-- A piece of a fetch (R150). -/
@[simp] theorem fetch_tables (bits : Nat) (rises : Bool) (s : State) : (s.fetch bits rises).tables = s.tables := by
  unfold State.fetch
  dsimp only
  repeat' split
  all_goals simp

@[simp] theorem endSettling_tables (s : State) : s.endSettling.tables = s.tables := by rw [endSettling_eq, adoptInputs_eq]; rfl

/-! ### Requests -/

theorem clearAttention_tables (flags : Nat) (s : State) : (s.clearAttention flags).state.tables = s.tables := by
  unfold State.clearAttention; split <;> rfl

theorem setAttentionMask_tables (mask : Nat) (s : State) : (s.setAttentionMask mask).state.tables = s.tables := by
  unfold State.setAttentionMask; split <;> rfl

theorem setCircuitConfig_tables (first last : Nat) (f : CircuitFields) (s : State) :
    (s.setCircuitConfig first last f).state.tables = s.tables := by
  unfold State.setCircuitConfig
  repeat' split
  all_goals rfl

theorem claimLevel_tables (n code v fade : Nat) (s : State) : (s.claimLevel n code v fade).state.tables = s.tables := by
  unfold State.claimLevel
  repeat' split
  all_goals rfl

theorem releaseLayer_tables (n code fade : Nat) (s : State) : (s.releaseLayer n code fade).state.tables = s.tables := by
  unfold State.releaseLayer
  repeat' split
  all_goals rfl

theorem injectEvent_tables (k : RawKey) (kind : Nat) (s : State) : (s.injectEvent k kind).state.tables = s.tables := by
  unfold State.injectEvent
  split
  · split <;> simp
  · rfl

theorem setMode_tables (m : Nat) (fade : Option Nat) (s : State) : (s.setMode m fade).state.tables = s.tables := by
  unfold State.setMode
  split
  · rfl
  · split <;> simp

theorem setLineConfig_tables (line : Nat) (f : LineFields) (s : State) : (s.setLineConfig line f).state.tables = s.tables := by
  unfold State.setLineConfig
  split
  · rfl
  · split <;> simp

theorem enrolStation_tables (line a buttons indicators : Nat) (s : State) :
    (s.enrolStation line a buttons indicators).state.tables = s.tables := by
  unfold State.enrolStation
  repeat' split
  all_goals simp

theorem unenrolStation_tables (line a : Nat) (s : State) : (s.unenrolStation line a).state.tables = s.tables := by
  unfold State.unenrolStation
  dsimp only
  repeat' split
  all_goals simp

theorem censusStart_tables (line : Nat) (s : State) : (s.censusStart line).state.tables = s.tables := by
  unfold State.censusStart
  repeat' split
  all_goals simp

theorem setInputConfig_tables (n : Nat) (f : InputFields) (s : State) : (s.setInputConfig n f).state.tables = s.tables := by
  unfold State.setInputConfig
  repeat' split
  all_goals simp

theorem stageEntry_tables (stage circuit : Nat) (e : StageForm) (s : State) : (s.stageEntry stage circuit e).state.tables = s.tables := by
  unfold State.stageEntry
  repeat' split
  all_goals simp

theorem stageClear_tables (stage : Nat) (s : State) : (s.stageClear stage).state.tables = s.tables := by
  unfold State.stageClear
  repeat' split
  all_goals simp

theorem setStageTrigger_tables (stage trigger : Nat) (s : State) : (s.setStageTrigger stage trigger).state.tables = s.tables := by
  unfold State.setStageTrigger
  repeat' split
  all_goals simp

theorem standby_tables (stage : Nat) (s : State) : (s.standby stage).state.tables = s.tables := by
  unfold State.standby
  repeat' split
  all_goals simp

theorem unstandby_tables (stage : Nat) (s : State) : (s.unstandby stage).state.tables = s.tables := by
  unfold State.unstandby
  repeat' split
  all_goals simp

theorem go_tables (stage : Nat) (s : State) : (s.go stage).state.tables = s.tables := by
  unfold State.go
  repeat' split
  all_goals simp

theorem setLinkConfig_tables (period : Nat) (s : State) : (s.setLinkConfig period).state.tables = s.tables := by
  unfold State.setLinkConfig; split <;> rfl

end Sys2Proof.Machine

namespace Sys2Proof.Machine

/-! ## Slots written, with the index that follows (R41) -/

/-- R40 is about the records alone. -/
theorem LegalSlots.congr {slots slots' : List Slot} (h : LegalSlots slots) (hlength : slots'.length = slots.length)
    (hrecords : recordsOf slots' = recordsOf slots) : LegalSlots slots' := by
  have hslot (n : Nat) : (slotAt slots' n).record = (slotAt slots n).record := congrFun hrecords n
  unfold LegalSlots slotsHolding at h ⊢
  simp only [hslot, hlength]
  exact h

/-- A slot turned keeps its record. -/
theorem recordsOf_set_same {slots : List Slot} {n : Nat} {x : Slot} (h : x.record = (slotAt slots n).record) :
    recordsOf (slots.set n x) = recordsOf slots := by
  funext m
  simp only [recordsOf, slotAt_set]
  split
  · next hm => rw [h, hm.1]
  · rfl

/-- The laws of a slot table and its index. -/
structure Indexed (slots : List Slot) (index : List IndexEntry) : Prop where
  legal : LegalSlots slots
  agrees : IndexAgrees index slots

theorem Indexed.keys {slots : List Slot} {index : List IndexEntry} (h : Indexed slots index) (n : Nat) (b : Binding)
    (hb : recordsOf slots n = some b) : b.key.Legal := (h.legal.2.1 n b hb).1

/-- A Free slot gets a record. -/
theorem Indexed.insert {slots : List Slot} {index : List IndexEntry} (h : Indexed slots index) {n : Nat} (hn : n < slots.length)
    (hfree : slotAt slots n = .free) {x : Slot} {b : Binding} (hx : x.record = some b) (hb : b.Legal) (hroom : RoomFor slots n b) :
    Indexed (slots.set n x) (indexInsert b.key b.kind n index) := by
  refine ⟨h.legal.setRecord hn hx hb hroom, indexAgrees_iff.2 ?_⟩
  rw [recordsOf_set hn, hx]
  exact (indexAgrees_iff.1 h.agrees).insert h.keys (by rw [recordsOf, hfree]; rfl) hb.1

/-- A slot's record is replaced. -/
theorem Indexed.replace {slots : List Slot} {index : List IndexEntry} (h : Indexed slots index) {n : Nat} {old : Binding}
    (hold : (slotAt slots n).record = some old) {x : Slot} {b : Binding} (hx : x.record = some b) (hb : b.Legal)
    (hroom : RoomFor slots n b) : Indexed (slots.set n x) (replaceInIndex old b n index) := by
  have hn := lt_of_record hold
  refine ⟨h.legal.setRecord hn hx hb hroom, indexAgrees_iff.2 ?_⟩
  rw [recordsOf_set hn, hx]
  exact (indexAgrees_iff.1 h.agrees).replace h.keys hold hb.1

/-- A slot is freed. -/
theorem Indexed.remove {slots : List Slot} {index : List IndexEntry} (h : Indexed slots index) {n : Nat} {b : Binding}
    (hb : (slotAt slots n).record = some b) : Indexed (slots.set n .free) (indexRemove b.key b.kind n index) := by
  have hn := lt_of_record hb
  refine ⟨h.legal.setFree hn, indexAgrees_iff.2 ?_⟩
  rw [recordsOf_set hn]
  exact (indexAgrees_iff.1 h.agrees).remove hb

/-- A slot is turned Live or Disabled, its record kept. -/
theorem Indexed.turn {slots : List Slot} {index : List IndexEntry} (h : Indexed slots index) {n : Nat} {x : Slot}
    (hx : x.record = (slotAt slots n).record) : Indexed (slots.set n x) index := by
  have hrecords := recordsOf_set_same hx
  refine ⟨h.legal.congr (by simp) hrecords, indexAgrees_iff.2 ?_⟩
  rw [hrecords]
  exact indexAgrees_iff.1 h.agrees

/-- The laws of the binding table of a state. -/
theorem bindingsSound_iff {s : State} : s.BindingsSound ↔ Indexed s.slots s.index ∧ s.store.All fun t => LegalSlots t.slots :=
  ⟨fun ⟨hl, ha, hs⟩ => ⟨⟨hl, ha⟩, hs⟩, fun ⟨⟨hl, ha⟩, hs⟩ => ⟨hl, ha, hs⟩⟩

/-! ## What a request keeps -/

/-- A request row changes the port alone, or is carried out by a running part on the state in which it was accepted (R148; log 4). -/
theorem requestStep_cases (i : Instr) (carry : State → State) (s : State) :
    (∃ p, s.requestStep i carry = s.withPort p) ∨ s.phase = .running ∧ s.requestStep i carry = carry (s.accept i) := by
  have hfree (f : State → State) (p : Port) (hf : f s = s.withPort p) : ∃ q, s.whenSelFree f = s.withPort q := by
    unfold State.whenSelFree
    split
    · exact ⟨s.port, rfl⟩
    · exact ⟨p, hf⟩
  unfold State.requestStep
  split
  · exact .inl ⟨s.port, rfl⟩
  · exact .inl ⟨s.port, rfl⟩
  · exact .inl (hfree _ _ rfl)
  · next hr =>
    split
    · split
      · exact .inr ⟨hr, rfl⟩
      · exact .inl (hfree _ _ rfl)
    · unfold State.whenSelFree
      split
      · exact .inl ⟨s.port, rfl⟩
      · exact .inr ⟨hr, rfl⟩

/-- What does not look at the port and is kept by what a request row carries out, is kept by the row. -/
theorem requestStep_keeps {P : State → Prop} (hport : ∀ s p, P s → P (s.withPort p)) {i : Instr} {carry : State → State}
    (hcarry : ∀ s, P s → P (carry s)) {s : State} (hs : P s) : P (s.requestStep i carry) := by
  rcases requestStep_cases i carry s with ⟨p, he⟩ | ⟨-, he⟩ <;> rw [he]
  · exact hport s p hs
  · exact hcarry _ (hport s _ hs)

/-- What does not look at the port and is kept by a request's owner, is kept by the request (R149). -/
theorem complete_keeps {P : State → Prop} (hport : ∀ s p, P s → P (s.withPort p)) {i : Instr} {owner : State → Carried}
    (howner : ∀ s, P s → P (owner s).state) {s : State} (hs : P s) : P (s.complete i owner) :=
  requestStep_keeps hport (fun t ht => hport _ _ (howner t ht)) hs

/-! ## The settings store and start-up -/

/-- SAVE copies the live tables (R157). -/
theorem save_all {p : Stored → Prop} {s : State} (h : s.store.All p) (hlive : p s.stored) : s.save.state.store.All p := by
  unfold State.save
  split
  · exact h
  · exact erased_all fun t ht => by cases ht; exact hlive

theorem eraseStore_all {p : Stored → Prop} {s : State} (h : s.store.All p) : s.eraseStore.state.store.All p := by
  unfold State.eraseStore
  split
  · exact h
  · exact erased_none

/-- A verified image holds the copy that SAVE took (R157). -/
theorem endSave_all {p : Stored → Prop} {s : State} (h : s.store.All p) (verified : Bool) : (s.endSave verified).store.All p := by
  unfold State.endSave
  split
  · exact h
  · split
    · rw [raise_store, withStore_store]
      cases hc : s.store.copy with
      | none => exact erased_none
      | some u =>
        refine ⟨fun t ht => ?_, fun _ ht => nomatch ht⟩
        rw [Option.map_some, Option.getD_some, image_of_file] at ht
        cases ht
        exact h.2 u hc
    · exact erased_none

theorem endErase_all {p : Stored → Prop} {s : State} (h : s.store.All p) : s.endErase.store.All p := by
  unfold State.endErase
  split
  · exact h
  · exact erased_none

theorem stop_all {p : Stored → Prop} {s : State} (h : s.store.All p) (phase : Phase) : (s.stop phase).store.All p :=
  h.dropCopy (by rw [stop_eq]) (by rw [stop_eq])

theorem startUp_all {p : Stored → Prop} {s : State} (h : s.store.All p) (cause : StartCause) : (s.startUp cause).store.All p := by
  have he := startUp_eq cause s _ rfl
  exact h.dropCopy (by rw [he]) (by rw [he])

/-! ## What every command keeps of the binding table -/

/-- The laws of the binding table look at the slots, the index and the store. -/
theorem State.BindingsSound.congr {s t : State} (h : s.BindingsSound) (hslots : t.slots = s.slots) (hindex : t.index = s.index)
    (hstore : t.store = s.store) : t.BindingsSound := by
  rw [State.BindingsSound, hslots, hindex, hstore]
  exact h

theorem State.BindingsSound.of_tables {s t : State} (h : s.BindingsSound) (ht : t.tables = s.tables) : t.BindingsSound :=
  h.congr (congrArg Tables.slots ht) (congrArg Tables.index ht) (congrArg Tables.store ht)

theorem State.BindingsSound.withPort {s : State} (h : s.BindingsSound) (p : Port) : (s.withPort p).BindingsSound := h

/-- A change of the store alone. -/
theorem State.BindingsSound.withStore {s t : State} (h : s.BindingsSound) (hslots : t.slots = s.slots) (hindex : t.index = s.index)
    (hstore : t.store.All fun u => LegalSlots u.slots) : t.BindingsSound := by
  obtain ⟨hlegal, hagrees, -⟩ := h
  exact ⟨by rw [hslots]; exact hlegal, by rw [hindex, hslots]; exact hagrees, hstore⟩

/-- ADD BINDING (R43): its checks leave room for the record. -/
theorem addBinding_bindings (r : RawBinding) {s : State} (h : s.BindingsSound) : (s.addBinding r).state.BindingsSound := by
  unfold State.addBinding
  split
  · exact h
  · next b hb =>
    split
    · exact h
    · next n hn =>
      split
      · exact h
      · next hdup =>
        split
        · exact h
        · next hroom =>
          obtain ⟨hx, hstore⟩ := bindingsSound_iff.1 h
          obtain ⟨hlt, hfree, -⟩ := lowestFree_eq_some.1 hn
          have hdup := duplicateOf_eq_false.1 (Bool.eq_false_iff.2 hdup)
          refine bindingsSound_iff.2 ⟨hx.insert hlt hfree rfl (checkBinding_legal hb) ⟨fun m c _ => hdup m c nofun, ?_⟩, hstore⟩
          rw [hx.agrees.1] at hroom
          exact (List.length_filter_le _ _).trans_lt (Nat.lt_of_not_le hroom)

/-- REPLACE BINDING (R44): its checks leave room for the record. -/
theorem replaceBinding_bindings (n : Nat) (r : RawBinding) {s : State} (h : s.BindingsSound) :
    (s.replaceBinding n r).state.BindingsSound := by
  unfold State.replaceBinding
  split
  · exact h
  · split
    · exact h
    · next old hold =>
      split
      · exact h
      · next b hb =>
        split
        · exact h
        · next hdup =>
          split
          · exact h
          · next hroom =>
            obtain ⟨hx, hstore⟩ := bindingsSound_iff.1 h
            have hdup := duplicateOf_eq_false.1 (Bool.eq_false_iff.2 hdup)
            refine bindingsSound_iff.2 ⟨hx.replace hold (Slot.rewrite_record hold b) (checkBinding_legal hb)
              ⟨fun m c hm => hdup m c (by simpa using hm), ?_⟩, hstore⟩
            rw [othersOf, hx.agrees.1] at hroom
            exact Nat.lt_of_not_le hroom

/-- A slot is retired (R45). -/
theorem retire_bindings (n : Nat) {s : State} (h : s.BindingsSound) : (s.retire n).BindingsSound := by
  unfold State.retire
  split
  · exact h
  · next b hb =>
    obtain ⟨hx, hstore⟩ := bindingsSound_iff.1 h
    exact bindingsSound_iff.2 ⟨hx.remove hb, hstore⟩

theorem retireAll_bindings (ns : List Nat) {s : State} (h : s.BindingsSound) : (s.retireAll ns).BindingsSound := by
  induction ns generalizing s with
  | nil => exact h
  | cons n ns ih => exact ih (retire_bindings n h)

theorem retireBinding_bindings (n : Nat) {s : State} (h : s.BindingsSound) : (s.retireBinding n).state.BindingsSound := by
  unfold State.retireBinding
  split
  · exact h
  · split
    · exact h
    · exact retire_bindings n h

theorem retireSource_bindings (k : RawKey) {s : State} (h : s.BindingsSound) : (s.retireSource k).state.BindingsSound := by
  unfold State.retireSource
  split
  · exact h
  · exact retireAll_bindings _ h

/-- DISABLE turns a slot and keeps its record (R47). -/
theorem disable_bindings (n : Nat) {s : State} (h : s.BindingsSound) : (s.disable n).state.BindingsSound := by
  unfold State.disable
  split
  · exact h
  · split
    · exact h
    · next b hb =>
      obtain ⟨hx, hstore⟩ := bindingsSound_iff.1 h
      exact bindingsSound_iff.2 ⟨hx.turn (by rw [hb]; rfl), hstore⟩
    · exact h

/-- ENABLE turns a slot and keeps its record (R48). -/
theorem enable_bindings (n : Nat) {s : State} (h : s.BindingsSound) : (s.enable n).state.BindingsSound := by
  unfold State.enable
  split
  · exact h
  · split
    · exact h
    · exact h
    · next b hb =>
      obtain ⟨hx, hstore⟩ := bindingsSound_iff.1 h
      exact bindingsSound_iff.2 ⟨hx.turn (by rw [hb]; rfl), hstore⟩

/-- A request that one of its checks may refuse. -/
theorem orRefused_bindings {s : State} {r : ResultCode} {x : Carried} {p : Prop} [Decidable p] (h : s.BindingsSound)
    (hx : x.state.BindingsSound) : (if p then s.refuse r else x).state.BindingsSound := by
  split
  · exact h
  · exact hx

/-! The writes of the other tables leave the slots, the index and the store. -/

theorem writeGroup_bindings (g : Nat) (ranges : List (Nat × Nat)) {s : State} (h : s.BindingsSound) :
    (s.writeGroup g ranges).state.BindingsSound :=
  orRefused_bindings h (orRefused_bindings h (orRefused_bindings h (orRefused_bindings h (h.congr rfl rfl rfl))))

theorem deleteGroup_bindings (g : Nat) {s : State} (h : s.BindingsSound) : (s.deleteGroup g).state.BindingsSound :=
  orRefused_bindings h (orRefused_bindings h (h.congr rfl rfl rfl))

theorem placeScene_bindings (n : Nat) (sc : Scene) {s : State} (h : s.BindingsSound) : (s.placeScene n sc).state.BindingsSound :=
  orRefused_bindings h (h.congr rfl rfl rfl)

theorem writeScene_bindings (n : Nat) (fade : Option Nat) (entries : List (Nat × Nat)) {s : State} (h : s.BindingsSound) :
    (s.writeScene n fade entries).state.BindingsSound :=
  orRefused_bindings h (orRefused_bindings h (orRefused_bindings h (orRefused_bindings h (placeScene_bindings n _ h))))

theorem extendScene_bindings (n : Nat) (entries : List (Nat × Nat)) {s : State} (h : s.BindingsSound) :
    (s.extendScene n entries).state.BindingsSound := by
  refine orRefused_bindings h (orRefused_bindings h (orRefused_bindings h ?_))
  split
  · exact h
  · exact placeScene_bindings n _ h

theorem captureScene_bindings (n : Nat) (fade : Option Nat) (ranges : List (Nat × Nat)) {s : State} (h : s.BindingsSound) :
    (s.captureScene n fade ranges).state.BindingsSound :=
  orRefused_bindings h (orRefused_bindings h (orRefused_bindings h (orRefused_bindings h (placeScene_bindings n _ h))))

theorem deleteScene_bindings (n : Nat) {s : State} (h : s.BindingsSound) : (s.deleteScene n).state.BindingsSound :=
  orRefused_bindings h (orRefused_bindings h (h.congr rfl rfl rfl))

theorem setModeOptions_bindings (f : OptionFields) {s : State} (h : s.BindingsSound) : (s.setModeOptions f).state.BindingsSound := by
  unfold State.setModeOptions
  split
  · exact h.congr rfl rfl rfl
  · exact h

theorem save_bindings {s : State} (h : s.BindingsSound) : s.save.state.BindingsSound := by
  refine h.withStore ?_ ?_ (save_all h.2.2 h.1) <;> (unfold State.save; split <;> rfl)

theorem eraseStore_bindings {s : State} (h : s.BindingsSound) : s.eraseStore.state.BindingsSound := by
  refine h.withStore ?_ ?_ (eraseStore_all h.2.2) <;> (unfold State.eraseStore; split <;> rfl)

theorem endSave_bindings (verified : Bool) {s : State} (h : s.BindingsSound) : (s.endSave verified).BindingsSound := by
  refine h.withStore ?_ ?_ (endSave_all h.2.2 verified)
  all_goals
    unfold State.endSave
    split
    · rfl
    · split <;> rfl

theorem endErase_bindings {s : State} (h : s.BindingsSound) : s.endErase.BindingsSound := by
  refine h.withStore ?_ ?_ (endErase_all h.2.2) <;> (unfold State.endErase; split <;> rfl)

/-- The part stopped, held or without supply, keeps its tables (log 39). -/
theorem stop_bindings (p : Phase) {s : State} (h : s.BindingsSound) : (s.stop p).BindingsSound :=
  h.withStore (by rw [stop_eq]) (by rw [stop_eq]) (stop_all h.2.2 p)

/-- A start-up loads a table in range and builds its index (R41, R160 step 2). -/
theorem startUp_bindings (cause : StartCause) {s : State} (h : s.BindingsSound) : (s.startUp cause).BindingsSound := by
  have he := startUp_eq cause s _ rfl
  have hlegal : LegalSlots (s.store.image.getD Stored.blank).slots :=
    getD_of (p := fun t : Stored => LegalSlots t.slots) h.2.2.1 legalSlots_blank
  exact ⟨by rw [he]; exact hlegal, by rw [he]; exact buildIndex_agrees hlegal, startUp_all h.2.2 cause⟩

/-- An arrival that only a running part takes. -/
theorem whenRunning_bindings {f : State → State} (hf : ∀ s, s.BindingsSound → (f s).BindingsSound) {s : State} (h : s.BindingsSound) :
    (s.whenRunning f).BindingsSound := by
  unfold State.whenRunning
  split
  · exact hf s h
  · exact h

/-- An arrival that leaves the tables. -/
theorem arrival_bindings {f : State → State} (hf : ∀ s, (f s).tables = s.tables) {s : State} (h : s.BindingsSound) :
    (s.whenRunning f).BindingsSound := whenRunning_bindings (fun u hu => hu.of_tables (hf u)) h

/-- A request whose owner keeps the laws. -/
theorem complete_bindings {i : Instr} {owner : State → Carried} (howner : ∀ s, s.BindingsSound → (owner s).state.BindingsSound)
    {s : State} (h : s.BindingsSound) : (s.complete i owner).BindingsSound := complete_keeps (fun _ p hs => hs.withPort p) howner h

/-- A write of a stored table, refused while the store is busy (R157). -/
theorem write_bindings {i : Instr} {owner : State → Carried} (howner : ∀ s, s.BindingsSound → (owner s).state.BindingsSound)
    {s : State} (h : s.BindingsSound) : (s.complete i (State.storedWrite owner)).BindingsSound := by
  refine complete_bindings (fun u hu => ?_) h
  unfold State.storedWrite
  split
  · exact hu
  · exact howner u hu

/-- A request that leaves the tables. -/
theorem request_bindings {i : Instr} {owner : State → Carried} (howner : ∀ s, (owner s).state.tables = s.tables)
    {s : State} (h : s.BindingsSound) : (s.complete i owner).BindingsSound := complete_bindings (fun u hu => hu.of_tables (howner u)) h

/-- A request that reads. -/
theorem read_bindings {i : Instr} {owner : State → Carried} (howner : ∀ s, (owner s).state = s) {s : State} (h : s.BindingsSound) :
    (s.complete i owner).BindingsSound := request_bindings (fun u => by rw [howner]) h

/-- A write of a stored table that is none of these. -/
theorem otherWrite_bindings {i : Instr} {owner : State → Carried} (howner : ∀ s, (owner s).state.tables = s.tables)
    {s : State} (h : s.BindingsSound) : (s.complete i (State.storedWrite owner)).BindingsSound :=
  write_bindings (fun u hu => hu.of_tables (howner u)) h

/-- Every command keeps the laws of the binding table. -/
theorem exec_bindings {i : Instr} {s t : State} (he : exec i s = .next t) (h : s.BindingsSound) : t.BindingsSound := by
  cases i <;> cases he
  case powerOn =>
    split
    · exact stop_bindings _ h
    · exact startUp_bindings .powerOn (h.of_tables (withSpi_tables s none))
  case resetPinLow =>
    split
    · exact h
    · exact stop_bindings .held h
  case resetPinRelease =>
    split
    · exact h
    · exact startUp_bindings .pin (h.of_tables (withSpi_tables s none))
  case inputSettlingEnd =>
    split
    · exact h.of_tables (endSettling_tables s)
    · exact h
  case supplyLost => exact stop_bindings _ h
  case requestTransaction piece =>
    split
    · exact h.of_tables (shift_tables _ _ s)
    · exact h
  case fetch piece =>
    split
    · exact h.of_tables (fetch_tables _ _ s)
    · exact h
  case contactSample pins order => exact h.of_tables (contactSample_tables pins order s)
  case restart =>
    refine requestStep_keeps (fun _ p hs => hs.withPort p) (fun u hu => ?_) h
    split
    · exact hu
    · exact startUp_bindings .restart hu
  case readIdentity => exact read_bindings (fun _ => rfl) h
  case readAttention => exact read_bindings (fun _ => rfl) h
  case clearAttention flags => exact request_bindings (clearAttention_tables flags) h
  case setAttentionMask mask => exact otherWrite_bindings (setAttentionMask_tables mask) h
  case setCircuitConfig first last f => exact otherWrite_bindings (setCircuitConfig_tables first last f) h
  case readCircuitConfig first count => exact read_bindings (readCircuitConfig_state first count) h
  case claimLevel n code v fade => exact request_bindings (claimLevel_tables n code v fade) h
  case releaseLayer n code fade => exact request_bindings (releaseLayer_tables n code fade) h
  case readCircuitState first count => exact read_bindings (readCircuitState_state first count) h
  case addBinding r => exact write_bindings (fun _ => addBinding_bindings r) h
  case replaceBinding n r => exact write_bindings (fun _ => replaceBinding_bindings n r) h
  case retireBinding n => exact write_bindings (fun _ => retireBinding_bindings n) h
  case retireSource k => exact write_bindings (fun _ => retireSource_bindings k) h
  case disable n => exact write_bindings (fun _ => disable_bindings n) h
  case enable n => exact write_bindings (fun _ => enable_bindings n) h
  case readBinding n => exact read_bindings (readBinding_state n) h
  case findBindings k kind => exact read_bindings (findBindings_state k kind) h
  case injectEvent k kind => exact request_bindings (injectEvent_tables k kind) h
  case writeGroup g ranges => exact write_bindings (fun _ => writeGroup_bindings g ranges) h
  case deleteGroup g => exact write_bindings (fun _ => deleteGroup_bindings g) h
  case readGroup g first count => exact read_bindings (readGroup_state g first count) h
  case writeScene n fade entries => exact write_bindings (fun _ => writeScene_bindings n fade entries) h
  case extendScene n entries => exact write_bindings (fun _ => extendScene_bindings n entries) h
  case captureScene n fade ranges => exact write_bindings (fun _ => captureScene_bindings n fade ranges) h
  case deleteScene n => exact write_bindings (fun _ => deleteScene_bindings n) h
  case readScene n first count => exact read_bindings (readScene_state n first count) h
  case setMode m fade => exact request_bindings (setMode_tables m fade) h
  case readMode => exact read_bindings (fun _ => rfl) h
  case setModeOptions f => exact write_bindings (fun _ => setModeOptions_bindings f) h
  case setLineConfig line f => exact otherWrite_bindings (setLineConfig_tables line f) h
  case enrolStation line a buttons indicators => exact otherWrite_bindings (enrolStation_tables line a buttons indicators) h
  case unenrolStation line a => exact otherWrite_bindings (unenrolStation_tables line a) h
  case readStation line a => exact read_bindings (readStation_state line a) h
  case readLine line => exact read_bindings (readLine_state line) h
  case censusStart line => exact request_bindings (censusStart_tables line) h
  case censusRead line => exact read_bindings (censusRead_state line) h
  case setInputConfig n f => exact otherWrite_bindings (setInputConfig_tables n f) h
  case readInput n => exact read_bindings (readInput_state n) h
  case stageEntry stage circuit e => exact request_bindings (stageEntry_tables stage circuit e) h
  case stageClear stage => exact request_bindings (stageClear_tables stage) h
  case setStageTrigger stage trigger => exact request_bindings (setStageTrigger_tables stage trigger) h
  case standby stage => exact request_bindings (standby_tables stage) h
  case unstandby stage => exact request_bindings (unstandby_tables stage) h
  case go stage => exact request_bindings (go_tables stage) h
  case readStage stage first count => exact read_bindings (readStage_state stage first count) h
  case setLinkConfig period => exact otherWrite_bindings (setLinkConfig_tables period) h
  case readRackLink => exact read_bindings (fun _ => rfl) h
  case save => exact complete_bindings (fun _ => save_bindings) h
  case eraseStore => exact complete_bindings (fun _ => eraseStore_bindings) h
  case readStoreState => exact read_bindings (fun _ => rfl) h
  case saveOperationEnd verified => exact whenRunning_bindings (fun _ => endSave_bindings verified) h
  case eraseOperationEnd => exact whenRunning_bindings (fun _ => endErase_bindings) h
  case fadeTick => exact arrival_bindings (fun u => mapCircuits_tables u _) h
  case fadeComplete n l => exact arrival_bindings (onCircuit_tables n _) h
  case handoverEnd n => exact arrival_bindings (onCircuit_tables n _) h
  case nextExchange l => exact arrival_bindings (chooseExchange_tables l) h
  case exchangeSent l => exact arrival_bindings (fun u => withLine_tables l _ u) h
  case collision l => exact arrival_bindings (collide_tables l) h
  case reply l chars => exact arrival_bindings (endReply_tables l (some chars)) h
  case replyWindowEnd l => exact arrival_bindings (endReply_tables l none) h
  case lineBreak l => exact arrival_bindings (breakLine_tables l) h
  case faultRecovery l => exact arrival_bindings (recoverLine_tables l) h
  case roundWaitEnd l => exact arrival_bindings (endWait_tables l) h
  case acceptedClose n => exact arrival_bindings (onContact_tables n _ fun _ u => contactClosed_tables n _ u) h
  case holdTimeReached n => exact arrival_bindings (onContact_tables n _ fun _ u => contactHeld_tables n _ u) h
  case stuckTimeReached n => exact arrival_bindings (onContact_tables n _ fun _ u => contactStuck_tables n _ u) h
  case acceptedOpen n => exact arrival_bindings (onContact_tables n _ fun _ u => contactOpened_tables n _ u) h
  case maintainedChange n closed => exact arrival_bindings (onContact_tables n _ fun _ u => contactTurned_tables n _ u) h
  case safeAssert i => exact arrival_bindings (fun u => by split <;> simp) h
  case safeDeassert i => exact arrival_bindings (fun u => by split <;> simp) h
  case cueEvent c => exact arrival_bindings (fun u => by rw [State.cueHappens, cueArrives_tables, withCue_tables]) h
  case frameStart => exact arrival_bindings reachNextStart_tables h
  case frameEnd => exact arrival_bindings endFrame_tables h

/-- Settles O7: each command writes slot and index together, loads both at start-up, or leaves both. -/
theorem everyStepKeepsBindingsSound : Obligations.EveryStepKeepsBindingsSound := by
  intro s t hs h
  unfold step at h
  split at h
  · cases h; exact hs
  · exact exec_bindings h (hs.of_tables (withPending_tables s _))

end Sys2Proof.Machine

namespace Sys2Proof.Machine

/-! ## ADD and REPLACE BINDING (R43, R44) -/

/-- A write of a stored table carried out with OK, while the store is Ready (R149, R157). -/
theorem write_completes {i : Instr} {s u : State} {owner : State → Carried} {p : List Byte} (h : s.Serves i) (hready : s.store.state = .ready)
    (he : exec i s = .next (s.complete i (State.storedWrite owner))) (ho : owner (s.accept i) = u.done p)
    (hp : u.port = (s.accept i).port) : s.Completes (u.answer (requestEcho i) .ok p) i .ok p :=
  completes_done h he ((storedWrite_ready (s := s.accept i) hready owner).trans ho) hp

/-- A write of a stored table that its owner refuses, while the store is Ready. -/
theorem write_refuses {i : Instr} {s : State} {owner : State → Carried} {r : ResultCode} (h : s.Serves i) (hready : s.store.state = .ready)
    (he : exec i s = .next (s.complete i (State.storedWrite owner))) (ho : owner (s.accept i) = (s.accept i).refuse r) : s.Refuses i r :=
  refuses_of_owner h he ((storedWrite_ready (s := s.accept i) hready owner).trans ho)

theorem checkBinding_range {r : RawBinding} (h : bindingOf r = none) : checkBinding r = .error .range := by simp [checkBinding, h]

theorem checkBinding_mismatch {r : RawBinding} {b : Binding} (h : bindingOf r = some b) (ha : b.agrees = false) :
    checkBinding r = .error .mismatch := by simp [checkBinding, h, ha]

/-- ADD BINDING of a record that its checks refuse (R37, R38). -/
theorem addBinding_error {r : RawBinding} {e : ResultCode} (h : checkBinding r = .error e) (s : State) : s.addBinding r = s.refuse e := by
  simp only [State.addBinding, h]

/-- ADD BINDING of a record in a table with no Free slot (R43). -/
theorem addBinding_full {r : RawBinding} {b : Binding} {s : State} (h : checkBinding r = .ok b) (hfull : lowestFree s.slots = none) :
    s.addBinding r = s.refuse .tableFull := by simp only [State.addBinding, h, hfull]

/-- ADD BINDING of a record that some slot agrees with (R40, R43). -/
theorem addBinding_duplicate {r : RawBinding} {b : Binding} {n : Nat} {s : State} (h : checkBinding r = .ok b)
    (hn : lowestFree s.slots = some n) (hdup : duplicateOf s.slots b none = true) : s.addBinding r = s.refuse .duplicate := by
  simp only [State.addBinding, h, hn, if_pos hdup]

/-- ADD BINDING of a record whose pair has eight already (R40, R43). -/
theorem addBinding_keyFull {r : RawBinding} {b : Binding} {n : Nat} {s : State} (h : checkBinding r = .ok b)
    (hn : lowestFree s.slots = some n) (hdup : duplicateOf s.slots b none = false) (hfull : 8 ≤ (indexList s.index b.key b.kind).length) :
    s.addBinding r = s.refuse .keyFull := by
  simp only [State.addBinding, h, hn, hdup, Bool.false_eq_true, if_false, if_pos hfull]

/-- ADD BINDING accepted (R43). -/
theorem addBinding_ok {r : RawBinding} {b : Binding} {n : Nat} {s : State} (h : checkBinding r = .ok b)
    (hn : lowestFree s.slots = some n) (hdup : duplicateOf s.slots b none = false) (hroom : (indexList s.index b.key b.kind).length < 8) :
    s.addBinding r = ((s.putSlot n (.live b)).withIndex (indexInsert b.key b.kind n s.index)).done (be2 n) := by
  simp only [State.addBinding, h, hn, hdup, Bool.false_eq_true, if_false, if_neg (Nat.not_le_of_lt hroom)]

/-- A list of the index after slot `n` was written: as it was but for `n`, which stands in it where its record is of the pair (R41). -/
theorem Indexed.mem_set {slots : List Slot} {index index' : List IndexEntry} (h : Indexed slots index) {n : Nat} {x : Slot}
    (hn : n < slots.length) (h' : Indexed (slots.set n x) index') (m : Nat) (k : SourceKey) (e : EventKind) :
    m ∈ indexList index' k e ↔ m ≠ n ∧ m ∈ indexList index k e ∨ m = n ∧ ∃ b, x.record = some b ∧ b.key = k ∧ b.kind = e := by
  rw [h'.agrees.mem, h.agrees.mem, slotAt_set]
  by_cases hm : m = n <;> simp [hm, hn]

/-- The slots after one was written. -/
theorem slotAt_set_self {slots : List Slot} {n : Nat} (h : n < slots.length) (x : Slot) : slotAt (slots.set n x) n = x := by
  rw [slotAt_set, if_pos ⟨rfl, h⟩]

theorem slotAt_set_of_ne {m n : Nat} (h : m ≠ n) (slots : List Slot) (x : Slot) : slotAt (slots.set n x) m = slotAt slots m := by
  rw [slotAt_set, if_neg fun hm => h hm.1]

/-- Settles O33: the checks in their order, and a Free slot that gets a record. -/
theorem addBindingWritesTheLowestFreeSlot : Obligations.AddBindingWritesTheLowestFreeSlot := by
  intro r s hserves hready
  refine ⟨fun b n hsound hb hn hfree hbelow hdup hfew => ?_,
    fun hb => write_refuses hserves hready rfl (addBinding_error (checkBinding_range hb) _),
    fun b hb ha => write_refuses hserves hready rfl (addBinding_error (checkBinding_mismatch hb ha) _),
    fun b hb => ⟨fun hfull => ?_, fun ⟨x, hx, hxfree⟩ => ?_⟩⟩
  · obtain ⟨hx, -⟩ := bindingsSound_iff.1 hsound
    have hlt : n < s.slots.length := by rw [hx.legal.1]; exact hn
    have hlist : (indexList s.index b.key b.kind).length < 8 := by rw [hx.agrees.1]; exact hfew
    have hnew := hx.insert hlt hfree (x := .live b) rfl (checkBinding_legal hb)
      ⟨fun m c _ => hdup m c, (List.length_filter_le _ _).trans_lt hfew⟩
    refine ⟨_, write_completes hserves hready rfl (addBinding_ok (s := s.accept (.addBinding r)) hb (lowestFree_eq_some.2 ⟨hlt, hfree, hbelow⟩)
      (duplicateOf_eq_false.2 fun m c _ => hdup m c) hlist) rfl, rfl, slotAt_set_self hlt _, fun m hm => slotAt_set_of_ne hm _ _,
      fun m k e => (hx.mem_set hlt hnew m k e).trans ?_⟩
    have hout : n ∉ indexList s.index k e := by
      rw [hx.agrees.mem, hfree]
      rintro ⟨c, hc, -⟩
      cases hc
    have hpair : (∃ c, (Slot.live b).record = some c ∧ c.key = k ∧ c.kind = e) ↔ k = b.key ∧ e = b.kind := by
      simp [Slot.record, eq_comm]
    rw [hpair]
    by_cases hm : m = n
    · subst hm; simp [hout]
    · simp [hm]
  · exact write_refuses hserves hready rfl (addBinding_full (s := s.accept (.addBinding r)) hb (lowestFree_eq_none.2 hfull))
  · obtain ⟨n, hn⟩ : ∃ n, lowestFree s.slots = some n :=
      Option.ne_none_iff_exists'.1 fun hnone => lowestFree_eq_none.1 hnone x hx hxfree
    refine ⟨fun m c hc hsame => write_refuses hserves hready rfl (addBinding_duplicate (s := s.accept (.addBinding r)) hb hn ?_),
      fun hdup hfull => write_refuses hserves hready rfl (addBinding_keyFull (s := s.accept (.addBinding r)) hb hn
        (duplicateOf_eq_false.2 fun m c _ => hdup m c) hfull)⟩
    by_contra hdup
    rw [duplicateOf_eq_false.1 (Bool.eq_false_iff.2 hdup) m c nofun hc] at hsame
    cases hsame

/-- The slots of the table, R35. -/
theorem slotRange {n : Nat} (h : n ≤ 1023) : (!within 0 1023 n) = false := by simp [h]

/-- REPLACE BINDING accepted (R44). -/
theorem replaceBinding_ok {n : Nat} {r : RawBinding} {old b : Binding} {s : State} (hn : n ≤ 1023)
    (hold : (slotAt s.slots n).record = some old) (hb : checkBinding r = .ok b) (hdup : duplicateOf s.slots b (some n) = false)
    (hroom : othersOf s.index b n < 8) :
    s.replaceBinding n r
      = (((s.clearSlotClaims n).putSlot n ((slotAt s.slots n).rewrite b)).withIndex (replaceInIndex old b n s.index)).done [] := by
  simp only [State.replaceBinding, slotRange hn, hold, hb, hdup, Bool.false_eq_true, if_false, if_neg (Nat.not_le_of_lt hroom)]

/-- Settles O34: the slot's record and its place in the index are replaced, and its claims cleared. -/
theorem replaceBindingRewritesItsSlot : Obligations.ReplaceBindingRewritesItsSlot := by
  intro n r old b s hserves hready hsound hn hold hb hdup hfew
  obtain ⟨hx, -⟩ := bindingsSound_iff.1 hsound
  have hlt := lt_of_record hold
  have hrecord := Slot.rewrite_record hold b
  have hothers : othersOf s.index b n < 8 := by rw [othersOf, hx.agrees.1]; exact hfew
  have hnew := hx.replace hold hrecord (checkBinding_legal hb) ⟨hdup, hfew⟩
  have hself := slotAt_set_self hlt ((slotAt s.slots n).rewrite b)
  refine ⟨_, write_completes hserves hready rfl (replaceBinding_ok (s := s.accept (.replaceBinding n r)) hn hold hb
    (duplicateOf_eq_false.2 fun m c hm => hdup m c (by simpa using hm)) hothers) rfl, rfl, fun hlive => hself.trans (by rw [hlive]; rfl),
    fun hdisabled => hself.trans (by rw [hdisabled]; rfl), fun m hm => slotAt_set_of_ne hm _ _, fun m k e => (hx.mem_set hlt hnew m k e).trans ?_⟩
  simp [hrecord, eq_comm]

/-! ## RETIRE BINDING and RETIRE SOURCE (R45, R46) -/

/-- A slot with a record retired (R45). -/
theorem retire_of_record {n : Nat} {b : Binding} {s : State} (h : (slotAt s.slots n).record = some b) :
    s.retire n = ((s.clearSlotClaims n).withIndex (indexRemove b.key b.kind n s.index)).putSlot n .free := by
  simp only [State.retire, h]

/-- RETIRE BINDING accepted (R45). -/
theorem retireBinding_ok {n : Nat} {b : Binding} {s : State} (hn : n ≤ 1023) (h : (slotAt s.slots n).record = some b) :
    s.retireBinding n = (((s.clearSlotClaims n).withIndex (indexRemove b.key b.kind n s.index)).putSlot n .free).done [] := by
  simp only [State.retireBinding, slotRange hn, h, Option.isNone_some, Bool.false_eq_true, if_false, retire_of_record h]

/-- What a retirement can touch: the circuits, the slots and the index. -/
def RetireFrame (s t : State) : Prop := t = { s with circuits := t.circuits, slots := t.slots, index := t.index }

theorem RetireFrame.trans {s t u : State} (h : RetireFrame s t) (k : RetireFrame t u) : RetireFrame s u := by
  unfold RetireFrame at *
  rw [h] at k
  exact k

theorem retire_frame (n : Nat) (s : State) : RetireFrame s (s.retire n) := by
  unfold State.retire
  split <;> rfl

/-- The slots after a retirement: a Free slot is left as it is. -/
theorem slotAt_retire (n m : Nat) (s : State) : slotAt (s.retire n).slots m = if m = n then .free else slotAt s.slots m := by
  cases h : (slotAt s.slots n).record with
  | none =>
    have hfree := Slot.record_eq_none.1 h
    have hleft : (s.retire n).slots = s.slots := by simp only [State.retire, h]
    rw [hleft]
    split
    · next hm => rw [hm, hfree]
    · rfl
  | some b =>
    rw [retire_of_record h]
    show slotAt (s.slots.set n .free) m = _
    rw [slotAt_set]
    simp [lt_of_record h]

theorem retireAll_cons (n : Nat) (ns : List Nat) (s : State) : s.retireAll (n :: ns) = (s.retire n).retireAll ns := rfl

theorem retireAll_frame (ns : List Nat) (s : State) : RetireFrame s (s.retireAll ns) := by
  induction ns generalizing s with
  | nil => rfl
  | cons n ns ih => exact (retire_frame n s).trans (ih _)

theorem slotAt_retireAll (ns : List Nat) (m : Nat) (s : State) :
    slotAt (s.retireAll ns).slots m = if m ∈ ns then .free else slotAt s.slots m := by
  induction ns generalizing s with
  | nil => simp [State.retireAll]
  | cons n ns ih =>
    rw [retireAll_cons, ih, slotAt_retire]
    by_cases hm : m = n <;> simp [hm]

/-- The claims of slots cleared one after the other on a circuit (R42, R46). -/
def Circuit.clearSlots (ns : List Nat) (c : Circuit) : Circuit := ns.foldl (fun c n => c.clearSlot n) c

/-- The circuits after the retirement of slots with a record, each named once. -/
theorem retireAll_circuits {ns : List Nat} (hnodup : ns.Nodup) {s : State} (h : ∀ n ∈ ns, (slotAt s.slots n).record ≠ none) :
    (s.retireAll ns).circuits = s.circuits.map (Circuit.clearSlots ns) := by
  induction ns generalizing s with
  | nil => exact (List.map_id s.circuits).symm
  | cons n ns ih =>
    obtain ⟨hn, hns⟩ := List.nodup_cons.1 hnodup
    obtain ⟨b, hb⟩ := Option.ne_none_iff_exists'.1 (h n (by simp))
    rw [retireAll_cons, ih hns fun m hm => ?_]
    · rw [retire_of_record hb]
      show (s.circuits.map (Circuit.clearSlot n)).map _ = _
      rw [List.map_map]
      rfl
    · rw [slotAt_retire, if_neg fun hmn : m = n => hn (hmn ▸ hm)]
      exact h m (by simp [hm])

/-- A circuit whose Local claim is not slot `n`'s is left (R42). -/
theorem Circuit.clearSlot_of_other {n : Nat} {c : Circuit} (h : ∀ cl, c.local' = some cl → LocalOwner.hasSlot n cl.owner = false) :
    c.clearSlot n = c := by
  unfold Circuit.clearSlot Circuit.endMovement
  cases hl : c.local' with
  | none => simp [hl]
  | some cl => simp [hl, h cl hl]

theorem Circuit.clearSlots_of_other {ns : List Nat} {c : Circuit}
    (h : ∀ n ∈ ns, ∀ cl, c.local' = some cl → LocalOwner.hasSlot n cl.owner = false) : c.clearSlots ns = c := by
  induction ns with
  | nil => rfl
  | cons n ns ih =>
    show (c.clearSlot n).clearSlots ns = c
    rw [Circuit.clearSlot_of_other (h n (by simp))]
    exact ih fun m hm => h m (by simp [hm])

/-- A slot's claim that is cleared has no owner (R42). -/
theorem Circuit.clearSlot_owner {n : Nat} {f : Form} {k : SourceKey} {c : Circuit} (h : c.local' = some ⟨f, some (n, k)⟩)
    {cl : Claim LocalOwner} (hcl : (c.clearSlot n).local' = some cl) : cl.owner = none := by
  have howner : LocalOwner.hasSlot n (some (n, k)) = true := by simp [LocalOwner.hasSlot]
  unfold Circuit.clearSlot Circuit.endMovement at hcl
  cases hm : f.isMoving <;> simp only [h, howner, hm, Bool.and_true, Bool.and_false, if_true, Bool.false_eq_true, if_false,
    Circuit.recompute_local, Option.some.injEq] at hcl <;> exact hcl ▸ rfl

/-- A circuit whose Local claim is that of one of the slots has it cleared once (R42). -/
theorem Circuit.clearSlots_of_owner {ns : List Nat} {n : Nat} (hn : n ∈ ns) {f : Form} {k : SourceKey} {c : Circuit}
    (h : c.local' = some ⟨f, some (n, k)⟩) : c.clearSlots ns = c.clearSlot n := by
  induction ns with
  | nil => cases hn
  | cons m ns ih =>
    show (c.clearSlot m).clearSlots ns = _
    by_cases hm : m = n
    · subst hm
      refine Circuit.clearSlots_of_other fun l _ cl hcl => ?_
      rw [Circuit.clearSlot_owner h hcl]
      rfl
    · have hother : ∀ cl, c.local' = some cl → LocalOwner.hasSlot m cl.owner = false := fun cl hcl => by
        rw [h] at hcl
        cases hcl
        simpa [LocalOwner.hasSlot] using Ne.symm hm
      rw [Circuit.clearSlot_of_other hother]
      exact ih (List.mem_of_ne_of_mem (Ne.symm hm) hn)

/-- Whether a slot holds a record of a source key (R46). -/
def Slot.ofKey (k : SourceKey) (x : Slot) : Bool := x.record.any fun b => decide (b.key = k)

theorem mem_foldl_insertAscending (m : Nat) (ns l : List Nat) :
    m ∈ ns.foldl (fun l n => insertAscending n l) l ↔ m ∈ ns ∨ m ∈ l := by
  induction ns generalizing l with
  | nil => simp
  | cons n ns ih => rw [List.foldl_cons, ih, mem_insertAscending, List.mem_cons]; tauto

theorem foldl_insertAscending_ascending (ns : List Nat) {l : List Nat} (h : l.Pairwise (· < ·)) :
    (ns.foldl (fun l n => insertAscending n l) l).Pairwise (· < ·) := by
  induction ns generalizing l with
  | nil => exact h
  | cons n ns ih => exact ih (insertAscending_ascending n l h)

/-- The slots of a key's lists are those with a record of it (R41, R46). -/
theorem mem_slotsOfKey {slots : List Slot} {index : List IndexEntry} (h : IndexAgrees index slots) {k : SourceKey} {n : Nat} :
    n ∈ slotsOfKey index k ↔ (slotAt slots n).ofKey k = true := by
  simp only [slotsOfKey, mem_foldl_insertAscending, List.mem_flatMap, List.mem_filter, decide_eq_true_eq, List.not_mem_nil, or_false,
    Slot.ofKey, Option.any_eq_true]
  have hindex := indexAgrees_iff.1 h
  constructor
  · rintro ⟨x, ⟨hx, rfl⟩, hn⟩
    rw [← indexList_of_mem hindex.sorted hx, h.mem] at hn
    obtain ⟨b, hb, hkey, -⟩ := hn
    exact ⟨b, hb, hkey⟩
  · rintro ⟨b, hb, rfl⟩
    have hn := (h.mem n b.key b.kind).2 ⟨b, hb, rfl, rfl⟩
    obtain ⟨x, hx, hkey, hmem⟩ := exists_of_mem_indexList hn
    exact ⟨x, ⟨hx, hkey⟩, hmem⟩

theorem slotsOfKey_ascending (index : List IndexEntry) (k : SourceKey) : (slotsOfKey index k).Pairwise (· < ·) :=
  foldl_insertAscending_ascending _ .nil

/-- RETIRE SOURCE's slots, read from the table. -/
theorem slotsOfKey_eq {slots : List Slot} {index : List IndexEntry} (h : Indexed slots index) (k : SourceKey) :
    slotsOfKey index k = (List.range 1024).filter fun n => (slotAt slots n).ofKey k := by
  refine (slotsOfKey_ascending index k).eq_of_mem_iff (List.pairwise_lt_range.filter _) fun n => ?_
  rw [mem_slotsOfKey h.agrees, List.mem_filter, List.mem_range]
  refine ⟨fun hn => ⟨?_, hn⟩, And.right⟩
  obtain ⟨b, hb, -⟩ := (Option.any_eq_true _ _).1 hn
  exact (lt_of_record hb).trans_eq h.legal.1

/-- RETIRE SOURCE accepted (R46). -/
theorem retireSource_ok {raw : RawKey} {k : SourceKey} (h : keyOf raw = some k) (s : State) :
    s.retireSource raw = (s.retireAll (slotsOfKey s.index k)).done (be1 (slotsOfKey s.index k).length) := by
  simp only [State.retireSource, h]

/-- The index after a source key is retired: its lists are gone, the others as they were (R41, R46). -/
theorem indexList_of_freed {slots slots' : List Slot} {index index' : List IndexEntry} (h : IndexAgrees index slots)
    (h' : IndexAgrees index' slots') {key : SourceKey}
    (hslots : ∀ n, slotAt slots' n = if (slotAt slots n).ofKey key then .free else slotAt slots n) (k : SourceKey) (e : EventKind) :
    indexList index' k e = if k = key then [] else indexList index k e := by
  have hmem (n : Nat) : n ∈ indexList index' k e ↔ k ≠ key ∧ n ∈ indexList index k e := by
    rw [h'.mem, h.mem, hslots]
    constructor
    · rintro ⟨b, hb, hkey, hkind⟩
      split at hb
      · cases hb
      · next hno => exact ⟨fun hk => hno (by simp [Slot.ofKey, hb, hkey, hk]), b, hb, hkey, hkind⟩
    · rintro ⟨hk, b, hb, rfl, hkind⟩
      have hno : (slotAt slots n).ofKey key = false := by simpa [Slot.ofKey, hb] using hk
      exact ⟨b, by simpa [hno] using hb, rfl, hkind⟩
  split
  · next hk => exact List.eq_nil_iff_forall_not_mem.2 fun n hn => ((hmem n).1 hn).1 hk
  · next hk =>
    exact ((indexAgrees_iff.1 h').ascending k e).eq_of_mem_iff ((indexAgrees_iff.1 h).ascending k e) fun n => by
      simpa [hk] using hmem n

/-- What the retirement of a source key's slots does (R42, R45, R46). -/
theorem retireAll_ofKey {s : State} (h : s.BindingsSound) (key : SourceKey) :
    (∀ n, slotAt (s.retireAll (slotsOfKey s.index key)).slots n = if (slotAt s.slots n).ofKey key then .free else slotAt s.slots n)
      ∧ (∀ k e, indexList (s.retireAll (slotsOfKey s.index key)).index k e = if k = key then [] else indexList s.index k e)
      ∧ (s.retireAll (slotsOfKey s.index key)).circuits = s.circuits.map (Circuit.clearSlots (slotsOfKey s.index key)) := by
  obtain ⟨hx, -⟩ := bindingsSound_iff.1 h
  obtain ⟨hnew, -⟩ := bindingsSound_iff.1 (retireAll_bindings (slotsOfKey s.index key) h)
  have hslots (n : Nat) : slotAt (s.retireAll (slotsOfKey s.index key)).slots n
      = if (slotAt s.slots n).ofKey key then .free else slotAt s.slots n := by
    rw [slotAt_retireAll]
    simp only [mem_slotsOfKey hx.agrees]
  refine ⟨hslots, indexList_of_freed hx.agrees hnew.agrees hslots, ?_⟩
  refine retireAll_circuits ((slotsOfKey_ascending _ _).imp Nat.ne_of_lt) fun n hn hnone => ?_
  have hkey := (mem_slotsOfKey hx.agrees).1 hn
  simp [Slot.ofKey, hnone] at hkey

/-- Settles O35: one slot retired, and the slots of a key retired one after the other. -/
theorem retiringFreesTheSlotsAndClearsTheirClaims : Obligations.RetiringFreesTheSlotsAndClearsTheirClaims := by
  intro s hready hsound
  obtain ⟨hx, -⟩ := bindingsSound_iff.1 hsound
  refine ⟨fun n b hserves hn hb => ?_, fun raw key hserves hkey => ?_⟩
  · have hlt := lt_of_record hb
    refine ⟨_, write_completes hserves hready rfl (retireBinding_ok (s := s.accept (.retireBinding n)) hn hb) rfl, rfl,
      slotAt_set_self hlt _, fun m hm => slotAt_set_of_ne hm _ _, fun m k e => (hx.mem_set hlt (hx.remove hb) m k e).trans ?_⟩
    simp [Slot.record]
  · have hok := retireSource_ok hkey (s.accept (.retireSource raw))
    have hframe := retireAll_frame (slotsOfKey s.index key) (s.accept (.retireSource raw))
    obtain ⟨hslots, hindex, hcircuits⟩ := retireAll_ofKey (s := s.accept (.retireSource raw)) hsound key
    have hmem (n : Nat) : n ∈ slotsOfKey s.index key ↔ (slotAt s.slots n).ofKey key = true := mem_slotsOfKey hx.agrees
    have hcount := congrArg List.length (slotsOfKey_eq hx key)
    simp only [accept_index, accept_slots, accept_circuits] at hok hslots hindex hcircuits
    generalize (s.accept (.retireSource raw)).retireAll (slotsOfKey s.index key) = u at *
    unfold RetireFrame at hframe
    rw [hcount] at hok
    refine ⟨_, write_completes hserves hready rfl hok (by rw [hframe]), by rw [hframe]; rfl, hslots, hindex, ?_, fun c x hc => ?_⟩
    · rw [answer_circuits, hcircuits, List.length_map]
    · rw [answer_circuits, hcircuits, circuitAt_map, hc, Option.map_some]
      rcases hl : x.local' with _ | ⟨f, _ | ⟨n, k⟩⟩
      · exact congrArg some (Circuit.clearSlots_of_other fun n _ cl hcl => by rw [hl] at hcl; cases hcl)
      · exact congrArg some (Circuit.clearSlots_of_other fun n _ cl hcl => by rw [hl] at hcl; cases hcl; rfl)
      · refine congrArg some ?_
        dsimp only
        split
        · next hn => exact Circuit.clearSlots_of_owner ((hmem n).2 hn) hl
        · next hn =>
          refine Circuit.clearSlots_of_other fun m hm cl hcl => ?_
          rw [hl] at hcl
          cases hcl
          have hne : n ≠ m := fun hnm => hn ((hmem n).1 (hnm ▸ hm))
          simpa [LocalOwner.hasSlot] using hne

/-! ## DISABLE and ENABLE (R47, R48) -/

theorem disable_live {n : Nat} {b : Binding} {s : State} (hn : n ≤ 1023) (h : slotAt s.slots n = .live b) :
    s.disable n = ((s.endSlotMovement n).putSlot n (.disabled b)).done [] := by
  simp only [State.disable, slotRange hn, h, Bool.false_eq_true, if_false]

theorem disable_disabled {n : Nat} {b : Binding} {s : State} (hn : n ≤ 1023) (h : slotAt s.slots n = .disabled b) :
    s.disable n = s.done [] := by simp only [State.disable, slotRange hn, h, Bool.false_eq_true, if_false]

theorem disable_free {n : Nat} {s : State} (hn : n ≤ 1023) (h : slotAt s.slots n = .free) : s.disable n = s.refuse .notFound := by
  simp only [State.disable, slotRange hn, h, Bool.false_eq_true, if_false]

theorem enable_disabled {n : Nat} {b : Binding} {s : State} (hn : n ≤ 1023) (h : slotAt s.slots n = .disabled b) :
    s.enable n = (s.putSlot n (.live b)).done [] := by simp only [State.enable, slotRange hn, h, Bool.false_eq_true, if_false]

theorem enable_live {n : Nat} {b : Binding} {s : State} (hn : n ≤ 1023) (h : slotAt s.slots n = .live b) : s.enable n = s.done [] := by
  simp only [State.enable, slotRange hn, h, Bool.false_eq_true, if_false]

theorem enable_free {n : Nat} {s : State} (hn : n ≤ 1023) (h : slotAt s.slots n = .free) : s.enable n = s.refuse .notFound := by
  simp only [State.enable, slotRange hn, h, Bool.false_eq_true, if_false]

/-- Settles O36: each request by the state of its slot. -/
theorem disableAndEnableTurnASlot : Obligations.DisableAndEnableTurnASlot := by
  intro n s hready hlength hn
  have hlt : n < s.slots.length := by omega
  refine ⟨fun hserves => ⟨fun b hb => ?_, fun b hb => ?_, fun hfree => ?_⟩, fun hserves => ⟨fun b hb => ?_, fun b hb => ?_, fun hfree => ?_⟩⟩
  · exact ⟨_, write_completes hserves hready rfl (disable_live (s := s.accept (.disable n)) hn hb) rfl, rfl, slotAt_set_self hlt _,
      fun m hm => slotAt_set_of_ne hm _ _⟩
  · exact ⟨_, write_completes hserves hready rfl (disable_disabled (s := s.accept (.disable n)) hn hb) rfl, rfl⟩
  · exact write_refuses hserves hready rfl (disable_free (s := s.accept (.disable n)) hn hfree)
  · exact ⟨_, write_completes hserves hready rfl (enable_disabled (s := s.accept (.enable n)) hn hb) rfl, rfl, slotAt_set_self hlt _,
      fun m hm => slotAt_set_of_ne hm _ _⟩
  · exact ⟨_, write_completes hserves hready rfl (enable_live (s := s.accept (.enable n)) hn hb) rfl, rfl⟩
  · exact write_refuses hserves hready rfl (enable_free (s := s.accept (.enable n)) hn hfree)

end Sys2Proof.Machine

namespace Sys2Proof.Machine

/-! ## Events carried out while a request is being served (R51, R54, R69) -/

/-- A mode change does not look at the request that the port carries out. -/
theorem changeMode_accept (m : Mode) (fade : Nat) (i : Instr) (s : State) : (s.accept i).changeMode m fade = (s.changeMode m fade).accept i := by
  have hp : (s.accept i).changeMode m fade = _ := changeMode_withPort m fade _ s
  rw [hp]
  unfold State.changeMode
  by_cases h : s.mode = m
  · simp only [if_pos h]; rfl
  · simp only [if_neg h]; rfl

/-- Neither does a binding of a matching set. -/
theorem carryOut_accept (k : SourceKey) (i : Instr) (s : State) (nb : Nat × Binding) :
    (s.accept i).carryOut k nb = (s.carryOut k nb).accept i := by
  by_cases ha : nb.2.action = .recall ∨ nb.2.action = .mode
  · unfold State.carryOut
    rcases ha with ha | ha <;> simp only [ha]
    · cases nb.2.target with
      | scene n => simp only [accept_scenes]; split <;> rfl
      | circuit n => rfl
      | group g => rfl
      | mode m => rfl
    · cases nb.2.target with
      | mode m => exact changeMode_accept m _ i s
      | circuit n => rfl
      | group g => rfl
      | scene n => rfl
  · obtain ⟨hr, hm⟩ := not_or.1 ha
    rw [carryOut_forCircuits _ _ _ hr hm, carryOut_forCircuits _ _ _ hr hm]
    rfl

/-- An event is resolved the same whatever request the port carries out. -/
theorem resolve_accept (k : SourceKey) (e : EventKind) (i : Instr) (s : State) : (s.accept i).resolve k e = (s.resolve k e).accept i := by
  have hsource : (s.accept i).endBySource k e = (s.endBySource k e).accept i := by cases e <;> rfl
  have hfold (l : List (Nat × Binding)) (u : State) : l.foldl (State.carryOut k) (u.accept i) = (l.foldl (State.carryOut k) u).accept i := by
    induction l generalizing u with
    | nil => rfl
    | cons nb l ih => rw [List.foldl_cons, carryOut_accept, ih]; rfl
  show (s.matching k e).foldl (State.carryOut k) ((s.accept i).endBySource k e) = _
  rw [hsource, hfold]
  rfl

/-- The flags in the order of their bits (R164). -/
def allFlags : List Flag :=
  [.started, .storeBlank, .storeDone, .storeFail, .modeChanged, .safeChange, .cueIgnored, .stationSilent, .stationBack, .eventsLost,
    .lineFault, .inputStuck, .censusDone]

theorem allFlags_bit (f : Flag) : allFlags[f.bit]? = some f := by cases f <;> rfl

theorem Flag.bit_injective {f g : Flag} (h : f.bit = g.bit) : f = g :=
  Option.some.inj (by rw [← allFlags_bit f, h, allFlags_bit])

/-- A flag that is raised leaves every other as it is (R152). -/
theorem Port.raise_isSet_of_ne {f g : Flag} (h : f ≠ g) (p : Port) : (p.raise g).isSet f = p.isSet f := by
  have hbit : g.bit ≠ f.bit := fun hb => h (Flag.bit_injective hb.symm)
  simp [Port.raise, Port.isSet, Flag.only, BitVec.getLsbD_twoPow, hbit]

/-- A mode change raises MODE_CHANGED alone (R89). -/
theorem changeMode_isSet {f : Flag} (h : f ≠ .modeChanged) (m : Mode) (fade : Nat) (s : State) :
    (s.changeMode m fade).port.isSet f = s.port.isSet f := by
  rw [Port.isSet, changeMode_flags]
  split
  · rfl
  · exact Port.raise_isSet_of_ne h _

theorem carryOut_isSet {f : Flag} (h : f ≠ .modeChanged) (k : SourceKey) (s : State) (nb : Nat × Binding) :
    (s.carryOut k nb).port.isSet f = s.port.isSet f := by
  by_cases ha : nb.2.action = .recall ∨ nb.2.action = .mode
  · unfold State.carryOut
    rcases ha with ha | ha <;> simp only [ha]
    · split
      · split <;> rfl
      · rfl
    · split
      · exact changeMode_isSet h _ _ s
      · rfl
  · obtain ⟨hr, hm⟩ := not_or.1 ha
    rw [carryOut_forCircuits _ _ _ hr hm]
    rfl

/-- An event raises MODE_CHANGED alone (R54, R89). -/
theorem resolve_isSet {f : Flag} (h : f ≠ .modeChanged) (k : SourceKey) (e : EventKind) (s : State) :
    (s.resolve k e).port.isSet f = s.port.isSet f := by
  have hsource : (s.endBySource k e).port = s.port := by cases e <;> rfl
  have hfold (l : List (Nat × Binding)) (u : State) : (l.foldl (State.carryOut k) u).port.isSet f = u.port.isSet f := by
    induction l generalizing u with
    | nil => rfl
    | cons nb l ih => rw [List.foldl_cons, ih, carryOut_isSet h]
  rw [State.resolve, hfold, hsource]

/-- What slot `n` brings to a matching set: its number and record, where it is Live and its mask holds the house mode (R51). -/
def State.matchAt (s : State) (n : Nat) : Option (Nat × Binding) :=
  match (slotAt s.slots n).liveRecord with
  | none => none
  | some b => if b.mask.has s.mode then some (n, b) else none

theorem matching_eq (s : State) (k : SourceKey) (e : EventKind) : s.matching k e = (indexList s.index k e).filterMap s.matchAt := rfl

theorem matchAt_eq_some {s : State} {m n : Nat} {b : Binding} :
    s.matchAt m = some (n, b) ↔ m = n ∧ slotAt s.slots m = .live b ∧ b.mask.has s.mode = true := by
  rw [← Slot.liveRecord_eq_some, State.matchAt]
  cases (slotAt s.slots m).liveRecord with
  | none => simp
  | some c => by_cases hc : c.mask.has s.mode = true <;> grind

/-- A binding of a matching set, by its slot (R51). -/
theorem mem_matching {s : State} (h : IndexAgrees s.index s.slots) {k : SourceKey} {e : EventKind} {n : Nat} {b : Binding} :
    (n, b) ∈ s.matching k e ↔ slotAt s.slots n = .live b ∧ b.key = k ∧ b.kind = e ∧ b.mask.has s.mode = true := by
  rw [matching_eq, List.mem_filterMap]
  constructor
  · rintro ⟨m, hm, hr⟩
    obtain ⟨rfl, hslot, hmask⟩ := matchAt_eq_some.1 hr
    obtain ⟨c, hc, hkey, hkind⟩ := (h.mem m k e).1 hm
    rw [hslot] at hc
    cases hc
    exact ⟨hslot, hkey, hkind, hmask⟩
  · rintro ⟨hslot, hkey, hkind, hmask⟩
    exact ⟨n, (h.mem n k e).2 ⟨b, by rw [hslot]; rfl, hkey, hkind⟩, matchAt_eq_some.2 ⟨rfl, hslot, hmask⟩⟩

/-- A matching set stands in slot order (R51). -/
theorem matching_ascending {s : State} (h : IndexAgrees s.index s.slots) (k : SourceKey) (e : EventKind) :
    ((s.matching k e).map (·.1)).Pairwise (· < ·) := by
  rw [matching_eq, List.pairwise_map]
  refine ((indexAgrees_iff.1 h).ascending k e).filterMap _ fun m n hlt p hp q hq => ?_
  rw [← (matchAt_eq_some.1 hp).1, ← (matchAt_eq_some.1 hq).1]
  exact hlt

/-- INJECT EVENT accepted (R69). -/
theorem injectEvent_ok {raw : RawKey} {kind : Nat} {k : SourceKey} {e : EventKind} (hk : keyOf raw = some k) (he : kindOf kind = some e)
    (hs : kindSuits k e = true) (s : State) : s.injectEvent raw kind = (s.resolve k e).done (be1 (s.matching k e).length) := by
  simp only [State.injectEvent, hk, he, if_pos hs]

/-- INJECT EVENT of a kind that does not suit the key (R69). -/
theorem injectEvent_mismatch {raw : RawKey} {kind : Nat} {k : SourceKey} {e : EventKind} (hk : keyOf raw = some k)
    (he : kindOf kind = some e) (hs : kindSuits k e = false) (s : State) : s.injectEvent raw kind = s.refuse .mismatch := by
  simp only [State.injectEvent, hk, he, hs, Bool.false_eq_true, if_false]

/-- Settles O38: the event is resolved as if no request were carried out, and then answered. -/
theorem anInjectedEventIsResolvedAsAnArrival : Obligations.AnInjectedEventIsResolvedAsAnArrival := by
  intro raw kind k e s hserves hk he
  refine ⟨fun hs => ?_, fun hsound => ⟨matching_ascending hsound.2.1 k e, fun n b => mem_matching hsound.2.1⟩,
    fun hs => refuses_of_owner hserves rfl (injectEvent_mismatch hk he hs _)⟩
  have hexec : exec (.injectEvent raw kind) s = .next (((s.resolve k e).accept (.injectEvent raw kind)).answer
      (requestEcho (.injectEvent raw kind)) .ok (be1 (s.matching k e).length)) := by
    show Host.Outcome.next _ = _
    rw [complete_of_serves hserves, injectEvent_ok hk he hs, resolve_accept]
    rfl
  have hframe := resolve_frame k e s
  refine ⟨_, hexec, rfl, rfl, ?_, fun f hf => resolve_isSet hf k e s, fun l => ?_⟩
  · have hstate := hframe.state
    generalize s.resolve k e = u at hstate
    rw [hstate]
    rfl
  · cases l
    · exact hframe.lineA
    · exact hframe.lineB

end Sys2Proof.Machine

namespace Sys2Proof.Machine

/-! ## Reads of the records (R49, R50, R75, R82, R111, R114, R121, R138) -/

theorem readBinding_ok {n : Nat} {b : Binding} {s : State} (hn : n ≤ 1023) (h : (slotAt s.slots n).record = some b) :
    s.readBinding n = s.done (slotBytes (slotAt s.slots n) b) := by
  simp only [State.readBinding, slotRange hn, h, Bool.false_eq_true, if_false]

theorem findBindings_ok {raw : RawKey} {kind : Nat} {k : SourceKey} {e : EventKind} (hk : keyOf raw = some k) (he : kindOf kind = some e)
    (s : State) : s.findBindings raw kind = s.done ((indexList s.index k e).flatMap fun n => be2 n ++ be1 (slotAt s.slots n).code) := by
  simp only [State.findBindings, hk, he]

theorem readGroup_ok {g first count : Nat} {l : List Nat} {s : State} (hg : 1 ≤ g ∧ g ≤ 64) (hf : first ≤ 383)
    (hc : 1 ≤ count ∧ count ≤ 100) (h : groupAt s.groups g = some l) :
    s.readGroup g first count = s.done (be2 l.length ++ be2 s.membersFree ++ (window first count l).flatMap be2) := by
  have h1 : (!within 1 Config.groups g) = false := by simp [hg]
  have h2 : (!(within 0 383 first && within 1 100 count)) = false := by simp [hf, hc]
  simp only [State.readGroup, h1, h2, h, Bool.false_eq_true, if_false]

theorem readScene_ok {n first count : Nat} {sc : Scene} {s : State} (hn : 1 ≤ n ∧ n ≤ 32) (hf : first ≤ 383)
    (hc : 1 ≤ count ∧ count ≤ 60) (h : sceneAt s.scenes n = some sc) :
    s.readScene n first count = s.done (opt2 sc.fade ++ be2 sc.entries.length ++ be2 s.entriesFree ++ be1 (yesNoCode (s.sceneActive n))
      ++ (window first count sc.entries).flatMap fun e => be2 e.1 ++ be2 e.2) := by
  have h1 : (!within 1 Config.scenes n) = false := by simp [hn]
  have h2 : (!(within 0 383 first && within 1 60 count)) = false := by simp [hf, hc]
  simp only [State.readScene, h1, h2, h, Bool.false_eq_true, if_false]

theorem readStage_ok {n first count : Nat} {i : StageId} (h : stageIdOf n = some i) (hf : first ≤ 383) (hc : 1 ≤ count ∧ count ≤ 60)
    (s : State) : s.readStage n first count = s.done (be1 (stageStateCode (s.stage i).state) ++ be1 (triggerCode (s.stage i).trigger)
      ++ be2 (s.stage i).entries.length ++ be1 s.ignored1 ++ be1 s.ignored2
      ++ (window first count (s.stage i).entries).flatMap stageEntryBytes) := by
  have hw : (within 0 383 first && within 1 60 count) = true := by simp [hf, hc]
  simp only [State.readStage, h, if_pos hw]

theorem readStation_ok {n a : Nat} {l : Line} {r : Station} {s : State} (hl : lineOf n = some l) (ha : 1 ≤ a ∧ a ≤ 62)
    (h : stationAt (s.line l).stations a = some r) : s.readStation n a = s.done (stationBytes r) := by
  have hw : (!within 1 Config.maxAddress a) = false := by simp [ha]
  simp only [State.readStation, hl, hw, h, Bool.false_eq_true, if_false]

theorem readLine_ok {n : Nat} {l : Line} (hl : lineOf n = some l) (s : State) : s.readLine n = s.done (lineBytes (s.line l)) := by
  simp only [State.readLine, hl]

theorem censusRead_ok {n : Nat} {l : Line} (hl : lineOf n = some l) (s : State) :
    s.censusRead n = s.done (be1 (censusStateCode (s.line l).census) ++ (s.line l).censusList.flatMap fun i =>
      be1 i.address ++ be1 i.buttons ++ be1 (yesNoCode i.indicators)) := by
  simp only [State.censusRead, hl]

/-- An input of the contact unit is none of the safety inputs and cue lines (R165). -/
theorem readInput_contact {n : Nat} {x : ContactInput} {s : State} (hn : n ≤ 24) (h : s.contact n = some x) :
    s.readInput n = s.done (contactBytes x) := by
  have hcue : cueOf n = none := by
    unfold cueOf
    split
    · omega
    · omega
    · rfl
  have hsafe : safeOf n = none := by
    unfold safeOf
    split
    · omega
    · omega
    · rfl
  simp only [State.readInput, hcue, hsafe, h]

/-- READ INPUT's reply for a contact input, item by item (R121; log 17). -/
theorem contactBytes_eq (x : ContactInput) : contactBytes x = be1 (inputKindCode x.config.kind) ++ be1 (if x.config.pullUp then 0 else 1)
    ++ be1 (if x.config.closedHigh then 1 else 0) ++ be1 x.config.debounce ++ be2 x.config.holdTime ++ be2 x.config.stuckTime
    ++ be1 (if x.pin.level = x.config.closedHigh then 1 else 0) ++ be1 (inputStateCode x.state)
    ++ if x.state = .closed ∨ x.state = .held then be3 x.closedCount else [] := by
  have hclosed : positionCode (x.config.isClosed x.pin.level) = if x.pin.level = x.config.closedHigh then 1 else 0 := by
    simp [positionCode, InputConfig.isClosed]
  have hdown : (x.state.down = true) ↔ (x.state = .closed ∨ x.state = .held) := by cases x.state <;> simp [InputState.down]
  simp only [contactBytes, hclosed, hdown]

/-- READ INPUT's reply for a safety input: its accepted position and whether it is asserted (R121, R123). -/
theorem safeBytes_eq (p : Pin) : safeBytes p = be1 (if p.level then 0 else 1) ++ be1 (if p.level then 0 else 1) := by
  cases h : p.level <;> simp [safeBytes, positionCode, yesNoCode, h]

/-- Settles O25: each owner answers its record on the accepted state. -/
theorem readsOfTheRecordsReportAndChangeNothing : Obligations.ReadsOfTheRecordsReportAndChangeNothing := by
  intro s
  refine ⟨fun n b hn hb => ?_, fun raw kind k e hk he => ?_, fun g first count l h1 h2 h3 h4 h5 hl => ?_,
    fun n first count sc h1 h2 h3 h4 h5 hsc => ?_, fun n i first count hi h1 h2 h3 => ?_, fun n l a r hl h1 h2 hr => ?_,
    fun n l hl => ⟨?_, ?_⟩, fun n x _ hn hx => ?_, ?_, ?_, ?_, ?_⟩
  · exact reports_of_owner rfl (readBinding_ok (s := s.accept (.readBinding n)) hn hb)
  · exact reports_of_owner rfl (findBindings_ok hk he (s.accept (.findBindings raw kind)))
  · exact reports_of_owner rfl (readGroup_ok (s := s.accept (.readGroup g first count)) ⟨h1, h2⟩ h3 ⟨h4, h5⟩ hl)
  · exact reports_of_owner rfl (readScene_ok (s := s.accept (.readScene n first count)) ⟨h1, h2⟩ h3 ⟨h4, h5⟩ hsc)
  · exact reports_of_owner rfl (readStage_ok hi h1 ⟨h2, h3⟩ (s.accept (.readStage n first count)))
  · exact reports_of_owner rfl (readStation_ok (s := s.accept (.readStation n a)) hl ⟨h1, h2⟩ (by cases l <;> exact hr))
  · exact reports_of_owner rfl ((readLine_ok hl (s.accept (.readLine n))).trans (by cases l <;> rfl))
  · exact reports_of_owner rfl ((censusRead_ok hl (s.accept (.censusRead n))).trans (by cases l <;> rfl))
  · rw [← contactBytes_eq]
    exact reports_of_owner rfl (readInput_contact (s := s.accept (.readInput n)) hn hx)
  · rw [← safeBytes_eq]
    exact reports_of_owner rfl rfl
  · rw [← safeBytes_eq]
    exact reports_of_owner rfl rfl
  · exact reports_of_owner rfl rfl
  · exact reports_of_owner rfl rfl

end Sys2Proof.Machine

namespace Sys2Proof.Machine

/-! ## A start-up begins (R160 steps 1 to 3) -/

/-- A request row that the port serves is carried out on the state in which it was accepted (R148, R149). -/
theorem requestStep_of_serves {i : Instr} {s : State} (h : s.Serves i) (carry : State → State) : s.requestStep i carry = carry (s.accept i) := by
  obtain ⟨hp, hw⟩ := h
  unfold State.requestStep State.whenSelFree
  rw [hp]
  simp only
  split at hw
  · next hd => rw [if_pos hd, if_pos hw]
  · next hd => rw [if_neg hd, hw]; rfl

/-- The tables that the image stores of a line are those it was loaded from (R156). -/
@[simp] theorem LineCtl.stored_load (t : StoredLine) : (LineCtl.load t).stored = t := by
  simp [LineCtl.load, LineCtl.stored, Function.comp_def, Station.fresh]

/-- A start-up loads the tables of the image, or the blank defaults (R160 step 2). -/
theorem startUp_stored (cause : StartCause) (s : State) : (s.startUp cause).stored = s.store.image.getD Stored.blank := by
  rw [startUp_eq cause s _ rfl]
  simp [State.stored, Function.comp_def, Circuit.bare]

/-- A line as a start-up leaves it: Off, with the stations of its table and nothing under way (R98, R100, R112, R160). -/
theorem startUp_line (cause : StartCause) (s : State) (l : Line) : ∃ t, (s.startUp cause).line l = LineCtl.load t := by
  rw [startUp_eq cause s _ rfl]
  cases l <;> exact ⟨_, rfl⟩

/-- What a start-up leaves, whichever arrival begins it (R160 steps 1 to 3). -/
structure StartUpBegun (cause : StartCause) (s t : State) : Prop where
  phase : t.phase = .settling
  cause : t.startCause = cause
  stored : t.stored = s.store.image.getD Stored.blank
  index : t.index = buildIndex t.slots
  port : t.port.state = .starting ∧ t.port.slot = none ∧ t.port.request = none ∧ t.port.overrun = false
    ∧ t.port.flags = if s.store.image.isNone then Flag.storeBlank.only else 0
  circuits : ∀ x ∈ t.circuits, x = Circuit.bare x.cfg
  link : t.link.sending = false ∧ t.link.frame = none ∧ t.link.owed = false ∧ t.link.late = 0
  lines : ∀ l, ∃ x, t.line l = LineCtl.load x
  stages : t.stage1 = Stage.reset ∧ t.stage2 = Stage.reset ∧ t.ignored1 = 0 ∧ t.ignored2 = 0
  store : t.store = ⟨.ready, s.store.image.isSome, s.store.memory, none⟩
  settleSamples : t.settleSamples = 0
  sdo : t.sdo = s.sdo

/-- A start-up of a state with the same store and the same bits on SDO leaves as much. -/
theorem startUp_begun (cause : StartCause) {s u : State} (hstore : u.store = s.store) (hsdo : u.sdo = s.sdo) :
    StartUpBegun cause s (u.startUp cause) := by
  have he := startUp_eq cause u _ rfl
  have hstored := startUp_stored cause u
  have hlines := startUp_line cause u
  rw [hstore] at he hstored
  refine ⟨by rw [he], by rw [he], hstored, by rw [he], ?_, ?_, ?_, hlines, ?_, ?_, by rw [he], by rw [he]; exact hsdo⟩
  · rw [he]
    cases s.store.image <;> exact ⟨rfl, rfl, rfl, rfl, rfl⟩
  · rw [he]
    exact List.forall_mem_map.2 fun _ _ => rfl
  · rw [he]; exact ⟨rfl, rfl, rfl, rfl⟩
  · rw [he]; exact ⟨rfl, rfl, rfl, rfl⟩
  · rw [he]

/-- What the three arrivals that begin a start-up answer: the start-up, with the RESET pin high and no transaction in progress, or, after RESTART,
with both as they were (R155, R160; log 31). -/
theorem exec_startUp {c : Instr} {cause : StartCause} {s : State}
    (h : (c = .powerOn ∧ cause = .powerOn ∧ s.resetLow = false) ∨ (c = .resetPinRelease ∧ cause = .pin ∧ s.phase ≠ .unpowered)
      ∨ (c = .restart ∧ cause = .restart ∧ s.Serves .restart ∧ s.store.state = .ready)) :
    ∃ t, exec c s = .next t ∧ StartUpBegun cause s t ∧ (c = .restart → t.resetLow = s.resetLow ∧ t.spi = s.spi)
      ∧ (c ≠ .restart → t.resetLow = false ∧ t.spi = none) := by
  rcases h with ⟨rfl, rfl, hlow⟩ | ⟨rfl, rfl, hpowered⟩ | ⟨rfl, rfl, hserves, hready⟩
  · refine ⟨(s.withSpi none).startUp .powerOn, ?_, startUp_begun _ rfl rfl, nofun, fun _ => ?_⟩
    · show Host.Outcome.next _ = _
      rw [hlow]; rfl
    · rw [startUp_eq _ _ _ rfl]; exact ⟨hlow, rfl⟩
  · have hbegun := startUp_begun .pin (s := s) (u := s.withSpi none) rfl rfl
    refine ⟨((s.withSpi none).startUp .pin).withResetLow false, ?_, ⟨hbegun.phase, hbegun.cause, hbegun.stored, hbegun.index, hbegun.port,
      hbegun.circuits, hbegun.link, fun l => ?_, hbegun.stages, hbegun.store, hbegun.settleSamples, hbegun.sdo⟩, nofun, fun _ => ⟨rfl, ?_⟩⟩
    · show Host.Outcome.next _ = _
      rw [if_neg hpowered]
    · cases l
      · exact hbegun.lines .a
      · exact hbegun.lines .b
    · rw [startUp_eq _ _ _ rfl]; rfl
  · refine ⟨(s.accept .restart).startUp .restart, ?_, startUp_begun _ rfl rfl, fun _ => ?_, fun h => absurd rfl h⟩
    · have hfree : (s.accept .restart).storeBusy = false := by simp [State.storeBusy, hready]
      show Host.Outcome.next _ = _
      rw [requestStep_of_serves hserves, hfree]
      rfl
    · rw [startUp_eq _ _ _ rfl]; exact ⟨rfl, rfl⟩

/-- Settles O13: steps 1 to 3 are one update of the state, and the pins follow from it. -/
theorem startUpArrivalsBeginStartUp : Obligations.StartUpArrivalsBeginStartUp := by
  intro c cause s h
  obtain ⟨t, hexec, hbegun, hrestart, hother⟩ := exec_startUp h
  obtain ⟨hsending, hframe, howed, hlate⟩ := hbegun.link
  have hnotRunning : t.phase ≠ .running := by rw [hbegun.phase]; exact nofun
  refine ⟨t, hexec, hbegun.phase, hbegun.cause, hbegun.stored, hbegun.index, hbegun.port, hbegun.circuits,
    ⟨hsending, hframe, howed, hlate, rtxLevel_off hsending⟩, fun l => ⟨driverEnabled_other hnotRunning l, ?_⟩, hbegun.stages, hbegun.store,
    hbegun.settleSamples, hbegun.sdo, hrestart, hother⟩
  obtain ⟨x, hx⟩ := hbegun.lines l
  rw [hx, LineCtl.stored_load]
  exact ⟨rfl, rfl, rfl, rfl, rfl, rfl, rfl, rfl, rfl⟩

end Sys2Proof.Machine

namespace Sys2Proof.Machine

/-! ## Recalls (R62, R83) -/

/-- A Defined scene is within R77 (R77). -/
theorem LegalScenes.legal {scenes : List (Option Scene)} (h : LegalScenes scenes) {m : Nat} {sc : Scene} (hm : sceneAt scenes m = some sc) :
    sc.Legal := by
  obtain ⟨-, hlegal, -⟩ := h
  unfold sceneAt at hm
  split at hm
  · cases hm
  · exact hlegal sc (List.mem_of_getElem? (Option.join_eq_some_iff.1 hm))

/-- A scene names each of its circuits once (R77). -/
theorem Scene.Legal.nodup {sc : Scene} (h : sc.Legal) : (sc.entries.map (·.1)).Nodup := by
  obtain ⟨-, ⟨hascending, -⟩, -⟩ := h
  exact hascending.imp Nat.ne_of_lt

/-- Every circuit that a scene names has a record (R1, R77). -/
theorem Scene.Legal.circuitAt_isSome {sc : Scene} (h : sc.Legal) {s : State} (hs : s.CircuitsSound) {c v : Nat} (hc : (c, v) ∈ sc.entries) :
    (circuitAt s.circuits c).isSome = true := by
  obtain ⟨-, ⟨-, hrange⟩, -⟩ := h
  obtain ⟨⟨hlength, -⟩, -⟩ := hs
  obtain ⟨hlow, hhigh⟩ := hrange c (List.mem_map_of_mem hc)
  rw [List.length_map] at hlength
  exact Machine.circuitAt_isSome hlow (hlength ▸ hhigh)

/-- A recalled entry's circuit takes its claim (R62). -/
theorem circuitAt_recall_on {entries : List (Nat × Nat)} (hn : (entries.map (·.1)).Nodup) {c v : Nat} (h : (c, v) ∈ entries) (o : LocalOwner)
    (fade : Nat) (s : State) :
    circuitAt (s.recall o entries fade).circuits c = (circuitAt s.circuits c).map (Circuit.claim (.local' o) v fade) :=
  circuitAt_foldl_on Prod.fst (fun e => Circuit.claim (.local' o) e.2 fade) entries s.circuits hn (c, v) h

/-- A circuit that a recalled scene does not name is left (R62). -/
theorem circuitAt_recall_off {entries : List (Nat × Nat)} {c : Nat} (h : ∀ v, (c, v) ∉ entries) (o : LocalOwner) (fade : Nat) (s : State) :
    circuitAt (s.recall o entries fade).circuits c = circuitAt s.circuits c :=
  circuitAt_foldl_off Prod.fst (fun e => Circuit.claim (.local' o) e.2 fade) entries s.circuits c fun e he hec => h e.2 (hec ▸ he)

/-- A Local claim at an entry's level matches the entry (R8, R83). -/
theorem Circuit.claim_matches (o : LocalOwner) (v fade : Nat) (c : Circuit) : (c.claim (.local' o) v fade).matches v = true := by
  simp [Circuit.matches, Circuit.claim_local]

/-- A scene is active where each of its entries' circuits matches (R83). -/
theorem sceneActive_of_matches {s : State} {m : Nat} {sc : Scene} (hm : sceneAt s.scenes m = some sc)
    (h : ∀ c v, (c, v) ∈ sc.entries → ∃ x, circuitAt s.circuits c = some x ∧ x.matches v = true) : s.sceneActive m = true := by
  simp only [State.sceneActive, hm, List.all_eq_true]
  intro e he
  obtain ⟨x, hx, hmatch⟩ := h e.1 e.2 he
  rw [hx]
  exact hmatch

/-- An event with one matching Recall of a Defined scene recalls its entries (R54, R62). -/
theorem resolve_recall {k : SourceKey} {e : EventKind} {n m : Nat} {b : Binding} {sc : Scene} {s : State} (h : s.matching k e = [(n, b)])
    (ha : b.action = .recall) (ht : b.target = .scene m) (hm : sceneAt s.scenes m = some sc) :
    s.resolve k e
      = (s.endBySource k e).recall (some (n, k)) sc.entries (b.fade.getD (sc.fade.getD s.options.defaultFade)) := by
  have hframe := endBySource_frame k e s
  rw [resolve_single h]
  simp only [State.carryOut, ha, ht, hframe.scenes, hm, hframe.options]

/-- Settles O40: a legal scene names each circuit once, so each entry's claim is the one change of its circuit. -/
theorem aRecallMakesItsSceneActive : Obligations.ARecallMakesItsSceneActive := by
  intro k e n m b sc s h htargets hsound ha ht hm
  have hlegal : sc.Legal := htargets.2.1.legal hm
  have hresolve := resolve_recall h ha ht hm
  have hon (c v : Nat) (hc : (c, v) ∈ sc.entries) := circuitAt_recall_on hlegal.nodup hc (some (n, k))
    (b.fade.getD (sc.fade.getD s.options.defaultFade)) (s.endBySource k e)
  rw [← hresolve] at hon
  refine ⟨sceneActive_of_matches (by rw [(resolve_frame k e s).scenes]; exact hm) fun c v hc => ?_, fun c x hx => ?_⟩
  · obtain ⟨x, hx⟩ := Option.isSome_iff_exists.1
      ((endBySource_keeps k e s).circuitAt_isSome (hlegal.circuitAt_isSome hsound hc))
    exact ⟨_, by rw [hon c v hc, hx]; rfl, Circuit.claim_matches _ v _ x⟩
  · by_cases hc : ∃ v, (c, v) ∈ sc.entries
    · obtain ⟨v, hv⟩ := hc
      exact .inr ⟨v, _, hv, by rw [hon c v hv, hx]; rfl, x.claim_sameBut (.local' _) v _, x.claim_local _ v _⟩
    · have hoff : ∀ v, (c, v) ∉ sc.entries := not_exists.1 hc
      exact .inl ⟨hoff, by rw [hresolve, circuitAt_recall_off hoff, hx]⟩

end Sys2Proof.Machine

namespace Sys2Proof.Machine

/-! ## SET MODE (R87, R89 to R93) -/

/-- A circuit after the Base claim of a mode change and the release of its Local claim where the mode clears it (R90, R91). -/
def Circuit.clearedFor (m : Mode) (fade : Nat) (c : Circuit) : Circuit :=
  if c.cfg.localClear.has m then (c.claim (.base m) (c.cfg.base.at m) fade).release .local' fade
  else c.claim (.base m) (c.cfg.base.at m) fade

/-- What a mode change does to a circuit: its Base and Local layers, and then the end of movement by the mode (R90 to R92). -/
def Circuit.enterMode (pick : LocalOwner → Bool) (m : Mode) (fade : Nat) (c : Circuit) : Circuit :=
  (c.clearedFor m fade).endMovement pick

/-- A change to another mode, as one update of the state (R89). -/
theorem changeMode_eq {m : Mode} {s : State} (h : s.mode ≠ m) (fade : Nat) : s.changeMode m fade = { s with
    mode := m, circuits := s.circuits.map (Circuit.enterMode (pickMode s.slots m) m fade)
    lineA := s.lineA.askAnnounce m, lineB := s.lineB.askAnnounce m, port := s.port.raise .modeChanged } := by
  have hcircuits : s.circuits.map (Circuit.enterMode (pickMode s.slots m) m fade) = (s.changeMode m fade).circuits := by
    rw [State.changeMode, if_neg h]
    simp only [raise_circuits, withLineB_circuits, withLineA_circuits, State.endMovement, State.mapCircuits, withCircuits_circuits,
      withCircuits_slots, withMode_circuits, withMode_slots, List.map_map]
    refine List.map_congr_left fun c _ => ?_
    simp only [Circuit.enterMode, Circuit.clearedFor, Function.comp_apply, Circuit.claim_cfg]
  rw [hcircuits, State.changeMode, if_neg h]
  rfl

/-- A change to the present mode changes nothing (R89). -/
theorem changeMode_same {m : Mode} {s : State} (h : s.mode = m) (fade : Nat) : s.changeMode m fade = s := if_pos h

@[simp] theorem Circuit.mapLocal_local (f : Claim LocalOwner → Claim LocalOwner) (c : Circuit) : (c.mapLocal f).local' = c.local'.map f := rfl
@[simp] theorem Circuit.mapLocal_raw (f : Claim LocalOwner → Claim LocalOwner) (c : Circuit) : (c.mapLocal f).raw = c.raw := rfl
@[simp] theorem Circuit.mapLocal_handover (f : Claim LocalOwner → Claim LocalOwner) (c : Circuit) :
    (c.mapLocal f).handover = c.handover := rfl

theorem Circuit.SameBut.trans {c d e : Circuit} {l : Layer} (h : c.SameBut d l) (k : d.SameBut e l) : c.SameBut e l := by
  obtain ⟨hcfg, hbase, hlocal, hshow, hsafe⟩ := h
  obtain ⟨kcfg, kbase, klocal, kshow, ksafe⟩ := k
  exact ⟨kcfg.trans hcfg, fun hl => (kbase hl).trans (hbase hl), fun hl => (klocal hl).trans (hlocal hl),
    fun hl => (kshow hl).trans (hshow hl), fun hl => (ksafe hl).trans (hsafe hl)⟩

/-- The Local claim that a mode change clears or leaves (R91). -/
theorem Circuit.clearedFor_local (m : Mode) (fade : Nat) (c : Circuit) :
    (c.clearedFor m fade).local' = if c.cfg.localClear.has m then none else c.local' := by
  obtain ⟨-, -, hlocal, -, -⟩ := c.claim_sameBut (.base m) (c.cfg.base.at m) fade
  unfold Circuit.clearedFor
  split
  · exact Circuit.release_local _ _
  · exact hlocal nofun

/-- After its Base claim a mode change leaves the other layers but Local (R90, R91). -/
theorem Circuit.clearedFor_sameBut (m : Mode) (fade : Nat) (c : Circuit) :
    (c.claim (.base m) (c.cfg.base.at m) fade).SameBut (c.clearedFor m fade) .local' := by
  unfold Circuit.clearedFor
  split
  · exact Circuit.release_sameBut _ _ _
  · exact .refl _ _

theorem Circuit.clearedFor_settled (m : Mode) (fade : Nat) (c : Circuit) : (c.clearedFor m fade).Settled := by
  have hclaim := c.claim_settled (.base m) (c.cfg.base.at m) fade
  unfold Circuit.clearedFor
  split
  · exact Circuit.release_settled hclaim _ _
  · exact hclaim

/-- The end of movement by the mode is seen on the Local claim alone (R28, R92). -/
theorem Circuit.enterMode_eq (pick : LocalOwner → Bool) (m : Mode) (fade : Nat) (c : Circuit) :
    c.enterMode pick m fade = (c.clearedFor m fade).mapLocal (Claim.stopIf pick) :=
  Circuit.endMovement_eq (c.clearedFor_settled m fade) pick

theorem Circuit.enterMode_settled (pick : LocalOwner → Bool) (m : Mode) (fade : Nat) (c : Circuit) : (c.enterMode pick m fade).Settled :=
  Circuit.endMovement_settled (c.clearedFor_settled m fade) pick

theorem Circuit.enterMode_sameBut (pick : LocalOwner → Bool) (m : Mode) (fade : Nat) (c : Circuit) :
    (c.claim (.base m) (c.cfg.base.at m) fade).SameBut (c.enterMode pick m fade) .local' := by
  rw [Circuit.enterMode_eq]
  exact (c.clearedFor_sameBut m fade).trans (Circuit.mapLocal_sameBut _ _)

/-- A mode change leaves configuration, Show and Safe, and gives every circuit its Base claim (R90). -/
theorem Circuit.enterMode_layers (pick : LocalOwner → Bool) (m : Mode) (fade : Nat) (c : Circuit) :
    (c.enterMode pick m fade).cfg = c.cfg ∧ (c.enterMode pick m fade).show' = c.show' ∧ (c.enterMode pick m fade).safe = c.safe
      ∧ (c.enterMode pick m fade).base = some ⟨Form.ofFade (c.startLevel .base) (c.cfg.clamp (c.cfg.base.at m)) fade, m⟩ := by
  obtain ⟨hcfg, -, -, hshow, hsafe⟩ := c.claim_sameBut (.base m) (c.cfg.base.at m) fade
  obtain ⟨kcfg, kbase, -, kshow, ksafe⟩ := c.enterMode_sameBut pick m fade
  exact ⟨kcfg.trans hcfg, (kshow nofun).trans (hshow nofun), (ksafe nofun).trans (hsafe nofun), (kbase nofun).trans (c.place_base m _)⟩

/-- The Local claim after a mode change: cleared, or left without movement by the mode (R91, R92). -/
theorem Circuit.enterMode_local (pick : LocalOwner → Bool) (m : Mode) (fade : Nat) (c : Circuit) :
    (c.enterMode pick m fade).local' = if c.cfg.localClear.has m then none
      else c.local'.map fun cl => if pick cl.owner then ⟨cl.form.stop, cl.owner⟩ else cl := by
  rw [Circuit.enterMode_eq, Circuit.mapLocal_local, Circuit.clearedFor_local]
  split <;> rfl

theorem Circuit.decides_base_of_local {c : Circuit} (h : c.deciding = some .local') : c.decides .base = false := by
  simp [Circuit.decides, h, Layer.rank]

/-- A deciding Local claim that the mode clears hands over from the level shown, since the Base claim before it goes unseen (R11, R91). -/
theorem Circuit.enterMode_handover_cleared {c : Circuit} (hs : c.Settled) (hd : c.deciding = some .local') {m : Mode}
    (hm : c.cfg.localClear.has m = true) (pick : LocalOwner → Bool) (fade : Nat) :
    (c.enterMode pick m fade).handover = if fade = 0 then none else some ⟨c.raw, 10 * fade, 0⟩ := by
  have hhidden := Circuit.decides_base_of_local hd
  have hraw : (c.claim (.base m) (c.cfg.base.at m) fade).raw = c.raw := by
    rw [Circuit.claim_raw hs, if_neg (by simp [Stake.layer, hhidden])]
  have hbase : c.SameBut (c.claim (.base m) (c.cfg.base.at m) fade) .base := c.claim_sameBut (.base m) _ fade
  obtain ⟨hdeciding, -⟩ := Circuit.deciding_of_sameBut hbase hd ⟨by decide, .inr (by decide)⟩
  rw [Circuit.enterMode_eq, Circuit.mapLocal_handover, Circuit.clearedFor, if_pos hm, Circuit.release_deciding_handover (by decide) hdeciding, hraw]

/-- A mode change goes unseen where Base is hidden and the Local claim is not cleared (R10, R90). -/
theorem Circuit.enterMode_hidden {c : Circuit} (hs : c.Settled) (hd : c.decides .base = false) {m : Mode}
    (hm : c.cfg.localClear.has m = false) (pick : LocalOwner → Bool) (fade : Nat) :
    (c.enterMode pick m fade).raw = c.raw ∧ (c.enterMode pick m fade).handover = c.handover := by
  have hclaim : c.clearedFor m fade = c.claim (.base m) (c.cfg.base.at m) fade := by
    rw [Circuit.clearedFor, hm, if_neg Bool.false_ne_true]
  rw [Circuit.enterMode_eq, hclaim]
  rw [Circuit.mapLocal_raw, Circuit.mapLocal_handover, Circuit.claim_raw hs, Circuit.claim_handover]
  simp [Stake.layer, hd]

/-! ### The announce (R93, R108) -/

/-- What is done to both lines is done to each. -/
theorem line_of_both {s t : State} {f : LineCtl → LineCtl} (hA : t.lineA = f s.lineA) (hB : t.lineB = f s.lineB) (l : Line) :
    t.line l = f (s.line l) := by
  cases l with
  | a => exact hA
  | b => exact hB

/-- A line that does not run takes no announce (R93). -/
theorem askAnnounce_other {c : LineCtl} (h : c.state ≠ .running) (m : Mode) : c.askAnnounce m = c := if_neg h

/-- A Running line takes the announce, and sends it at once where it waits for a round with nothing in flight (R93, R101, R108). -/
theorem askAnnounce_running {c : LineCtl} (h : c.state = .running) (m : Mode) :
    (c.askAnnounce m).announce = some m ∧ (c.askAnnounce m).exchange = if c.waiting ∧ c.exchange = none then
      some ⟨.announce m, announceMessage m, c.config.divisor, c.config.window, false, false⟩ else c.exchange := by
  unfold LineCtl.askAnnounce
  rw [if_pos h]
  by_cases hw : c.waiting ∧ c.exchange = none
  · simp only [if_pos hw]; exact ⟨rfl, rfl⟩
  · simp only [if_neg hw, true_and]

/-! ### The request -/

/-- The code of a mode is its own alone (R162). -/
theorem modeCode_of_modeOf {code : Nat} {m : Mode} (h : modeOf code = some m) : modeCode m = code := by
  unfold modeOf at h
  split at h <;> cases h <;> rfl

/-- SET MODE with its items in range (R87). -/
theorem setMode_inRange {code : Nat} {m : Mode} {fade : Option Nat} (hm : modeOf code = some m) (hf : ∀ f, fade = some f → f ≤ 6000)
    (s : State) : s.setMode code fade
      = (s.changeMode m (fade.getD s.options.modeFade)).done (be1 code ++ be1 (yesNoCode (decide (s.mode ≠ m)))) := by
  have hrange : optWithin 0 6000 fade = true := by
    cases fade with
    | none => rfl
    | some f => simpa [optWithin] using hf f rfl
  simp only [State.setMode, hm, if_pos hrange, modeCode_of_modeOf hm]

/-- SET MODE of another mode makes the mode change and is answered yes (R87). -/
theorem exec_setMode_other {code : Nat} {m : Mode} {fade : Option Nat} {s : State} (hserves : s.Serves (.setMode code fade))
    (hm : modeOf code = some m) (hf : ∀ f, fade = some f → f ≤ 6000) (h : s.mode ≠ m) :
    exec (.setMode code fade) s = .next (((s.accept (.setMode code fade)).changeMode m (fade.getD s.options.modeFade)).answer
      (requestEcho (.setMode code fade)) .ok (be1 code ++ be1 0)) := by
  show Host.Outcome.next _ = _
  rw [complete_of_serves hserves, setMode_inRange hm hf]
  simp [h, yesNoCode]

/-- Settles O43: a change to another mode is one update of the state, whose parts are those of one circuit and of one line. -/
theorem setModeChangesTheHouseMode : Obligations.SetModeChangesTheHouseMode := by
  intro code m fade s hserves hm hf
  refine ⟨fun hsame => ?_, fun hother => ?_⟩
  · have hok : (s.accept (.setMode code fade)).setMode code fade = (s.accept (.setMode code fade)).done (be1 code ++ be1 1) := by
      rw [setMode_inRange hm hf, changeMode_same (s := s.accept _) hsame.symm]
      simp [hsame, yesNoCode]
    exact ⟨_, completes_done hserves rfl hok rfl, rfl⟩
  · have hne : s.mode ≠ m := Ne.symm hother
    have hexec := exec_setMode_other hserves hm hf hne
    rw [changeMode_eq (s := s.accept _) hne] at hexec
    refine ⟨_, hexec, rfl, rfl, fun l => ?_, List.length_map _, fun c x hx hs => ?_⟩
    · rw [line_of_both (s := s) (f := LineCtl.askAnnounce m) rfl rfl]
      exact ⟨askAnnounce_touches m _, fun h => askAnnounce_other h m, fun h => askAnnounce_running h m⟩
    · obtain ⟨hcfg, hshow, hsafe, hbase⟩ := x.enterMode_layers (pickMode s.slots m) m (fade.getD s.options.modeFade)
      refine ⟨x.enterMode (pickMode s.slots m) m (fade.getD s.options.modeFade), ?_, hcfg, x.enterMode_settled _ m _, hshow, hsafe, hbase,
        x.enterMode_local _ m _, fun hd hclear => Circuit.enterMode_handover_cleared hs hd hclear _ _,
        fun hd hclear => Circuit.enterMode_hidden hs hd hclear _ _⟩
      show circuitAt (s.circuits.map _) c = _
      rw [circuitAt_map, hx]
      rfl

end Sys2Proof.Machine

namespace Sys2Proof.Machine

/-! ## Poll lists (R100, R109, R110) -/

/-- Looking up an address in a poll list, record by record (R100). -/
theorem stationAt_cons (x : Station) (l : List Station) (d : Nat) :
    stationAt (x :: l) d = if x.ident.address = d then some x else stationAt l d := by
  by_cases h : x.ident.address = d <;> simp [stationAt, h]

/-- Looking up an address after an enrolment of one that was not there (R109). -/
theorem stationAt_insertStation {r : Station} {l : List Station} (h : stationAt l r.ident.address = none) (d : Nat) :
    stationAt (insertStation r l) d = if r.ident.address = d then some r else stationAt l d := by
  induction l with
  | nil => exact stationAt_cons r [] d
  | cons x l ih =>
    rw [stationAt_cons] at h
    split at h
    · cases h
    · next hx =>
      unfold insertStation
      split
      · exact stationAt_cons r (x :: l) d
      · rw [stationAt_cons, stationAt_cons, ih h]
        split
        · next hxd => rw [if_neg fun hrd => hx (hxd.trans hrd.symm)]
        · rfl

/-- Looking up an address after one is unenrolled (R110). -/
theorem stationAt_unenrol (a d : Nat) (c : LineCtl) :
    stationAt (c.unenrol a).stations d = if d = a then none else stationAt c.stations d := by
  unfold LineCtl.unenrol
  induction c.stations with
  | nil => simp [stationAt]
  | cons x l ih =>
    by_cases hx : x.ident.address = a
    · subst hx
      rw [List.filter_cons_of_neg (by simp), ih, stationAt_cons]
      grind
    · rw [List.filter_cons_of_pos (by simpa using hx), stationAt_cons, stationAt_cons, ih]
      grind

@[simp] theorem withLine_line (l : Line) (x : LineCtl) (s : State) : (s.withLine l x).line l = x := by cases l <;> rfl

@[simp] theorem answer_line (s : State) (e : Byte) (r : ResultCode) (p : List Byte) (l : Line) : (s.answer e r p).line l = s.line l := by
  cases l <;> rfl

@[simp] theorem accept_line (s : State) (i : Instr) (l : Line) : (s.accept i).line l = s.line l := by cases l <;> rfl

@[simp] theorem withLine_port (l : Line) (x : LineCtl) (s : State) : (s.withLine l x).port = s.port := by cases l <;> rfl

/-! ## Requests on the lines (R109, R110, R112) -/

/-- ENROL STATION with its items in range (R109). -/
theorem enrolStation_inRange {n a b code : Nat} {l : Line} {has : Bool} (hl : lineOf n = some l) (ha : 1 ≤ a ∧ a ≤ 62)
    (hb : 1 ≤ b ∧ b ≤ 10) (hcode : yesNoOf code = some has) (s : State) : s.enrolStation n a b code
      = if (stationAt (s.line l).stations a).isSome then s.refuse .enrolled
        else if 40 ≤ (s.line l).stations.length then s.refuse .tableFull
        else (s.withLine l ((s.line l).enrol (Station.fresh ⟨a, b, has⟩))).done [] := by
  have hrange : (!(within 1 Config.maxAddress a && within 1 10 b)) = false := by simp [within_iff, Config.maxAddress, ha, hb]
  simp only [State.enrolStation, hl, hcode, hrange, Bool.false_eq_true, if_false, Config.stations]

/-- UNENROL STATION with its items in range (R110). -/
theorem unenrolStation_inRange {n a : Nat} {l : Line} (hl : lineOf n = some l) (ha : 1 ≤ a ∧ a ≤ 62) (s : State) : s.unenrolStation n a
      = if (stationAt (s.line l).stations a).isNone then s.refuse .notFound
        else ((s.endMovement (pickStation l a)).withLine l ((s.line l).unenrol a)).done [] := by
  have hrange : (!within 1 Config.maxAddress a) = false := by simp [within_iff, Config.maxAddress, ha]
  have hline : (s.endMovement (pickStation l a)).line l = s.line l := by cases l <;> rfl
  simp only [State.unenrolStation, hl, hrange, Bool.false_eq_true, if_false, hline]

/-- CENSUS START on a line that there is (R112). -/
theorem censusStart_inRange {n : Nat} {l : Line} (hl : lineOf n = some l) (s : State) : s.censusStart n
      = if (s.line l).state ≠ .running then s.refuse .lineOff
        else if (s.line l).census = .running then s.refuse .censusBusy
        else (s.withLine l (s.line l).startCensus).done [] := by
  simp only [State.censusStart, hl]

/-- Settles O46: each request by the checks of its owner, and what its line's controller then holds. -/
theorem stationsAreEnrolledUnenrolledAndCounted : Obligations.StationsAreEnrolledUnenrolledAndCounted := by
  intro n a l s hl ha1 ha2
  refine ⟨fun b code has hserves hready hb1 hb2 hcode => ?_, fun hserves hready => ?_, fun hserves => ?_⟩
  · have howner := enrolStation_inRange hl ⟨ha1, ha2⟩ ⟨hb1, hb2⟩ hcode (s.accept (.enrolStation n a b code))
    simp only [accept_line] at howner
    refine ⟨fun r hr => ?_, fun hnone hfull => ?_, fun hnone hroom => ?_⟩
    · exact write_refuses hserves hready rfl (howner.trans (if_pos (by simp [hr])))
    · exact write_refuses hserves hready rfl (by rw [howner, if_neg (by simp [hnone]), if_pos hfull])
    · rw [if_neg (by simp [hnone]), if_neg (by omega)] at howner
      have hstation := stationAt_insertStation (r := Station.fresh ⟨a, b, has⟩) hnone
      refine ⟨_, write_completes hserves hready rfl howner (withLine_port l _ _), by cases l <;> rfl, ?_, fun d hd => ?_⟩
      · simpa [LineCtl.enrol, Station.fresh] using hstation a
      · simpa [LineCtl.enrol, Station.fresh, hd.symm] using hstation d
  · have howner := unenrolStation_inRange hl ⟨ha1, ha2⟩ (s.accept (.unenrolStation n a))
    simp only [accept_line] at howner
    refine ⟨fun hnone => ?_, fun r hr => ?_⟩
    · exact write_refuses hserves hready rfl (howner.trans (if_pos (by simp [hnone])))
    · rw [if_neg (by simp [hr])] at howner
      have hstation := fun d => stationAt_unenrol a d (s.line l)
      refine ⟨_, write_completes hserves hready rfl howner (withLine_port l _ _), by cases l <;> rfl, ?_⟩
      simp only [answer_line, withLine_line]
      exact ⟨rfl, by rw [hstation, if_pos rfl], fun d hd => by rw [hstation, if_neg hd], rfl, rfl⟩
  · have howner := censusStart_inRange hl (s.accept (.censusStart n))
    simp only [accept_line] at howner
    refine ⟨fun hoff => ?_, fun hrun hbusy => ?_, fun hrun hfree => ?_⟩
    · exact refuses_of_owner hserves rfl (howner.trans (if_pos hoff))
    · exact refuses_of_owner hserves rfl (by rw [howner, if_neg (not_not.2 hrun), if_pos hbusy])
    · rw [if_neg (not_not.2 hrun), if_neg hfree] at howner
      exact ⟨_, completes_done hserves rfl howner (withLine_port l _ _), by cases l <;> rfl⟩

end Sys2Proof.Machine

namespace Sys2Proof.Machine

/-! ## Tables with numbered places, and their pools (R71, R72, R77) -/

/-- What stands in place `n` of a table whose places are numbered from 1. -/
def placeAt {α : Type} (l : List (Option α)) (n : Nat) : Option α := if n = 0 then none else (l[n - 1]?).join

theorem groupAt_eq_placeAt (groups : List (Option (List Nat))) (g : Nat) : groupAt groups g = placeAt groups g := rfl

theorem sceneAt_eq_placeAt (scenes : List (Option Scene)) (n : Nat) : sceneAt scenes n = placeAt scenes n := rfl

/-- Reading a place after one was written. -/
theorem placeAt_set {α : Type} {l : List (Option α)} {n : Nat} (h1 : 1 ≤ n) (h2 : n ≤ l.length) (x : Option α) (m : Nat) :
    placeAt (l.set (n - 1) x) m = if m = n then x else placeAt l m := by
  unfold placeAt
  by_cases hm : m = 0
  · rw [if_pos hm, if_pos hm, if_neg (by omega)]
  · rw [if_neg hm, if_neg hm, List.getElem?_set]
    by_cases hmn : m = n
    · subst hmn
      rw [if_pos rfl, if_pos (by omega), if_pos rfl]
      rfl
    · rw [if_neg (by omega), if_neg hmn]

/-- What a pool holds after a place was written: the list that stood there makes room for the new one. -/
theorem sum_sizes_set {α : Type} (size : Option α → Nat) {l : List (Option α)} {n : Nat} (h1 : 1 ≤ n) (h2 : n ≤ l.length) (x : Option α) :
    ((l.set (n - 1) x).map size).sum + size (placeAt l n) = (l.map size).sum + size x := by
  obtain ⟨i, rfl⟩ : ∃ i, n = i + 1 := ⟨n - 1, by omega⟩
  induction l generalizing i with
  | nil => simp at h2
  | cons y l ih =>
    cases i with
    | zero =>
      show (size x + (l.map size).sum) + size y = (size y + (l.map size).sum) + size x
      omega
    | succ i =>
      have hrest := ih i (by omega) (Nat.le_of_succ_le_succ h2)
      show (size y + ((l.set i x).map size).sum) + size (placeAt l (i + 1)) = (size y + (l.map size).sum) + size x
      rw [Nat.add_sub_cancel] at hrest
      omega

/-! ### Groups -/

/-- A list of circuits in the order of the circuits, each at most once (R71). -/
theorem ascendingCircuits_of_sublist {l : List Nat} (h : l.Sublist allCircuits) : AscendingCircuits l := by
  have ha : allCircuits.Pairwise (· < ·) := List.pairwise_lt_range'
  refine ⟨ha.sublist h, fun c hc => ?_⟩
  have := List.mem_range'_1.1 (h.subset hc)
  simp only [Config.circuits] at this ⊢
  omega

theorem unionOf_ascending (ranges : List (Nat × Nat)) : AscendingCircuits (unionOf ranges) :=
  ascendingCircuits_of_sublist List.filter_sublist

theorem groupAt_putGroup {g : Nat} {s : State} (h1 : 1 ≤ g) (h2 : g ≤ s.groups.length) (x : Option (List Nat)) (k : Nat) :
    groupAt (s.putGroup g x).groups k = if k = g then x else groupAt s.groups k := placeAt_set h1 h2 x k

/-- A group written within its pool keeps the laws of the group table (R71, R72). -/
theorem LegalGroups.put {s : State} (h : LegalGroups s.groups) {g : Nat} (hg : 1 ≤ g ∧ g ≤ 64) {x : Option (List Nat)}
    (hx : ∀ l, x = some l → AscendingCircuits l) (hroom : (x.getD []).length ≤ s.groupLength g + s.membersFree) :
    LegalGroups (s.putGroup g x).groups := by
  obtain ⟨hlength, hlists, hpool⟩ := h
  refine ⟨(List.length_set).trans hlength, fun l hl => ?_, ?_⟩
  · rcases List.mem_or_eq_of_mem_set hl with hl | hl
    · exact hlists l hl
    · exact hx l hl.symm
  · have hsum := sum_sizes_set (fun y : Option (List Nat) => (y.getD []).length) hg.1 (by rw [hlength]; exact hg.2) x
    simp only [State.groupLength, State.membersFree, State.members, membersUsed, State.putGroup, withGroups_groups, groupAt_eq_placeAt] at *
    omega

/-- Every number of every pair a circuit (R73). -/
theorem rangesInRange_iff (ranges : List (Nat × Nat)) :
    rangesInRange ranges = true ↔ ∀ p ∈ ranges, (1 ≤ p.1 ∧ p.1 ≤ 384) ∧ 1 ≤ p.2 ∧ p.2 ≤ 384 := by
  simp [rangesInRange]

/-- A check that refuses where it fails. -/
theorem ite_not_refused {α : Type} (check : Bool) (refused passed : α) :
    (if !check then refused else passed) = if check = true then passed else refused := by cases check <;> rfl

/-- WRITE GROUP by its checks: the ranges first, then the pool (R73). -/
theorem writeGroup_eq (g : Nat) (ranges : List (Nat × Nat)) (s : State) : s.writeGroup g ranges
      = if (1 ≤ g ∧ g ≤ 64) ∧ ranges.length ≤ 60 ∧ rangesInRange ranges = true then
          if s.groupLength g + s.membersFree < (unionOf ranges).length then s.refuse .poolFull
          else (s.putGroup g (some (unionOf ranges))).done
            (be2 (unionOf ranges).length ++ be2 (s.putGroup g (some (unionOf ranges))).membersFree)
        else s.refuse .range := by
  simp only [State.writeGroup, ite_not_refused, within_iff, ← not_le (a := ranges.length), ite_not, ite_and]

/-- DELETE GROUP by its checks (R74). -/
theorem deleteGroup_eq (g : Nat) (s : State) : s.deleteGroup g
      = if 1 ≤ g ∧ g ≤ 64 then
          if (groupAt s.groups g).isNone then s.refuse .notFound
          else (s.putGroup g none).done (be2 (s.putGroup g none).membersFree)
        else s.refuse .range := by
  simp only [State.deleteGroup, ite_not_refused, within_iff, ite_and]

/-- A write of a stored table with a number out of its range is refused (R73, R74, R78 to R81). -/
theorem refuses_range {i : Instr} {s : State} {owner : State → Carried} {inRange : Prop} [Decidable inRange] {x : Carried}
    (hserves : s.Serves i) (hready : s.store.state = .ready) (he : exec i s = .next (s.complete i (State.storedWrite owner)))
    (ho : owner (s.accept i) = if inRange then x else (s.accept i).refuse .range) (hout : ¬inRange) : s.Refuses i .range :=
  write_refuses hserves hready he (ho.trans (if_neg hout))

/-- Settles O41: each request by its checks, and the table with its one place written. -/
theorem groupsAreWrittenAndDeleted : Obligations.GroupsAreWrittenAndDeleted := by
  refine ⟨fun g s hready hlength hg1 hg2 => ⟨fun ranges hserves hlen hrange => ?_, fun hserves => ?_⟩, fun g s hready => ⟨?_, ?_⟩⟩
  · have howner := (writeGroup_eq g ranges (s.accept (.writeGroup g ranges))).trans (if_pos ⟨⟨hg1, hg2⟩, hlen, hrange⟩)
    refine ⟨fun hfull => write_refuses hserves hready rfl (howner.trans (if_pos hfull)), fun hroom => ?_⟩
    have howner := howner.trans (if_neg (Nat.not_lt.2 hroom))
    have hplace := groupAt_putGroup (s := s) hg1 (hlength ▸ hg2) (some (unionOf ranges))
    refine ⟨_, unionOf ranges, write_completes hserves hready rfl howner rfl, rfl, (hplace g).trans (if_pos rfl),
      (unionOf_ascending ranges).1, fun c => (mem_unionOf ranges c).trans and_assoc, fun h hne => (hplace h).trans (if_neg hne)⟩
  · have howner := (deleteGroup_eq g (s.accept (.deleteGroup g))).trans (if_pos ⟨hg1, hg2⟩)
    refine ⟨fun hnone => write_refuses hserves hready rfl (howner.trans (if_pos (Option.isNone_iff_eq_none.2 hnone))), fun l hl => ?_⟩
    have howner := howner.trans (if_neg (by simp [hl]))
    have hplace := groupAt_putGroup (s := s) hg1 (hlength ▸ hg2) none
    exact ⟨_, write_completes hserves hready rfl howner rfl, rfl, (hplace g).trans (if_pos rfl), fun h hne => (hplace h).trans (if_neg hne)⟩
  · intro ranges hserves hout
    refine refuses_range hserves hready rfl (writeGroup_eq g ranges _) ?_
    rw [rangesInRange_iff]
    grind
  · intro hserves hout
    exact refuses_range hserves hready rfl (deleteGroup_eq g _) (by omega)

end Sys2Proof.Machine

namespace Sys2Proof.Machine

/-! ## Lists of entries (R77 to R80) -/

/-- The level that some entries give a circuit, entry by entry: the later one stands (R78). -/
theorem levelIn_cons (e : Nat × Nat) (entries : List (Nat × Nat)) (c : Nat) :
    levelIn (e :: entries) c = (levelIn entries c).or (if e.1 = c then some e.2 else none) := by
  by_cases h : e.1 = c <;> cases hf : entries.reverse.find? (fun x => x.1 == c) <;> simp [levelIn, List.find?_append, h, hf]

/-- Entries taken after a list stand over its own (R78, R79). -/
theorem levelIn_append (old entries : List (Nat × Nat)) (c : Nat) : levelIn (old ++ entries) c = (levelIn entries c).or (levelIn old c) := by
  induction old with
  | nil => simp [levelIn]
  | cons e old ih => rw [List.cons_append, levelIn_cons, levelIn_cons, ih, Option.or_assoc]

theorem mem_of_levelIn {entries : List (Nat × Nat)} {c v : Nat} (h : levelIn entries c = some v) : (c, v) ∈ entries := by
  induction entries with
  | nil => cases h
  | cons e entries ih =>
    rw [levelIn_cons, Option.or_eq_some_iff] at h
    rcases h with h | ⟨-, h⟩
    · exact List.mem_cons_of_mem e (ih h)
    · split at h
      · next hc => cases h; subst hc; exact List.mem_cons_self
      · cases h

/-- A circuit that some entries name gets a level of them. -/
theorem levelIn_isSome {entries : List (Nat × Nat)} {e : Nat × Nat} (h : e ∈ entries) : (levelIn entries e.1).isSome = true := by
  induction entries with
  | nil => cases h
  | cons x entries ih =>
    rw [levelIn_cons, Option.isSome_or, Bool.or_eq_true]
    rcases List.mem_cons.1 h with rfl | h
    · exact .inr (by simp)
    · exact .inl (ih h)

/-- In a list that names each circuit once, each entry gives its circuit's level. -/
theorem levelIn_eq_some_iff {entries : List (Nat × Nat)} (h : (entries.map (·.1)).Nodup) {c v : Nat} :
    levelIn entries c = some v ↔ (c, v) ∈ entries := by
  refine ⟨mem_of_levelIn, fun hcv => ?_⟩
  obtain ⟨w, hw⟩ := Option.isSome_iff_exists.1 (levelIn_isSome hcv)
  rw [hw]
  exact congrArg (fun e : Nat × Nat => some e.2) (List.inj_on_of_nodup_map h (mem_of_levelIn hw) hcv rfl)

/-- Some circuits, each with the level that a function gives it, where it gives one. -/
def keyed (f : Nat → Option Nat) (circuits : List Nat) : List (Nat × Nat) := circuits.filterMap fun c => (f c).map fun v => (c, v)

theorem sceneList_eq_keyed (entries : List (Nat × Nat)) : sceneList entries = keyed (levelIn entries) allCircuits := rfl

/-- Captured entries take the output levels (R80). -/
theorem captured_eq_keyed (s : State) (circuits : List Nat) :
    s.captured circuits = keyed (fun c => (circuitAt s.circuits c).map (·.output)) circuits := by
  simp [State.captured, keyed, Function.comp_def]

theorem mem_keyed {f : Nat → Option Nat} {circuits : List Nat} {c v : Nat} : (c, v) ∈ keyed f circuits ↔ c ∈ circuits ∧ f c = some v := by
  simp [keyed]

/-- The circuits of such a list stand in the order in which they stood. -/
theorem keyed_circuits_sublist (f : Nat → Option Nat) (circuits : List Nat) : ((keyed f circuits).map (·.1)).Sublist circuits := by
  induction circuits with
  | nil => exact .slnil
  | cons c circuits ih =>
    cases hf : f c with
    | none => simpa [keyed, hf] using ih.cons c
    | some v => simpa [keyed, hf] using ih.cons_cons c

theorem keyed_length {f : Nat → Option Nat} {circuits : List Nat} (h : ∀ c ∈ circuits, (f c).isSome = true) :
    (keyed f circuits).length = circuits.length := by
  induction circuits with
  | nil => rfl
  | cons c circuits ih =>
    obtain ⟨v, hv⟩ := Option.isSome_iff_exists.1 (h c List.mem_cons_self)
    have := ih fun d hd => h d (List.mem_cons_of_mem c hd)
    simpa [keyed, hv] using this

/-- A fade of a scene within R77. -/
def SceneFade (fade : Option Nat) : Prop := ∀ f, fade = some f → f ≤ 6000

/-- Circuits with levels make a scene within R77. -/
theorem Scene.legal_keyed {f : Nat → Option Nat} {circuits : List Nat} {fade : Option Nat} (hc : circuits.Sublist allCircuits)
    (hsome : ∃ c ∈ circuits, (f c).isSome = true) (hlevel : ∀ c v, f c = some v → v ≤ 1000) (hfade : SceneFade fade) :
    (Scene.mk fade (keyed f circuits)).Legal := by
  refine ⟨?_, ascendingCircuits_of_sublist ((keyed_circuits_sublist f circuits).trans hc),
    fun e he => hlevel _ _ (mem_keyed.1 (show (e.1, e.2) ∈ _ from he)).2, hfade⟩
  obtain ⟨c, hcin, hv⟩ := hsome
  obtain ⟨v, hv⟩ := Option.isSome_iff_exists.1 hv
  exact List.ne_nil_of_mem (mem_keyed.2 ⟨hcin, hv⟩)

theorem mem_allCircuits {c : Nat} : c ∈ allCircuits ↔ 1 ≤ c ∧ c ≤ 384 := by
  rw [allCircuits, List.mem_range'_1]
  simp only [Config.circuits]
  omega

theorem entriesInRange_iff (entries : List (Nat × Nat)) :
    entriesInRange entries = true ↔ ∀ p ∈ entries, (1 ≤ p.1 ∧ p.1 ≤ 384) ∧ p.2 ≤ 1000 := by
  simp [entriesInRange]

/-- Which entries an ascending list of some entries holds (R78). -/
theorem mem_sceneList {entries : List (Nat × Nat)} (h : entriesInRange entries = true) {c v : Nat} :
    (c, v) ∈ sceneList entries ↔ levelIn entries c = some v := by
  rw [sceneList_eq_keyed, mem_keyed, mem_allCircuits, and_iff_right_iff_imp]
  exact fun hv => ((entriesInRange_iff entries).1 h _ (mem_of_levelIn hv)).1

/-- Entries in range make a scene within R77 (R78). -/
theorem Scene.legal_sceneList {fade : Option Nat} {entries : List (Nat × Nat)} (hfade : SceneFade fade) (hne : 1 ≤ entries.length)
    (h : entriesInRange entries = true) : (Scene.mk fade (sceneList entries)).Legal := by
  have hrange := (entriesInRange_iff entries).1 h
  obtain ⟨e, he⟩ := List.exists_mem_of_length_pos hne
  exact Scene.legal_keyed (.refl _) ⟨e.1, mem_allCircuits.2 (hrange e he).1, levelIn_isSome he⟩
    (fun c v hv => (hrange _ (mem_of_levelIn hv)).2) hfade

/-- A scene within R77 with entries in range taken after its own (R79). -/
theorem Scene.Legal.entriesInRange_append {sc : Scene} (h : sc.Legal) {entries : List (Nat × Nat)} (he : entriesInRange entries = true) :
    entriesInRange (sc.entries ++ entries) = true := by
  obtain ⟨-, ⟨-, hcircuits⟩, hlevels, -⟩ := h
  rw [entriesInRange_iff] at he ⊢
  intro p hp
  rcases List.mem_append.1 hp with hp | hp
  · exact ⟨hcircuits p.1 (List.mem_map_of_mem hp), hlevels p hp⟩
  · exact he p hp

/-- A scene within R77 extended is within R77 (R79). -/
theorem Scene.Legal.extend {sc : Scene} (h : sc.Legal) {entries : List (Nat × Nat)} (hne : 1 ≤ entries.length)
    (he : entriesInRange entries = true) : (Scene.mk sc.fade (mergeEntries sc.entries entries)).Legal := by
  refine Scene.legal_sceneList ?_ (by rw [List.length_append]; omega) (h.entriesInRange_append he)
  obtain ⟨-, -, -, hfade⟩ := h
  exact hfade

/-- Which entries a scene within R77 holds after entries in range were merged into it (R79). -/
theorem Scene.Legal.mem_mergeEntries {sc : Scene} (h : sc.Legal) {entries : List (Nat × Nat)} (he : entriesInRange entries = true)
    {c v : Nat} : (c, v) ∈ mergeEntries sc.entries entries
      ↔ levelIn entries c = some v ∨ levelIn entries c = none ∧ (c, v) ∈ sc.entries := by
  rw [mergeEntries, mem_sceneList (h.entriesInRange_append he), levelIn_append, Option.or_eq_some_iff, levelIn_eq_some_iff h.nodup]

/-- The circuits that pairs in range name. -/
theorem exists_mem_unionOf {ranges : List (Nat × Nat)} (hne : 1 ≤ ranges.length) (h : rangesInRange ranges = true) :
    ∃ c, c ∈ unionOf ranges := by
  obtain ⟨p, hp⟩ := List.exists_mem_of_length_pos hne
  have hrange := ((rangesInRange_iff ranges).1 h p hp).1
  exact ⟨p.1, (mem_unionOf ranges p.1).2 ⟨hrange, p, hp, by omega⟩⟩

/-- A part with all its circuits has a level for each circuit that pairs name (R1, R80). -/
theorem output_isSome {s : State} (hs : s.circuits.length = 384) {ranges : List (Nat × Nat)} {c : Nat} (hc : c ∈ unionOf ranges) :
    ((circuitAt s.circuits c).map (·.output)).isSome = true := by
  obtain ⟨⟨h1, h2⟩, -⟩ := (mem_unionOf ranges c).1 hc
  rw [Option.isSome_map]
  exact circuitAt_isSome h1 (hs ▸ h2)

/-- Captured circuits make a scene within R77 (R80). -/
theorem Scene.legal_captured {s : State} (hs : s.circuits.length = 384) (hout : ∀ x ∈ s.circuits, x.output ≤ 1000) {fade : Option Nat}
    (hfade : SceneFade fade) {ranges : List (Nat × Nat)} (hne : 1 ≤ ranges.length) (h : rangesInRange ranges = true) :
    (Scene.mk fade (s.captured (unionOf ranges))).Legal := by
  obtain ⟨c, hc⟩ := exists_mem_unionOf hne h
  rw [captured_eq_keyed]
  refine Scene.legal_keyed List.filter_sublist ⟨c, hc, output_isSome hs hc⟩ (fun d v hv => ?_) hfade
  obtain ⟨x, hx, rfl⟩ := Option.map_eq_some_iff.1 hv
  exact hout x (circuitAt_mem hx)

theorem captured_length {s : State} (hs : s.circuits.length = 384) (ranges : List (Nat × Nat)) :
    (s.captured (unionOf ranges)).length = (unionOf ranges).length := by
  rw [captured_eq_keyed]
  exact keyed_length fun c hc => output_isSome hs hc

/-! ## Scenes written, extended, captured and deleted (R78 to R81) -/

theorem sceneAt_putScene {n : Nat} {s : State} (h1 : 1 ≤ n) (h2 : n ≤ s.scenes.length) (x : Option Scene) (m : Nat) :
    sceneAt (s.putScene n x).scenes m = if m = n then x else sceneAt s.scenes m := placeAt_set h1 h2 x m

/-- A scene written within the entry pool keeps the laws of the scene table (R71, R77). -/
theorem LegalScenes.put {s : State} (h : LegalScenes s.scenes) {n : Nat} (hn : 1 ≤ n ∧ n ≤ 32) {x : Option Scene}
    (hx : ∀ sc, x = some sc → sc.Legal) (hroom : ((x.map (·.entries)).getD []).length ≤ s.sceneLength n + s.entriesFree) :
    LegalScenes (s.putScene n x).scenes := by
  obtain ⟨hlength, hscenes, hpool⟩ := h
  refine ⟨(List.length_set).trans hlength, fun sc hsc => ?_, ?_⟩
  · rcases List.mem_or_eq_of_mem_set hsc with hsc | hsc
    · exact hscenes sc hsc
    · exact hx sc hsc.symm
  · have hsum := sum_sizes_set (fun y : Option Scene => ((y.map (·.entries)).getD []).length) hn.1 (by rw [hlength]; exact hn.2) x
    simp only [State.sceneLength, State.entriesFree, entriesUsed, State.putScene, withScenes_scenes, sceneAt_eq_placeAt] at *
    omega

theorem optWithin_fade_iff (fade : Option Nat) : optWithin 0 6000 fade = true ↔ SceneFade fade := by
  cases fade <;> simp [optWithin, SceneFade]

/-- WRITE SCENE by its checks (R78). -/
theorem writeScene_eq (n : Nat) (fade : Option Nat) (entries : List (Nat × Nat)) (s : State) : s.writeScene n fade entries
      = if (1 ≤ n ∧ n ≤ 32) ∧ (1 ≤ entries.length ∧ entries.length ≤ 60) ∧ optWithin 0 6000 fade = true
            ∧ entriesInRange entries = true then
          s.placeScene n ⟨fade, sceneList entries⟩
        else s.refuse .range := by
  simp only [State.writeScene, ite_not_refused, within_iff, ite_and]

/-- EXTEND SCENE by its checks (R79). -/
theorem extendScene_eq (n : Nat) (entries : List (Nat × Nat)) (s : State) : s.extendScene n entries
      = if (1 ≤ n ∧ n ≤ 32) ∧ (1 ≤ entries.length ∧ entries.length ≤ 60) ∧ entriesInRange entries = true then
          ((sceneAt s.scenes n).map fun sc => s.placeScene n ⟨sc.fade, mergeEntries sc.entries entries⟩).getD (s.refuse .notFound)
        else s.refuse .range := by
  simp only [State.extendScene, ite_not_refused, within_iff, ite_and]
  cases sceneAt s.scenes n <;> rfl

/-- CAPTURE SCENE by its checks (R80). -/
theorem captureScene_eq (n : Nat) (fade : Option Nat) (ranges : List (Nat × Nat)) (s : State) : s.captureScene n fade ranges
      = if (1 ≤ n ∧ n ≤ 32) ∧ (1 ≤ ranges.length ∧ ranges.length ≤ 60) ∧ rangesInRange ranges = true
            ∧ optWithin 0 6000 fade = true then
          s.placeScene n ⟨fade, s.captured (unionOf ranges)⟩
        else s.refuse .range := by
  simp only [State.captureScene, ite_not_refused, within_iff, ite_and]

/-- DELETE SCENE by its checks (R81). -/
theorem deleteScene_eq (n : Nat) (s : State) : s.deleteScene n
      = if 1 ≤ n ∧ n ≤ 32 then
          if (sceneAt s.scenes n).isNone then s.refuse .notFound
          else (s.putScene n none).done (be2 (s.putScene n none).entriesFree)
        else s.refuse .range := by
  simp only [State.deleteScene, ite_not_refused, within_iff, ite_and]

end Sys2Proof.Machine

namespace Sys2Proof.Machine

/-! ## The requests on scenes (R78 to R81) -/

/-- A request that places a scene for which the entry pool has room (R71, R78 to R80). -/
theorem placeScene_completes {i : Instr} {s : State} {owner : State → Carried} {n : Nat} {sc : Scene} (hserves : s.Serves i)
    (hready : s.store.state = .ready) (he : exec i s = .next (s.complete i (State.storedWrite owner)))
    (ho : owner (s.accept i) = (s.accept i).placeScene n sc) (h1 : 1 ≤ n) (h2 : n ≤ s.scenes.length)
    (hroom : sc.entries.length ≤ s.sceneLength n + s.entriesFree) :
    ∃ t, s.Completes t i .ok (be2 sc.entries.length ++ be2 t.entriesFree) ∧ t = { s with scenes := t.scenes, port := t.port }
      ∧ sceneAt t.scenes n = some sc ∧ ∀ m, m ≠ n → sceneAt t.scenes m = sceneAt s.scenes m := by
  have howner := ho.trans (if_neg (Nat.not_lt.2 hroom))
  have hplace := sceneAt_putScene h1 h2 (some sc)
  exact ⟨_, write_completes hserves hready he howner rfl, rfl, (hplace n).trans (if_pos rfl), fun m hm => (hplace m).trans (if_neg hm)⟩

/-- A request that places a scene for which the entry pool has no room (R71, R78 to R80). -/
theorem placeScene_refuses {i : Instr} {s : State} {owner : State → Carried} {n : Nat} {sc : Scene} (hserves : s.Serves i)
    (hready : s.store.state = .ready) (he : exec i s = .next (s.complete i (State.storedWrite owner)))
    (ho : owner (s.accept i) = (s.accept i).placeScene n sc) (hfull : s.sceneLength n + s.entriesFree < sc.entries.length) :
    s.Refuses i .poolFull := write_refuses hserves hready he (ho.trans (if_pos hfull))

theorem writeScene_inRange {n : Nat} {fade : Option Nat} {entries : List (Nat × Nat)} (hn : 1 ≤ n ∧ n ≤ 32) (hfade : SceneFade fade)
    (hlen : 1 ≤ entries.length ∧ entries.length ≤ 60) (hrange : entriesInRange entries = true) (s : State) :
    s.writeScene n fade entries = s.placeScene n ⟨fade, sceneList entries⟩ :=
  (writeScene_eq n fade entries s).trans (if_pos ⟨hn, hlen, (optWithin_fade_iff fade).2 hfade, hrange⟩)

theorem extendScene_inRange {n : Nat} {entries : List (Nat × Nat)} (hn : 1 ≤ n ∧ n ≤ 32)
    (hlen : 1 ≤ entries.length ∧ entries.length ≤ 60) (hrange : entriesInRange entries = true) (s : State) : s.extendScene n entries
      = ((sceneAt s.scenes n).map fun sc => s.placeScene n ⟨sc.fade, mergeEntries sc.entries entries⟩).getD (s.refuse .notFound) :=
  (extendScene_eq n entries s).trans (if_pos ⟨hn, hlen, hrange⟩)

theorem extendScene_defined {n : Nat} {entries : List (Nat × Nat)} (hn : 1 ≤ n ∧ n ≤ 32)
    (hlen : 1 ≤ entries.length ∧ entries.length ≤ 60) (hrange : entriesInRange entries = true) {s : State} {old : Scene}
    (hold : sceneAt s.scenes n = some old) : s.extendScene n entries = s.placeScene n ⟨old.fade, mergeEntries old.entries entries⟩ := by
  rw [extendScene_inRange hn hlen hrange, hold]
  rfl

theorem extendScene_undefined {n : Nat} {entries : List (Nat × Nat)} (hn : 1 ≤ n ∧ n ≤ 32)
    (hlen : 1 ≤ entries.length ∧ entries.length ≤ 60) (hrange : entriesInRange entries = true) {s : State}
    (hnone : sceneAt s.scenes n = none) : s.extendScene n entries = s.refuse .notFound := by
  rw [extendScene_inRange hn hlen hrange, hnone]
  rfl

theorem captureScene_inRange {n : Nat} {fade : Option Nat} {ranges : List (Nat × Nat)} (hn : 1 ≤ n ∧ n ≤ 32) (hfade : SceneFade fade)
    (hlen : 1 ≤ ranges.length ∧ ranges.length ≤ 60) (hrange : rangesInRange ranges = true) (s : State) :
    s.captureScene n fade ranges = s.placeScene n ⟨fade, s.captured (unionOf ranges)⟩ :=
  (captureScene_eq n fade ranges s).trans (if_pos ⟨hn, hlen, hrange, (optWithin_fade_iff fade).2 hfade⟩)

/-- Which entries a captured scene holds (R80). -/
theorem mem_captured {s : State} {ranges : List (Nat × Nat)} (hrange : rangesInRange ranges = true) {c v : Nat} :
    (c, v) ∈ s.captured (unionOf ranges)
      ↔ (∃ r ∈ ranges, min r.1 r.2 ≤ c ∧ c ≤ max r.1 r.2) ∧ ∃ x, circuitAt s.circuits c = some x ∧ v = x.output := by
  rw [captured_eq_keyed, mem_keyed, mem_unionOf, Option.map_eq_some_iff]
  have hnamed (h : ∃ r ∈ ranges, min r.1 r.2 ≤ c ∧ c ≤ max r.1 r.2) : 1 ≤ c ∧ c ≤ 384 := by
    obtain ⟨r, hr, hc⟩ := h
    have := (rangesInRange_iff ranges).1 hrange r hr
    omega
  exact and_congr ⟨fun h => h.2, fun h => ⟨hnamed h, h⟩⟩ (exists_congr fun x => and_congr_right fun _ => eq_comm)

/-- Settles O42: each request by its checks; the list that it places is keyed by the circuits in their order. -/
theorem scenesAreWrittenExtendedCapturedAndDeleted : Obligations.ScenesAreWrittenExtendedCapturedAndDeleted := by
  refine ⟨fun n s hready htargets hcircuits hn1 hn2 => ?_, fun n s hready htargets hcircuits hn1 hn2 => ?_, fun n s hready => ?_⟩
  · obtain ⟨-, hscenes, -⟩ := htargets
    have hn : n ≤ s.scenes.length := by rw [hscenes.1]; exact hn2
    refine ⟨fun fade entries hserves hfade hne hlen hrange hroom => ?_, fun entries old hserves hne hlen hrange hold hroom => ?_,
      fun fade ranges hserves hfade hne hlen hrange hroom hout => ?_, fun hserves => ⟨fun hnone => ?_, fun sc hsc => ?_⟩⟩
    · obtain ⟨t, hdone, hframe, hplaced, hothers⟩ := placeScene_completes hserves hready rfl
        (writeScene_inRange ⟨hn1, hn2⟩ hfade ⟨hne, hlen⟩ hrange _) hn1 hn hroom
      exact ⟨t, _, hdone, hframe, hplaced, Scene.legal_sceneList hfade hne hrange, rfl, fun _ _ => mem_sceneList hrange, hothers⟩
    · obtain ⟨t, hdone, hframe, hplaced, hothers⟩ := placeScene_completes hserves hready rfl
        (extendScene_defined ⟨hn1, hn2⟩ ⟨hne, hlen⟩ hrange hold) hn1 hn hroom
      have hlegal := hscenes.legal hold
      exact ⟨t, _, hdone, hframe, hplaced, hlegal.extend hne hrange, rfl, fun _ _ => hlegal.mem_mergeEntries hrange, hothers⟩
    · obtain ⟨t, hdone, hframe, hplaced, hothers⟩ := placeScene_completes hserves hready rfl
        (captureScene_inRange ⟨hn1, hn2⟩ hfade ⟨hne, hlen⟩ hrange _) hn1 hn ((captured_length hcircuits ranges).trans_le hroom)
      exact ⟨t, _, hdone, hframe, hplaced, Scene.legal_captured hcircuits hout hfade hne hrange, rfl, fun _ _ => mem_captured hrange, hothers⟩
    · exact write_refuses hserves hready rfl
        ((deleteScene_eq n _).trans ((if_pos ⟨hn1, hn2⟩).trans (if_pos (Option.isNone_iff_eq_none.2 hnone))))
    · have howner := (deleteScene_eq n (s.accept (.deleteScene n))).trans ((if_pos ⟨hn1, hn2⟩).trans (if_neg (by simp [hsc])))
      have hplace := sceneAt_putScene hn1 hn none
      exact ⟨_, write_completes hserves hready rfl howner rfl, rfl, (hplace n).trans (if_pos rfl), fun m hm => (hplace m).trans (if_neg hm)⟩
  · refine ⟨fun fade entries hserves hfade hne hlen hrange hfull => ?_,
      fun entries hserves hne hlen hrange => ⟨fun hnone => ?_, fun old hold hfull => ?_⟩,
      fun fade ranges hserves hfade hne hlen hrange hfull => ?_⟩
    · exact placeScene_refuses hserves hready rfl (writeScene_inRange ⟨hn1, hn2⟩ hfade ⟨hne, hlen⟩ hrange _) hfull
    · exact write_refuses hserves hready rfl (extendScene_undefined ⟨hn1, hn2⟩ ⟨hne, hlen⟩ hrange hnone)
    · exact placeScene_refuses hserves hready rfl (extendScene_defined ⟨hn1, hn2⟩ ⟨hne, hlen⟩ hrange hold) hfull
    · exact placeScene_refuses hserves hready rfl (captureScene_inRange ⟨hn1, hn2⟩ hfade ⟨hne, hlen⟩ hrange _)
        (hfull.trans_eq (captured_length hcircuits ranges).symm)
  · refine ⟨fun fade entries hserves hout => ?_, fun entries hserves hout => ?_, fun fade ranges hserves hout => ?_, fun hserves hout => ?_⟩
    · refine refuses_range hserves hready rfl (writeScene_eq n fade entries _) ?_
      rw [optWithin_fade_iff, entriesInRange_iff]
      grind [SceneFade]
    · refine refuses_range hserves hready rfl (extendScene_eq n entries _) ?_
      rw [entriesInRange_iff]
      grind
    · refine refuses_range hserves hready rfl (captureScene_eq n fade ranges _) ?_
      rw [optWithin_fade_iff, rangesInRange_iff]
      grind [SceneFade]
    · exact refuses_range hserves hready rfl (deleteScene_eq n _) (by omega)

end Sys2Proof.Machine

namespace Sys2Proof.Machine

/-! ## What events, samples, exchanges and transactions leave -/

/-- Everything of a state but the circuits, the house mode, the lines, the inputs, the port and what SEL brings. -/
structure Background where
  phase      : Phase
  resetLow   : Bool
  startCause : StartCause
  slots      : List Slot
  index      : List IndexEntry
  groups     : List (Option (List Nat))
  scenes     : List (Option Scene)
  options    : ModeOptions
  stage1     : Stage
  stage2     : Stage
  ignored1   : Nat
  ignored2   : Nat
  link       : Link
  store      : Store
  pending    : List Instr

/-- The background of a state. -/
def State.background (s : State) : Background :=
  ⟨s.phase, s.resetLow, s.startCause, s.slots, s.index, s.groups, s.scenes, s.options, s.stage1, s.stage2, s.ignored1, s.ignored2, s.link,
    s.store, s.pending⟩

@[simp] theorem withCircuits_background (s : State) (x : List Circuit) : (s.withCircuits x).background = s.background := rfl
@[simp] theorem withInputs_background (s : State) (x : List ContactInput) : (s.withInputs x).background = s.background := rfl
@[simp] theorem withSafe1_background (s : State) (x : Pin) : (s.withSafe1 x).background = s.background := rfl
@[simp] theorem withSafe2_background (s : State) (x : Pin) : (s.withSafe2 x).background = s.background := rfl
@[simp] theorem withCue1_background (s : State) (x : CueInput) : (s.withCue1 x).background = s.background := rfl
@[simp] theorem withCue2_background (s : State) (x : CueInput) : (s.withCue2 x).background = s.background := rfl
@[simp] theorem withSettleSamples_background (s : State) (x : Nat) : (s.withSettleSamples x).background = s.background := rfl
@[simp] theorem withPort_background (s : State) (x : Port) : (s.withPort x).background = s.background := rfl
@[simp] theorem withSpi_background (s : State) (x : Option Transfer) : (s.withSpi x).background = s.background := rfl
@[simp] theorem raise_background (s : State) (f : Flag) : (s.raise f).background = s.background := rfl
@[simp] theorem mapCircuits_background (s : State) (f : Circuit → Circuit) : (s.mapCircuits f).background = s.background := rfl
@[simp] theorem onCircuit_background (n : Nat) (f : Circuit → Circuit) (s : State) : (s.onCircuit n f).background = s.background := rfl
@[simp] theorem stateEndMovement_background (p : LocalOwner → Bool) (s : State) : (s.endMovement p).background = s.background := rfl

@[simp] theorem withLine_background (l : Line) (x : LineCtl) (s : State) : (s.withLine l x).background = s.background := by cases l <;> rfl

@[simp] theorem withCue_background (c : CueLine) (x : CueInput) (s : State) : (s.withCue c x).background = s.background := by cases c <;> rfl

@[simp] theorem withSafePin_background (i : SafeInput) (p : Pin) (s : State) : (s.withSafePin i p).background = s.background := by
  cases i <;> rfl

@[simp] theorem withContact_background (n : Nat) (x : ContactInput) (s : State) : (s.withContact n x).background = s.background := by
  unfold State.withContact; split <;> rfl

/-- An event leaves the background (R54). -/
theorem EventFrame.background {s t : State} (h : EventFrame s t) : t.background = s.background := by rw [h.state]; rfl

@[simp] theorem changeMode_background (m : Mode) (fade : Nat) (s : State) : (s.changeMode m fade).background = s.background :=
  (changeMode_frame m fade s).background

@[simp] theorem resolve_background (k : SourceKey) (e : EventKind) (s : State) : (s.resolve k e).background = s.background :=
  (resolve_frame k e s).background

@[simp] theorem deliver_background (l : Line) (a : Nat) (events : List (Nat × EventKind)) (s : State) :
    (s.deliver l a events).background = s.background := (deliver_frame l a events s).background

/-! ### Contact and safety inputs -/

@[simp] theorem contactClosed_background (n : Nat) (x : ContactInput) (s : State) : (s.contactClosed n x).background = s.background := by
  unfold State.contactClosed; split <;> simp

@[simp] theorem contactOpened_background (n : Nat) (x : ContactInput) (s : State) : (s.contactOpened n x).background = s.background := by
  unfold State.contactOpened; dsimp only; split <;> simp

@[simp] theorem contactHeld_background (n : Nat) (x : ContactInput) (s : State) : (s.contactHeld n x).background = s.background := by
  simp [State.contactHeld]

@[simp] theorem contactStuck_background (n : Nat) (x : ContactInput) (s : State) : (s.contactStuck n x).background = s.background := by
  simp [State.contactStuck]

@[simp] theorem contactTurned_background (n : Nat) (x : ContactInput) (s : State) : (s.contactTurned n x).background = s.background := by
  unfold State.contactTurned; split <;> simp

/-- A sample of a contact input (R116). -/
@[simp] theorem sampleContact_background (n : Nat) (level : Bool) (s : State) : (s.sampleContact n level).background = s.background := by
  unfold State.sampleContact State.contactCounted
  dsimp only
  repeat' split
  all_goals simp

theorem onContact_background (n : Nat) (occasion : ContactInput → Bool) {f : ContactInput → State → State}
    (hf : ∀ x s, (f x s).background = s.background) (s : State) : (s.onContact n occasion f).background = s.background := by
  unfold State.onContact
  repeat' split
  all_goals simp [hf]

@[simp] theorem assertInput_background (i : SafeInput) (s : State) : (s.assertInput i).background = s.background := by
  simp [State.assertInput]

@[simp] theorem deassertInput_background (i : SafeInput) (s : State) : (s.deassertInput i).background = s.background := by
  simp [State.deassertInput]

@[simp] theorem sampleSafe_background (i : SafeInput) (level : Bool) (s : State) : (s.sampleSafe i level).background = s.background := by
  unfold State.sampleSafe
  repeat' split
  all_goals simp

/-- A sample of step 4 of start-up (R122). -/
@[simp] theorem settleSample_background (pins : BitVec 28) (s : State) : (s.settleSample pins).background = s.background := by
  unfold State.settleSample; split <;> simp

/-! ### Station lines -/

@[simp] theorem faultLine_background (l : Line) (s : State) : (s.faultLine l).background = s.background := by simp [State.faultLine]

@[simp] theorem walk_background (l : Line) (s : State) : (s.walk l).background = s.background := by
  unfold State.walk State.endRound State.poll
  dsimp only
  repeat' split
  all_goals simp

@[simp] theorem chooseExchange_background (l : Line) (s : State) : (s.chooseExchange l).background = s.background := by
  unfold State.chooseExchange State.repeatOrWalk State.poll
  repeat' split
  all_goals simp

@[simp] theorem collide_background (l : Line) (s : State) : (s.collide l).background = s.background := by
  unfold State.collide
  dsimp only
  repeat' split
  all_goals simp

@[simp] theorem raiseIf_background (cond : Bool) (f : Flag) (s : State) : (s.raiseIf cond f).background = s.background := by
  unfold State.raiseIf; split <;> simp

@[simp] theorem validReply_background (l : Line) (r : Station) (reply : StationReply) (s : State) :
    (s.validReply l r reply).background = s.background := by
  unfold State.validReply State.onStation; dsimp only; split <;> simp

@[simp] theorem miss_background (l : Line) (r : Station) (s : State) : (s.miss l r).background = s.background := by
  unfold State.miss State.onStation; dsimp only; split <;> simp

@[simp] theorem censusJudged_background (l : Line) (a : Nat) (entry : Option StationIdent) (s : State) :
    (s.censusJudged l a entry).background = s.background := by
  unfold State.censusJudged; dsimp only; split <;> simp

@[simp] theorem judge_background (l : Line) (x : Exchange) (chars : Option (List RxChar)) (s : State) :
    (s.judge l x chars).background = s.background := by
  unfold State.judge
  repeat' split
  all_goals simp

/-- The end of a reply window (R105). -/
@[simp] theorem endReply_background (l : Line) (chars : Option (List RxChar)) (s : State) : (s.endReply l chars).background = s.background := by
  unfold State.endReply
  dsimp only
  repeat' split
  all_goals simp

@[simp] theorem breakLine_background (l : Line) (s : State) : (s.breakLine l).background = s.background := by
  unfold State.breakLine; split <;> simp

@[simp] theorem recoverLine_background (l : Line) (s : State) : (s.recoverLine l).background = s.background := by
  unfold State.recoverLine; split <;> simp

@[simp] theorem endWait_background (l : Line) (s : State) : (s.endWait l).background = s.background := by
  unfold State.endWait; split <;> simp

/-! ### Transactions -/

/-- A piece of a transaction (R146). -/
@[simp] theorem shift_background (bits : List Bool) (rises : Bool) (s : State) : (s.shift bits rises).background = s.background := by
  have hlow : (s.shift bits false).background = s.background := by rw [shift_low_touches]; rfl
  cases rises with
  | false => exact hlow
  | true =>
    refine .trans ?_ hlow
    show (s.shift bits false).riseSel.background = _
    unfold State.riseSel State.endTransaction
    split
    · rfl
    · rw [withSpi_background]
      split
      · rfl
      · split
        · rw [takeFrame_touches]; rfl
        · split <;> rfl

/-- A piece of a fetch (R150). -/
@[simp] theorem fetch_background (bits : Nat) (rises : Bool) (s : State) : (s.fetch bits rises).background = s.background := by
  unfold State.fetch
  dsimp only
  repeat' split
  all_goals simp

/-! ### Requests -/

theorem clearAttention_background (flags : Nat) (s : State) : (s.clearAttention flags).state.background = s.background := by
  unfold State.clearAttention; split <;> rfl

theorem setAttentionMask_background (mask : Nat) (s : State) : (s.setAttentionMask mask).state.background = s.background := by
  unfold State.setAttentionMask; split <;> rfl

theorem setCircuitConfig_background (first last : Nat) (f : CircuitFields) (s : State) :
    (s.setCircuitConfig first last f).state.background = s.background := by
  unfold State.setCircuitConfig
  repeat' split
  all_goals rfl

theorem claimLevel_background (n code v fade : Nat) (s : State) : (s.claimLevel n code v fade).state.background = s.background := by
  unfold State.claimLevel
  repeat' split
  all_goals rfl

theorem releaseLayer_background (n code fade : Nat) (s : State) : (s.releaseLayer n code fade).state.background = s.background := by
  unfold State.releaseLayer
  repeat' split
  all_goals rfl

theorem injectEvent_background (k : RawKey) (kind : Nat) (s : State) : (s.injectEvent k kind).state.background = s.background := by
  unfold State.injectEvent
  repeat' split
  all_goals simp

theorem setMode_background (m : Nat) (fade : Option Nat) (s : State) : (s.setMode m fade).state.background = s.background := by
  unfold State.setMode
  repeat' split
  all_goals simp

theorem setLineConfig_background (line : Nat) (f : LineFields) (s : State) :
    (s.setLineConfig line f).state.background = s.background := by
  unfold State.setLineConfig
  repeat' split
  all_goals simp

theorem enrolStation_background (line a buttons indicators : Nat) (s : State) :
    (s.enrolStation line a buttons indicators).state.background = s.background := by
  unfold State.enrolStation
  repeat' split
  all_goals simp

theorem unenrolStation_background (line a : Nat) (s : State) : (s.unenrolStation line a).state.background = s.background := by
  unfold State.unenrolStation
  dsimp only
  repeat' split
  all_goals simp

theorem censusStart_background (line : Nat) (s : State) : (s.censusStart line).state.background = s.background := by
  unfold State.censusStart
  repeat' split
  all_goals simp

theorem setInputConfig_background (n : Nat) (f : InputFields) (s : State) : (s.setInputConfig n f).state.background = s.background := by
  unfold State.setInputConfig
  repeat' split
  all_goals simp

end Sys2Proof.Machine

namespace Sys2Proof.Machine

/-! ## Staging banks (R128 to R135) -/

/-- The circuits of a bank after an entry: the entry's circuit stands in its ascending place (R129). -/
theorem putEntry_circuits (c : Nat) (e : StageForm) (l : List (Nat × StageForm)) :
    (putEntry c e l).map (·.1) = insertAscending c (l.map (·.1)) := by
  induction l with
  | nil => rfl
  | cons x l ih =>
    simp only [putEntry, List.map_cons, insertAscending]
    split
    · rfl
    · split
      · next h => rw [← h, List.map_cons]
      · rw [List.map_cons, ih]

/-- An entry within the ranges of R129 keeps the laws of its bank. -/
theorem Stage.Legal.enter {x : Stage} (h : x.Legal) {c : Nat} (hc : 1 ≤ c ∧ c ≤ 384) {e : StageForm} (he : entryInRange e = true) :
    (x.enter c e).Legal := by
  obtain ⟨⟨hascending, hcircuits⟩, hvalues, -⟩ := h
  have hcs := putEntry_circuits c e x.entries
  refine ⟨⟨?_, fun d hd => ?_⟩, fun y hy => ?_, iff_of_false nofun fun hnil => ?_⟩
  · exact hcs ▸ insertAscending_ascending c _ hascending
  · rcases (mem_insertAscending c d _).1 (hcs ▸ hd) with rfl | hd
    · exact hc
    · exact hcircuits d hd
  · rcases (mem_putEntry c e x.entries hascending y).1 hy with rfl | ⟨hy, -⟩
    · cases e <;> simpa [entryInRange] using he
    · exact hvalues y hy
  · exact insertAscending_ne_nil c _ (hcs.symm.trans (congrArg (List.map (·.1)) hnil))

theorem Stage.emptied_legal (x : Stage) : x.emptied.Legal := ⟨⟨.nil, nofun⟩, nofun, iff_of_true rfl rfl⟩

theorem Stage.reset_legal : Stage.reset.Legal := ⟨⟨.nil, nofun⟩, nofun, iff_of_true rfl rfl⟩

/-- A bank that is not Empty is turned to Loading or Standby (R132). -/
theorem Stage.Legal.turn {x : Stage} (h : x.Legal) (hx : x.state ≠ .empty) {st : StageState} (hst : st ≠ .empty) :
    Stage.Legal { x with state := st } := by
  obtain ⟨hcircuits, hvalues, hempty⟩ := h
  exact ⟨hcircuits, hvalues, iff_of_false hst fun hnil => hx (hempty.2 hnil)⟩

/-! ## The laws of groups, scenes and stages -/

/-- What the laws of groups, scenes and stages look at. -/
structure Boards where
  groups   : List (Option (List Nat))
  scenes   : List (Option Scene)
  store    : Store
  stage1   : Stage
  stage2   : Stage
  ignored1 : Nat
  ignored2 : Nat

def State.boards (s : State) : Boards := ⟨s.groups, s.scenes, s.store, s.stage1, s.stage2, s.ignored1, s.ignored2⟩

/-- The laws of the target tables and of the staging banks (R71, R72, R77, R128). -/
structure State.BoardsSound (s : State) : Prop where
  targets : s.TargetsSound
  stages : s.StagesSound

theorem State.BoardsSound.of_boards {s t : State} (h : s.BoardsSound) (ht : t.boards = s.boards) : t.BoardsSound := by
  obtain ⟨htargets, hstages⟩ := h
  simp only [State.boards, Boards.mk.injEq] at ht
  obtain ⟨hgroups, hscenes, hstore, hstage1, hstage2, hignored1, hignored2⟩ := ht
  exact ⟨by rw [State.TargetsSound, hgroups, hscenes, hstore]; exact htargets,
    by rw [State.StagesSound, hstage1, hstage2, hignored1, hignored2]; exact hstages⟩

theorem State.BoardsSound.of_background {s t : State} (h : s.BoardsSound) (ht : t.background = s.background) : t.BoardsSound :=
  h.of_boards (congrArg (fun b : Background => Boards.mk b.groups b.scenes b.store b.stage1 b.stage2 b.ignored1 b.ignored2) ht)

theorem State.BoardsSound.stage {s : State} (h : s.BoardsSound) (i : StageId) : (s.stage i).Legal := by
  obtain ⟨-, hstage1, hstage2, -⟩ := h
  cases i
  · exact hstage1
  · exact hstage2

/-- A bank is written. -/
theorem State.BoardsSound.withStage {s : State} (h : s.BoardsSound) (i : StageId) {x : Stage} (hx : x.Legal) :
    (s.withStage i x).BoardsSound := by
  obtain ⟨htargets, hstage1, hstage2, hignored⟩ := h
  cases i
  · exact ⟨htargets, hx, hstage2, hignored⟩
  · exact ⟨htargets, hstage1, hx, hignored⟩

/-- A request that one of its checks may refuse. -/
theorem orRefused_boards {s : State} {r : ResultCode} {x : Carried} {p : Prop} [Decidable p] (h : s.BoardsSound)
    (hx : ¬p → x.state.BoardsSound) : (if p then s.refuse r else x).state.BoardsSound := by
  split
  · exact h
  · next hp => exact hx hp

/-! ### Transfers and cues (R133 to R136) -/

theorem transferOne_boards (i : StageId) {s : State} (h : s.BoardsSound) : (s.transferOne i).BoardsSound :=
  State.BoardsSound.withStage (h.of_background (withCircuits_background s _)) i (s.stage i).emptied_legal

theorem transfer_boards (i : StageId) {s : State} (h : s.BoardsSound) : (s.transfer i).BoardsSound := by
  unfold State.transfer
  dsimp only
  split
  · exact transferOne_boards _ (transferOne_boards i h)
  · exact transferOne_boards i h

theorem bump_le (n : Nat) : bump n ≤ 255 := Nat.min_le_right _ _

theorem countIgnored_boards (c : CueLine) {s : State} (h : s.BoardsSound) : (s.countIgnored c).BoardsSound := by
  obtain ⟨htargets, hstage1, hstage2, hignored1, hignored2⟩ := h
  cases c
  · exact ⟨htargets, hstage1, hstage2, bump_le _, hignored2⟩
  · exact ⟨htargets, hstage1, hstage2, hignored1, bump_le _⟩

/-- A cue event at the stage unit (R134). -/
theorem cueArrives_boards (c : CueLine) {s : State} (h : s.BoardsSound) : (s.cueArrives c).BoardsSound := by
  have hone (b : Bool) : (if b then s.transfer .one else s).BoardsSound := by
    split
    · exact transfer_boards .one h
    · exact h
  unfold State.cueArrives
  dsimp only
  split
  · split
    · exact transfer_boards .two (hone _)
    · exact hone _
  · exact (countIgnored_boards c h).of_background (raise_background _ _)

theorem sampleCue_boards (c : CueLine) (level : Bool) {s : State} (h : s.BoardsSound) : (s.sampleCue c level).BoardsSound := by
  unfold State.sampleCue
  dsimp only
  split
  · exact cueArrives_boards c (h.of_background (withCue_background c _ s))
  · exact h.of_background (withCue_background c _ s)

theorem sampleInput_boards (pins : BitVec 28) (n : Nat) {s : State} (h : s.BoardsSound) : (State.sampleInput pins s n).BoardsSound := by
  unfold State.sampleInput
  dsimp only
  split
  · exact h.of_background (sampleSafe_background .safe1 _ s)
  · split
    · exact h.of_background (sampleSafe_background .safe2 _ s)
    · split
      · exact sampleCue_boards .cue1 _ h
      · split
        · exact sampleCue_boards .cue2 _ h
        · exact h.of_background (sampleContact_background n _ s)

/-- A sample of the pins (R116, R122). -/
theorem contactSample_boards (pins : BitVec 28) (order : List Nat) {s : State} (h : s.BoardsSound) :
    (s.contactSample pins order).BoardsSound := by
  unfold State.contactSample
  split
  · exact h.of_background (settleSample_background pins s)
  · exact List.foldlRecOn _ _ h fun u hu n _ => sampleInput_boards pins n hu
  · exact h
  · exact h

/-! ### The requests on stages (R129 to R133) -/

theorem stageEntry_boards (stage circuit : Nat) (e : StageForm) {s : State} (h : s.BoardsSound) :
    (s.stageEntry stage circuit e).state.BoardsSound := by
  unfold State.stageEntry
  split
  · exact h
  · next i _ =>
    refine orRefused_boards h fun hrange => orRefused_boards h fun _ => h.withStage i ?_
    simp only [Bool.not_eq_true', Bool.not_eq_false, Bool.and_eq_true, within_iff] at hrange
    exact (h.stage i).enter hrange.1 hrange.2

theorem stageClear_boards (stage : Nat) {s : State} (h : s.BoardsSound) : (s.stageClear stage).state.BoardsSound := by
  unfold State.stageClear
  split
  · exact h
  · next i _ => exact orRefused_boards h fun _ => h.withStage i (s.stage i).emptied_legal

theorem setStageTrigger_boards (stage trigger : Nat) {s : State} (h : s.BoardsSound) :
    (s.setStageTrigger stage trigger).state.BoardsSound := by
  unfold State.setStageTrigger
  split
  · next i _ _ _ => exact orRefused_boards h fun _ => h.withStage i (h.stage i)
  · exact h

theorem standby_boards (stage : Nat) {s : State} (h : s.BoardsSound) : (s.standby stage).state.BoardsSound := by
  unfold State.standby
  split
  · exact h
  · next i _ => exact orRefused_boards h fun hfilled => h.withStage i ((h.stage i).turn hfilled nofun)

theorem unstandby_boards (stage : Nat) {s : State} (h : s.BoardsSound) : (s.unstandby stage).state.BoardsSound := by
  unfold State.unstandby
  split
  · exact h
  · next i _ =>
    split
    · next hstandby => exact h.withStage i ((h.stage i).turn (by rw [hstandby]; exact nofun) nofun)
    · exact h

theorem go_boards (stage : Nat) {s : State} (h : s.BoardsSound) : (s.go stage).state.BoardsSound := by
  unfold State.go
  split
  · exact h
  · next i _ =>
    split
    · exact transfer_boards i h
    · exact h

/-! ### The requests on groups and scenes (R73, R74, R78 to R81) -/

/-- A group is written within its pool. -/
theorem State.BoardsSound.putGroup {s : State} (h : s.BoardsSound) {g : Nat} (hg : 1 ≤ g ∧ g ≤ 64) {x : Option (List Nat)}
    (hx : ∀ l, x = some l → AscendingCircuits l) (hroom : (x.getD []).length ≤ s.groupLength g + s.membersFree) :
    (s.putGroup g x).BoardsSound := by
  obtain ⟨⟨hgroups, hscenes, hstore⟩, hstages⟩ := h
  exact ⟨⟨hgroups.put hg hx hroom, hscenes, hstore⟩, hstages⟩

/-- A scene is written within its pool. -/
theorem State.BoardsSound.putScene {s : State} (h : s.BoardsSound) {n : Nat} (hn : 1 ≤ n ∧ n ≤ 32) {x : Option Scene}
    (hx : ∀ sc, x = some sc → sc.Legal) (hroom : ((x.map (·.entries)).getD []).length ≤ s.sceneLength n + s.entriesFree) :
    (s.putScene n x).BoardsSound := by
  obtain ⟨⟨hgroups, hscenes, hstore⟩, hstages⟩ := h
  exact ⟨⟨hgroups, hscenes.put hn hx hroom, hstore⟩, hstages⟩

/-- A request that its checks let pass, or that is refused. -/
theorem passed_boards {s : State} {r : ResultCode} {x : Carried} {p : Prop} [Decidable p] (h : s.BoardsSound)
    (hx : p → x.state.BoardsSound) : (if p then x else s.refuse r).state.BoardsSound := by
  split
  · next hp => exact hx hp
  · exact h

theorem writeGroup_boards (g : Nat) (ranges : List (Nat × Nat)) {s : State} (h : s.BoardsSound) :
    (s.writeGroup g ranges).state.BoardsSound := by
  rw [writeGroup_eq]
  refine passed_boards h fun ⟨hg, _, _⟩ => orRefused_boards h fun hroom => h.putGroup hg (fun l hl => ?_) (Nat.not_lt.1 hroom)
  cases hl
  exact unionOf_ascending ranges

theorem deleteGroup_boards (g : Nat) {s : State} (h : s.BoardsSound) : (s.deleteGroup g).state.BoardsSound := by
  rw [deleteGroup_eq]
  exact passed_boards h fun hg => orRefused_boards h fun _ => h.putGroup hg nofun (Nat.zero_le _)

theorem placeScene_boards {n : Nat} (hn : 1 ≤ n ∧ n ≤ 32) {sc : Scene} (hsc : sc.Legal) {s : State} (h : s.BoardsSound) :
    (s.placeScene n sc).state.BoardsSound :=
  orRefused_boards h fun hroom => h.putScene hn (fun _ he => Option.some.inj he ▸ hsc) (Nat.not_lt.1 hroom)

theorem writeScene_boards (n : Nat) (fade : Option Nat) (entries : List (Nat × Nat)) {s : State} (h : s.BoardsSound) :
    (s.writeScene n fade entries).state.BoardsSound := by
  rw [writeScene_eq]
  exact passed_boards h fun ⟨hn, ⟨hne, _⟩, hfade, hrange⟩ =>
    placeScene_boards hn (Scene.legal_sceneList ((optWithin_fade_iff fade).1 hfade) hne hrange) h

theorem extendScene_boards (n : Nat) (entries : List (Nat × Nat)) {s : State} (h : s.BoardsSound) :
    (s.extendScene n entries).state.BoardsSound := by
  rw [extendScene_eq]
  refine passed_boards h fun ⟨hn, ⟨hne, _⟩, hrange⟩ => ?_
  cases hsc : sceneAt s.scenes n with
  | none => exact h
  | some sc =>
    obtain ⟨⟨-, hscenes, -⟩, -⟩ := id h
    exact placeScene_boards hn ((hscenes.legal hsc).extend hne hrange) h

/-- A legal configuration keeps its circuit's output level within 0 to 1000 (R1, R9). -/
theorem Circuit.OutputInLimits.le {c : Circuit} (h : c.OutputInLimits) (hc : c.cfg.Legal) : c.output ≤ 1000 := by
  obtain ⟨-, -, -, hcap, -⟩ := hc
  rcases h with h | h
  · omega
  · split at h <;> omega

theorem captureScene_boards (n : Nat) (fade : Option Nat) (ranges : List (Nat × Nat)) {s : State} (h : s.BoardsSound)
    (hc : s.CircuitsSound) : (s.captureScene n fade ranges).state.BoardsSound := by
  obtain ⟨⟨hlength, hlegal⟩, hsettled, -⟩ := hc
  rw [List.length_map] at hlength
  rw [captureScene_eq]
  refine passed_boards h fun ⟨hn, ⟨hne, _⟩, hrange, hfade⟩ => placeScene_boards hn
    (Scene.legal_captured hlength (fun x hx => ?_) ((optWithin_fade_iff fade).1 hfade) hne hrange) h
  have hcfg := hlegal x.cfg (List.mem_map_of_mem hx)
  exact ((hsettled x hx).outputInLimits hcfg).le hcfg

theorem deleteScene_boards (n : Nat) {s : State} (h : s.BoardsSound) : (s.deleteScene n).state.BoardsSound := by
  rw [deleteScene_eq]
  exact passed_boards h fun hn => orRefused_boards h fun _ => h.putScene hn nofun (Nat.zero_le _)

/-! ### The requests on the binding table and on the mode options -/

theorem addBinding_boards (r : RawBinding) (s : State) : (s.addBinding r).state.boards = s.boards := by
  unfold State.addBinding
  repeat' split
  all_goals rfl

theorem replaceBinding_boards (n : Nat) (r : RawBinding) (s : State) : (s.replaceBinding n r).state.boards = s.boards := by
  unfold State.replaceBinding
  repeat' split
  all_goals rfl

theorem RetireFrame.boards {s t : State} (h : RetireFrame s t) : t.boards = s.boards := by rw [h]; rfl

theorem retireBinding_boards (n : Nat) (s : State) : (s.retireBinding n).state.boards = s.boards := by
  unfold State.retireBinding
  split
  · rfl
  · split
    · rfl
    · exact (retire_frame n s).boards

theorem retireSource_boards (k : RawKey) (s : State) : (s.retireSource k).state.boards = s.boards := by
  unfold State.retireSource
  split
  · rfl
  · exact (retireAll_frame _ s).boards

theorem disable_boards (n : Nat) (s : State) : (s.disable n).state.boards = s.boards := by
  unfold State.disable
  repeat' split
  all_goals rfl

theorem enable_boards (n : Nat) (s : State) : (s.enable n).state.boards = s.boards := by
  unfold State.enable
  repeat' split
  all_goals rfl

theorem setModeOptions_boards (f : OptionFields) (s : State) : (s.setModeOptions f).state.boards = s.boards := by
  unfold State.setModeOptions; split <;> rfl

/-! ### Rack link, store and start-up -/

theorem setLinkConfig_boards (period : Nat) (s : State) : (s.setLinkConfig period).state.boards = s.boards := by
  unfold State.setLinkConfig; split <;> rfl

theorem reachNextStart_boards (s : State) : s.reachNextStart.boards = s.boards := by
  unfold State.reachNextStart
  repeat' split
  all_goals rfl

theorem endFrame_boards (s : State) : s.endFrame.boards = s.boards := by
  unfold State.endFrame
  repeat' split
  all_goals rfl

theorem endSettling_boards (s : State) : s.endSettling.boards = s.boards := by rw [endSettling_eq, adoptInputs_eq]; rfl

/-- The laws of the target tables in a stored image (R71, R72, R77). -/
def Stored.LegalTargets (t : Stored) : Prop := LegalGroups t.groups ∧ LegalScenes t.scenes

/-- A change of the store alone. -/
theorem State.BoardsSound.withStore {s t : State} (h : s.BoardsSound) (ht : { t with store := s.store }.boards = s.boards)
    (hstore : t.store.All Stored.LegalTargets) : t.BoardsSound := by
  obtain ⟨⟨hgroups, hscenes, -⟩, hstages⟩ := h.of_boards ht
  exact ⟨⟨hgroups, hscenes, hstore⟩, hstages⟩

theorem State.BoardsSound.live {s : State} (h : s.BoardsSound) : s.stored.LegalTargets := by
  obtain ⟨⟨hgroups, hscenes, -⟩, -⟩ := h
  exact ⟨hgroups, hscenes⟩

theorem State.BoardsSound.kept {s : State} (h : s.BoardsSound) : s.store.All Stored.LegalTargets := by
  obtain ⟨⟨-, -, hstore⟩, -⟩ := h
  exact hstore

theorem save_boards {s : State} (h : s.BoardsSound) : s.save.state.BoardsSound := by
  refine h.withStore ?_ (save_all h.kept h.live)
  unfold State.save; split <;> rfl

theorem eraseStore_boards {s : State} (h : s.BoardsSound) : s.eraseStore.state.BoardsSound := by
  refine h.withStore ?_ (eraseStore_all h.kept)
  unfold State.eraseStore; split <;> rfl

theorem endSave_boards (verified : Bool) {s : State} (h : s.BoardsSound) : (s.endSave verified).BoardsSound := by
  refine h.withStore ?_ (endSave_all h.kept verified)
  unfold State.endSave
  repeat' split
  all_goals rfl

theorem endErase_boards {s : State} (h : s.BoardsSound) : s.endErase.BoardsSound := by
  refine h.withStore ?_ (endErase_all h.kept)
  unfold State.endErase; split <;> rfl

theorem stop_boards (p : Phase) {s : State} (h : s.BoardsSound) : (s.stop p).BoardsSound :=
  h.withStore (by rw [stop_eq]; rfl) (stop_all h.kept p)

theorem legalTargets_blank : Stored.blank.LegalTargets := by
  refine ⟨⟨List.length_replicate, fun l hl => (nomatch List.eq_of_mem_replicate hl), ?_⟩,
    ⟨List.length_replicate, fun sc hsc => (nomatch List.eq_of_mem_replicate hsc), ?_⟩⟩
  · show membersUsed (List.replicate 64 none) ≤ 1536
    simp [membersUsed]
  · show entriesUsed (List.replicate 32 none) ≤ 2048
    simp [entriesUsed]

/-- A start-up loads tables within their laws and empties the stages (R128, R160 steps 2 and 3). -/
theorem startUp_boards (cause : StartCause) {s : State} (h : s.BoardsSound) : (s.startUp cause).BoardsSound := by
  have he := startUp_eq cause s _ rfl
  obtain ⟨hgroups, hscenes⟩ := getD_of (p := Stored.LegalTargets) h.kept.1 legalTargets_blank
  refine ⟨⟨by rw [he]; exact hgroups, by rw [he]; exact hscenes, startUp_all h.kept cause⟩, ?_⟩
  rw [he]
  exact ⟨Stage.reset_legal, Stage.reset_legal, Nat.zero_le _, Nat.zero_le _⟩

/-! ### Every command -/

/-- An arrival that only a running part takes. -/
theorem whenRunning_boards {f : State → State} (hf : ∀ s, s.BoardsSound → (f s).BoardsSound) {s : State} (h : s.BoardsSound) :
    (s.whenRunning f).BoardsSound := by
  unfold State.whenRunning
  split
  · exact hf s h
  · exact h

/-- An arrival that leaves the background. -/
theorem arrival_boards {f : State → State} (hf : ∀ s, (f s).background = s.background) {s : State} (h : s.BoardsSound) :
    (s.whenRunning f).BoardsSound := whenRunning_boards (fun u hu => hu.of_background (hf u)) h

/-- A request whose owner keeps the laws. -/
theorem complete_boards {i : Instr} {owner : State → Carried} (howner : ∀ s, s.BoardsSound → (owner s).state.BoardsSound)
    {s : State} (h : s.BoardsSound) : (s.complete i owner).BoardsSound :=
  complete_keeps (fun _ p hs => hs.of_background (withPort_background _ p)) howner h

/-- A write of a stored table, refused while the store is busy (R157). -/
theorem storedWrite_boards {owner : State → Carried} {s : State} (h : s.BoardsSound) (howner : (owner s).state.BoardsSound) :
    (State.storedWrite owner s).state.BoardsSound := orRefused_boards h fun _ => howner

theorem write_boards {i : Instr} {owner : State → Carried} (howner : ∀ s, s.BoardsSound → (owner s).state.BoardsSound)
    {s : State} (h : s.BoardsSound) : (s.complete i (State.storedWrite owner)).BoardsSound :=
  complete_boards (fun u hu => storedWrite_boards hu (howner u hu)) h

/-- A write of a stored table that the laws do not look at. -/
theorem otherWrite_boards {i : Instr} {owner : State → Carried} (howner : ∀ s, (owner s).state.boards = s.boards) {s : State}
    (h : s.BoardsSound) : (s.complete i (State.storedWrite owner)).BoardsSound := write_boards (fun u hu => hu.of_boards (howner u)) h

/-- A write of a stored table that leaves the background. -/
theorem backgroundWrite_boards {i : Instr} {owner : State → Carried} (howner : ∀ s, (owner s).state.background = s.background) {s : State}
    (h : s.BoardsSound) : (s.complete i (State.storedWrite owner)).BoardsSound := write_boards (fun u hu => hu.of_background (howner u)) h

/-- A request that leaves the background. -/
theorem request_boards {i : Instr} {owner : State → Carried} (howner : ∀ s, (owner s).state.background = s.background) {s : State}
    (h : s.BoardsSound) : (s.complete i owner).BoardsSound := complete_boards (fun u hu => hu.of_background (howner u)) h

/-- A request that reads. -/
theorem read_boards {i : Instr} {owner : State → Carried} (howner : ∀ s, (owner s).state = s) {s : State} (h : s.BoardsSound) :
    (s.complete i owner).BoardsSound := request_boards (fun u => by rw [howner]) h

/-- CAPTURE SCENE looks at the circuits of the state in which it is accepted (R80). -/
theorem execCaptureScene_boards (n : Nat) (fade : Option Nat) (ranges : List (Nat × Nat)) {s : State} (h : s.BoardsSound)
    (hc : s.CircuitsSound) : (s.complete (.captureScene n fade ranges) (State.storedWrite (State.captureScene n fade ranges))).BoardsSound := by
  have haccept : (s.accept (.captureScene n fade ranges)).BoardsSound := h.of_background rfl
  unfold State.complete
  rcases requestStep_cases (.captureScene n fade ranges) _ s with ⟨p, he⟩ | ⟨-, he⟩ <;> rw [he]
  · exact h.of_background (withPort_background s p)
  · exact (storedWrite_boards haccept (captureScene_boards n fade ranges haccept hc)).of_background (withPort_background _ _)

/-- Every command keeps the laws of groups, scenes and stages. -/
theorem exec_boards {i : Instr} {s t : State} (he : exec i s = .next t) (hc : s.CircuitsSound) (h : s.BoardsSound) : t.BoardsSound := by
  cases i <;> cases he
  case powerOn =>
    split
    · exact stop_boards _ h
    · exact startUp_boards .powerOn (h.of_background (withSpi_background s none))
  case resetPinLow =>
    split
    · exact h.of_boards rfl
    · exact (stop_boards .held h).of_boards rfl
  case resetPinRelease =>
    split
    · exact h.of_boards rfl
    · exact (startUp_boards .pin (h.of_background (withSpi_background s none))).of_boards rfl
  case inputSettlingEnd =>
    split
    · exact h.of_boards (endSettling_boards s)
    · exact h
  case supplyLost => exact stop_boards _ h
  case requestTransaction piece =>
    split
    · exact h.of_background (shift_background _ _ s)
    · exact h
  case fetch piece =>
    split
    · exact h.of_background (fetch_background _ _ s)
    · exact h
  case contactSample pins order => exact contactSample_boards pins order h
  case restart =>
    refine requestStep_keeps (fun _ p hs => hs.of_background (withPort_background _ p)) (fun u hu => ?_) h
    split
    · exact hu.of_background rfl
    · exact startUp_boards .restart hu
  case readIdentity => exact read_boards (fun _ => rfl) h
  case readAttention => exact read_boards (fun _ => rfl) h
  case clearAttention flags => exact request_boards (clearAttention_background flags) h
  case setAttentionMask mask => exact backgroundWrite_boards (setAttentionMask_background mask) h
  case setCircuitConfig first last f => exact backgroundWrite_boards (setCircuitConfig_background first last f) h
  case readCircuitConfig first count => exact read_boards (readCircuitConfig_state first count) h
  case claimLevel n code v fade => exact request_boards (claimLevel_background n code v fade) h
  case releaseLayer n code fade => exact request_boards (releaseLayer_background n code fade) h
  case readCircuitState first count => exact read_boards (readCircuitState_state first count) h
  case addBinding r => exact otherWrite_boards (addBinding_boards r) h
  case replaceBinding n r => exact otherWrite_boards (replaceBinding_boards n r) h
  case retireBinding n => exact otherWrite_boards (retireBinding_boards n) h
  case retireSource k => exact otherWrite_boards (retireSource_boards k) h
  case disable n => exact otherWrite_boards (disable_boards n) h
  case enable n => exact otherWrite_boards (enable_boards n) h
  case readBinding n => exact read_boards (readBinding_state n) h
  case findBindings k kind => exact read_boards (findBindings_state k kind) h
  case injectEvent k kind => exact request_boards (injectEvent_background k kind) h
  case writeGroup g ranges => exact write_boards (fun _ => writeGroup_boards g ranges) h
  case deleteGroup g => exact write_boards (fun _ => deleteGroup_boards g) h
  case readGroup g first count => exact read_boards (readGroup_state g first count) h
  case writeScene n fade entries => exact write_boards (fun _ => writeScene_boards n fade entries) h
  case extendScene n entries => exact write_boards (fun _ => extendScene_boards n entries) h
  case captureScene n fade ranges => exact execCaptureScene_boards n fade ranges h hc
  case deleteScene n => exact write_boards (fun _ => deleteScene_boards n) h
  case readScene n first count => exact read_boards (readScene_state n first count) h
  case setMode m fade => exact request_boards (setMode_background m fade) h
  case readMode => exact read_boards (fun _ => rfl) h
  case setModeOptions f => exact otherWrite_boards (setModeOptions_boards f) h
  case setLineConfig line f => exact backgroundWrite_boards (setLineConfig_background line f) h
  case enrolStation line a buttons indicators => exact backgroundWrite_boards (enrolStation_background line a buttons indicators) h
  case unenrolStation line a => exact backgroundWrite_boards (unenrolStation_background line a) h
  case readStation line a => exact read_boards (readStation_state line a) h
  case readLine line => exact read_boards (readLine_state line) h
  case censusStart line => exact request_boards (censusStart_background line) h
  case censusRead line => exact read_boards (censusRead_state line) h
  case setInputConfig n f => exact backgroundWrite_boards (setInputConfig_background n f) h
  case readInput n => exact read_boards (readInput_state n) h
  case stageEntry stage circuit e => exact complete_boards (fun _ => stageEntry_boards stage circuit e) h
  case stageClear stage => exact complete_boards (fun _ => stageClear_boards stage) h
  case setStageTrigger stage trigger => exact complete_boards (fun _ => setStageTrigger_boards stage trigger) h
  case standby stage => exact complete_boards (fun _ => standby_boards stage) h
  case unstandby stage => exact complete_boards (fun _ => unstandby_boards stage) h
  case go stage => exact complete_boards (fun _ => go_boards stage) h
  case readStage stage first count => exact read_boards (readStage_state stage first count) h
  case setLinkConfig period => exact otherWrite_boards (setLinkConfig_boards period) h
  case readRackLink => exact read_boards (fun _ => rfl) h
  case save => exact complete_boards (fun _ => save_boards) h
  case eraseStore => exact complete_boards (fun _ => eraseStore_boards) h
  case readStoreState => exact read_boards (fun _ => rfl) h
  case saveOperationEnd verified => exact whenRunning_boards (fun _ => endSave_boards verified) h
  case eraseOperationEnd => exact whenRunning_boards (fun _ => endErase_boards) h
  case fadeTick => exact arrival_boards (fun u => mapCircuits_background u _) h
  case fadeComplete n l => exact arrival_boards (onCircuit_background n _) h
  case handoverEnd n => exact arrival_boards (onCircuit_background n _) h
  case nextExchange l => exact arrival_boards (chooseExchange_background l) h
  case exchangeSent l => exact arrival_boards (fun u => withLine_background l _ u) h
  case collision l => exact arrival_boards (collide_background l) h
  case reply l chars => exact arrival_boards (endReply_background l (some chars)) h
  case replyWindowEnd l => exact arrival_boards (endReply_background l none) h
  case lineBreak l => exact arrival_boards (breakLine_background l) h
  case faultRecovery l => exact arrival_boards (recoverLine_background l) h
  case roundWaitEnd l => exact arrival_boards (endWait_background l) h
  case acceptedClose n => exact arrival_boards (onContact_background n _ fun _ u => contactClosed_background n _ u) h
  case holdTimeReached n => exact arrival_boards (onContact_background n _ fun _ u => contactHeld_background n _ u) h
  case stuckTimeReached n => exact arrival_boards (onContact_background n _ fun _ u => contactStuck_background n _ u) h
  case acceptedOpen n => exact arrival_boards (onContact_background n _ fun _ u => contactOpened_background n _ u) h
  case maintainedChange n closed => exact arrival_boards (onContact_background n _ fun _ u => contactTurned_background n _ u) h
  case safeAssert i => exact arrival_boards (fun u => by split <;> simp) h
  case safeDeassert i => exact arrival_boards (fun u => by split <;> simp) h
  case cueEvent c =>
    exact whenRunning_boards (fun u hu => cueArrives_boards c (hu.of_background (withCue_background c _ u))) h
  case frameStart => exact whenRunning_boards (fun u hu => hu.of_boards (reachNextStart_boards u)) h
  case frameEnd => exact whenRunning_boards (fun u hu => hu.of_boards (endFrame_boards u)) h

/-- Settles O8: each command that writes a group, a scene or a stage checks what its laws ask for; the others leave the three tables, or load
tables in range at start-up. -/
theorem everyStepKeepsTargetsAndStagesSound : Obligations.EveryStepKeepsTargetsAndStagesSound := by
  intro s t hc htargets hstages h
  have hs : s.BoardsSound := ⟨htargets, hstages⟩
  have ht : t.BoardsSound := by
    unfold step at h
    split at h
    · cases h; exact hs
    · exact exec_boards h ((withPending_laws s _).circuits hc) (hs.of_boards rfl)
  exact ⟨ht.targets, ht.stages⟩

end Sys2Proof.Machine

namespace Sys2Proof.Machine

/-! ## What most commands leave: the phase, the mode options, the rack link and the store -/

/-- What the laws of the rack link and of the mode options look at. -/
structure Setup where
  phase   : Phase
  options : ModeOptions
  link    : Link
  store   : Store

def State.setup (s : State) : Setup := ⟨s.phase, s.options, s.link, s.store⟩

theorem setup_of_background {s t : State} (h : t.background = s.background) : t.setup = s.setup :=
  congrArg (fun b : Background => Setup.mk b.phase b.options b.link b.store) h

/-- The commands that may write the phase, the mode options, the rack link or the store. -/
def writesSetup : Instr → Bool
  | .powerOn | .resetPinLow | .resetPinRelease | .inputSettlingEnd | .supplyLost | .restart => true
  | .setModeOptions _ | .setLinkConfig _ | .frameStart | .frameEnd => true
  | .save | .eraseStore | .saveOperationEnd _ | .eraseOperationEnd => true
  | _ => false

/-! ### Binding table, groups and scenes -/

theorem addBinding_setup (r : RawBinding) (s : State) : (s.addBinding r).state.setup = s.setup := by
  unfold State.addBinding
  repeat' split
  all_goals rfl

theorem replaceBinding_setup (n : Nat) (r : RawBinding) (s : State) : (s.replaceBinding n r).state.setup = s.setup := by
  unfold State.replaceBinding
  repeat' split
  all_goals rfl

theorem RetireFrame.setup {s t : State} (h : RetireFrame s t) : t.setup = s.setup := by rw [h]; rfl

theorem retireBinding_setup (n : Nat) (s : State) : (s.retireBinding n).state.setup = s.setup := by
  unfold State.retireBinding
  split
  · rfl
  · split
    · rfl
    · exact (retire_frame n s).setup

theorem retireSource_setup (k : RawKey) (s : State) : (s.retireSource k).state.setup = s.setup := by
  unfold State.retireSource
  split
  · rfl
  · exact (retireAll_frame _ s).setup

theorem disable_setup (n : Nat) (s : State) : (s.disable n).state.setup = s.setup := by
  unfold State.disable
  repeat' split
  all_goals rfl

theorem enable_setup (n : Nat) (s : State) : (s.enable n).state.setup = s.setup := by
  unfold State.enable
  repeat' split
  all_goals rfl

theorem writeGroup_setup (g : Nat) (ranges : List (Nat × Nat)) (s : State) : (s.writeGroup g ranges).state.setup = s.setup := by
  unfold State.writeGroup
  dsimp only
  repeat' split
  all_goals rfl

theorem deleteGroup_setup (g : Nat) (s : State) : (s.deleteGroup g).state.setup = s.setup := by
  unfold State.deleteGroup
  repeat' split
  all_goals rfl

@[simp] theorem placeScene_setup (n : Nat) (sc : Scene) (s : State) : (s.placeScene n sc).state.setup = s.setup := by
  unfold State.placeScene; split <;> rfl

theorem writeScene_setup (n : Nat) (fade : Option Nat) (entries : List (Nat × Nat)) (s : State) :
    (s.writeScene n fade entries).state.setup = s.setup := by
  unfold State.writeScene
  repeat' split
  all_goals simp

theorem extendScene_setup (n : Nat) (entries : List (Nat × Nat)) (s : State) : (s.extendScene n entries).state.setup = s.setup := by
  unfold State.extendScene
  repeat' split
  all_goals simp

theorem captureScene_setup (n : Nat) (fade : Option Nat) (ranges : List (Nat × Nat)) (s : State) :
    (s.captureScene n fade ranges).state.setup = s.setup := by
  unfold State.captureScene
  repeat' split
  all_goals simp

theorem deleteScene_setup (n : Nat) (s : State) : (s.deleteScene n).state.setup = s.setup := by
  unfold State.deleteScene
  repeat' split
  all_goals rfl

/-! ### Stages, cues and samples -/

@[simp] theorem withStage_setup (i : StageId) (x : Stage) (s : State) : (s.withStage i x).setup = s.setup := by cases i <;> rfl

@[simp] theorem transferOne_setup (i : StageId) (s : State) : (s.transferOne i).setup = s.setup := by
  rw [State.transferOne, withStage_setup]; rfl

@[simp] theorem transfer_setup (i : StageId) (s : State) : (s.transfer i).setup = s.setup := by
  unfold State.transfer; dsimp only; split <;> simp

/-- A cue event at the stage unit (R134). -/
@[simp] theorem cueArrives_setup (c : CueLine) (s : State) : (s.cueArrives c).setup = s.setup := by
  have hcount : ((s.countIgnored c).raise .cueIgnored).setup = s.setup := by cases c <;> rfl
  unfold State.cueArrives
  dsimp only
  repeat' split
  all_goals simp [hcount]

theorem stageEntry_setup (stage circuit : Nat) (e : StageForm) (s : State) : (s.stageEntry stage circuit e).state.setup = s.setup := by
  unfold State.stageEntry
  repeat' split
  all_goals simp

theorem stageClear_setup (stage : Nat) (s : State) : (s.stageClear stage).state.setup = s.setup := by
  unfold State.stageClear
  repeat' split
  all_goals simp

theorem setStageTrigger_setup (stage trigger : Nat) (s : State) : (s.setStageTrigger stage trigger).state.setup = s.setup := by
  unfold State.setStageTrigger
  repeat' split
  all_goals simp

theorem standby_setup (stage : Nat) (s : State) : (s.standby stage).state.setup = s.setup := by
  unfold State.standby
  repeat' split
  all_goals simp

theorem unstandby_setup (stage : Nat) (s : State) : (s.unstandby stage).state.setup = s.setup := by
  unfold State.unstandby
  repeat' split
  all_goals simp

theorem go_setup (stage : Nat) (s : State) : (s.go stage).state.setup = s.setup := by
  unfold State.go
  repeat' split
  all_goals simp

theorem cueHappens_setup (c : CueLine) (s : State) : (s.cueHappens c).setup = s.setup := by
  rw [State.cueHappens, cueArrives_setup]
  exact setup_of_background (withCue_background c _ s)

theorem sampleCue_setup (c : CueLine) (level : Bool) (s : State) : (s.sampleCue c level).setup = s.setup := by
  unfold State.sampleCue
  dsimp only
  split
  · rw [cueArrives_setup]
    exact setup_of_background (withCue_background c _ s)
  · exact setup_of_background (withCue_background c _ s)

theorem sampleInput_setup (pins : BitVec 28) (s : State) (n : Nat) : (State.sampleInput pins s n).setup = s.setup := by
  unfold State.sampleInput
  dsimp only
  split
  · exact setup_of_background (sampleSafe_background .safe1 _ s)
  · split
    · exact setup_of_background (sampleSafe_background .safe2 _ s)
    · split
      · exact sampleCue_setup .cue1 _ s
      · split
        · exact sampleCue_setup .cue2 _ s
        · exact setup_of_background (sampleContact_background n _ s)

/-- A sample of the pins (R116, R122). -/
theorem contactSample_setup (pins : BitVec 28) (order : List Nat) (s : State) : (s.contactSample pins order).setup = s.setup := by
  unfold State.contactSample
  split
  · exact setup_of_background (settleSample_background pins s)
  · exact List.foldlRecOn (motive := fun t : State => t.setup = s.setup) _ _ rfl fun u hu n _ => (sampleInput_setup pins u n).trans hu
  · rfl
  · rfl

/-! ### Every other command -/

theorem whenRunning_setup {f : State → State} (hf : ∀ s, (f s).setup = s.setup) (s : State) : (s.whenRunning f).setup = s.setup := by
  unfold State.whenRunning
  split
  · exact hf s
  · rfl

/-- An arrival that leaves the background. -/
theorem arrival_setup {f : State → State} (hf : ∀ s, (f s).background = s.background) (s : State) : (s.whenRunning f).setup = s.setup :=
  whenRunning_setup (fun u => setup_of_background (hf u)) s

/-- A request whose owner leaves the setup. -/
theorem complete_setup {i : Instr} {owner : State → Carried} (howner : ∀ s, (owner s).state.setup = s.setup) (s : State) :
    (s.complete i owner).setup = s.setup :=
  complete_keeps (P := fun t => t.setup = s.setup) (fun _ _ ht => ht) (fun t ht => (howner t).trans ht) rfl

/-- A write of a stored table whose owner leaves the setup. -/
theorem write_setup {i : Instr} {owner : State → Carried} (howner : ∀ s, (owner s).state.setup = s.setup) (s : State) :
    (s.complete i (State.storedWrite owner)).setup = s.setup :=
  complete_setup (fun u => by
    unfold State.storedWrite
    split
    · rfl
    · exact howner u) s

/-- A request that leaves the background. -/
theorem request_setup {i : Instr} {owner : State → Carried} (howner : ∀ s, (owner s).state.background = s.background) (s : State) :
    (s.complete i owner).setup = s.setup := complete_setup (fun u => setup_of_background (howner u)) s

/-- A write of a stored table that leaves the background. -/
theorem backgroundWrite_setup {i : Instr} {owner : State → Carried} (howner : ∀ s, (owner s).state.background = s.background) (s : State) :
    (s.complete i (State.storedWrite owner)).setup = s.setup := write_setup (fun u => setup_of_background (howner u)) s

/-- A request that reads. -/
theorem read_setup {i : Instr} {owner : State → Carried} (howner : ∀ s, (owner s).state = s) (s : State) :
    (s.complete i owner).setup = s.setup := complete_setup (fun u => by rw [howner]) s

/-- A command that is none of those of `writesSetup` leaves the phase, the mode options, the rack link and the store. -/
theorem exec_setup {i : Instr} {s t : State} (he : exec i s = .next t) (hi : writesSetup i = false) : t.setup = s.setup := by
  cases i <;> cases he
  case powerOn | resetPinLow | resetPinRelease | inputSettlingEnd | supplyLost | restart => cases hi
  case setModeOptions | setLinkConfig | frameStart | frameEnd => cases hi
  case save | eraseStore | saveOperationEnd | eraseOperationEnd => cases hi
  case requestTransaction piece =>
    split
    · exact setup_of_background (shift_background _ _ s)
    · rfl
  case fetch piece =>
    split
    · exact setup_of_background (fetch_background _ _ s)
    · rfl
  case contactSample pins order => exact contactSample_setup pins order s
  case readIdentity | readAttention | readMode | readRackLink | readStoreState => exact read_setup (fun _ => rfl) s
  case readCircuitConfig first count => exact read_setup (readCircuitConfig_state first count) s
  case readCircuitState first count => exact read_setup (readCircuitState_state first count) s
  case readBinding n => exact read_setup (readBinding_state n) s
  case findBindings k kind => exact read_setup (findBindings_state k kind) s
  case readGroup g first count => exact read_setup (readGroup_state g first count) s
  case readScene n first count => exact read_setup (readScene_state n first count) s
  case readStation line a => exact read_setup (readStation_state line a) s
  case readLine line => exact read_setup (readLine_state line) s
  case censusRead line => exact read_setup (censusRead_state line) s
  case readInput n => exact read_setup (readInput_state n) s
  case readStage stage first count => exact read_setup (readStage_state stage first count) s
  case clearAttention flags => exact request_setup (clearAttention_background flags) s
  case claimLevel n code v fade => exact request_setup (claimLevel_background n code v fade) s
  case releaseLayer n code fade => exact request_setup (releaseLayer_background n code fade) s
  case injectEvent k kind => exact request_setup (injectEvent_background k kind) s
  case setMode m fade => exact request_setup (setMode_background m fade) s
  case censusStart line => exact request_setup (censusStart_background line) s
  case setAttentionMask mask => exact backgroundWrite_setup (setAttentionMask_background mask) s
  case setCircuitConfig first last f => exact backgroundWrite_setup (setCircuitConfig_background first last f) s
  case setLineConfig line f => exact backgroundWrite_setup (setLineConfig_background line f) s
  case enrolStation line a buttons indicators => exact backgroundWrite_setup (enrolStation_background line a buttons indicators) s
  case unenrolStation line a => exact backgroundWrite_setup (unenrolStation_background line a) s
  case setInputConfig n f => exact backgroundWrite_setup (setInputConfig_background n f) s
  case addBinding r => exact write_setup (addBinding_setup r) s
  case replaceBinding n r => exact write_setup (replaceBinding_setup n r) s
  case retireBinding n => exact write_setup (retireBinding_setup n) s
  case retireSource k => exact write_setup (retireSource_setup k) s
  case disable n => exact write_setup (disable_setup n) s
  case enable n => exact write_setup (enable_setup n) s
  case writeGroup g ranges => exact write_setup (writeGroup_setup g ranges) s
  case deleteGroup g => exact write_setup (deleteGroup_setup g) s
  case writeScene n fade entries => exact write_setup (writeScene_setup n fade entries) s
  case extendScene n entries => exact write_setup (extendScene_setup n entries) s
  case captureScene n fade ranges => exact write_setup (captureScene_setup n fade ranges) s
  case deleteScene n => exact write_setup (deleteScene_setup n) s
  case stageEntry stage circuit e => exact complete_setup (stageEntry_setup stage circuit e) s
  case stageClear stage => exact complete_setup (stageClear_setup stage) s
  case setStageTrigger stage trigger => exact complete_setup (setStageTrigger_setup stage trigger) s
  case standby stage => exact complete_setup (standby_setup stage) s
  case unstandby stage => exact complete_setup (unstandby_setup stage) s
  case go stage => exact complete_setup (go_setup stage) s
  case fadeTick => exact arrival_setup (fun u => mapCircuits_background u _) s
  case fadeComplete n l => exact arrival_setup (onCircuit_background n _) s
  case handoverEnd n => exact arrival_setup (onCircuit_background n _) s
  case nextExchange l => exact arrival_setup (chooseExchange_background l) s
  case exchangeSent l => exact arrival_setup (fun u => withLine_background l _ u) s
  case collision l => exact arrival_setup (collide_background l) s
  case reply l chars => exact arrival_setup (endReply_background l (some chars)) s
  case replyWindowEnd l => exact arrival_setup (endReply_background l none) s
  case lineBreak l => exact arrival_setup (breakLine_background l) s
  case faultRecovery l => exact arrival_setup (recoverLine_background l) s
  case roundWaitEnd l => exact arrival_setup (endWait_background l) s
  case acceptedClose n => exact arrival_setup (onContact_background n _ fun _ u => contactClosed_background n _ u) s
  case holdTimeReached n => exact arrival_setup (onContact_background n _ fun _ u => contactHeld_background n _ u) s
  case stuckTimeReached n => exact arrival_setup (onContact_background n _ fun _ u => contactStuck_background n _ u) s
  case acceptedOpen n => exact arrival_setup (onContact_background n _ fun _ u => contactOpened_background n _ u) s
  case maintainedChange n closed => exact arrival_setup (onContact_background n _ fun _ u => contactTurned_background n _ u) s
  case safeAssert i => exact arrival_setup (fun u => by split <;> simp) s
  case safeDeassert i => exact arrival_setup (fun u => by split <;> simp) s
  case cueEvent c => exact whenRunning_setup (cueHappens_setup c) s

end Sys2Proof.Machine

namespace Sys2Proof.Machine

/-! ## The laws of the rack link and of the mode options -/

/-- What R139 and R143 say of the rack link in a phase of the part. -/
structure Link.Fits (phase : Phase) (k : Link) : Prop where
  sending : k.sending = true ↔ phase = .running
  off : k.sending = false → k.frame = none
  owed : k.owed = true → k.frame.isSome = true ∧ k.nextStart = none
  next : k.sending = true → k.owed = false → k.nextStart = some k.inUse
  period : 10 ≤ k.period ∧ k.period ≤ 100
  late : k.late ≤ 255

/-- The laws of the rack link and of the mode options in a stored image (R86, R144). -/
def Stored.LegalSetup (t : Stored) : Prop := t.options.Legal ∧ 10 ≤ t.period ∧ t.period ≤ 100

/-- The laws of the rack link and of the mode options. -/
structure State.SetupSound (s : State) : Prop where
  link : s.link.Fits s.phase
  options : s.options.Legal
  kept : s.store.All Stored.LegalSetup

theorem setupSound_iff (s : State) : s.SetupSound ↔ s.LinkSound ∧ s.OptionsSound := by
  constructor
  · rintro ⟨⟨hsending, hoff, howed, hnext, ⟨hlow, hhigh⟩, hlate⟩, hoptions, himage, hcopy⟩
    exact ⟨⟨hsending, hoff, howed, hnext, hlow, hhigh, hlate, fun t ht => (himage t ht).2, fun t ht => (hcopy t ht).2⟩,
      hoptions, fun t ht => (himage t ht).1, fun t ht => (hcopy t ht).1⟩
  · rintro ⟨⟨hsending, hoff, howed, hnext, hlow, hhigh, hlate, himage, hcopy⟩, hoptions, himageOptions, hcopyOptions⟩
    exact ⟨⟨hsending, hoff, howed, hnext, ⟨hlow, hhigh⟩, hlate⟩, hoptions,
      fun t ht => ⟨himageOptions t ht, himage t ht⟩, fun t ht => ⟨hcopyOptions t ht, hcopy t ht⟩⟩

/-- The laws look at the setup alone. -/
theorem State.SetupSound.of_setup {s t : State} (h : s.SetupSound) (ht : t.setup = s.setup) : t.SetupSound := by
  obtain ⟨hlink, hoptions, hkept⟩ := h
  simp only [State.setup, Setup.mk.injEq] at ht
  obtain ⟨hp, ho, hl, hs⟩ := ht
  exact ⟨by rw [hl, hp]; exact hlink, by rw [ho]; exact hoptions, by rw [hs]; exact hkept⟩

theorem State.SetupSound.withPort {s : State} (h : s.SetupSound) (p : Port) : (s.withPort p).SetupSound := h.of_setup rfl

theorem State.SetupSound.withOptions {s : State} (h : s.SetupSound) {o : ModeOptions} (ho : o.Legal) : (s.withOptions o).SetupSound :=
  ⟨h.link, ho, h.kept⟩

theorem State.SetupSound.withLink {s : State} (h : s.SetupSound) {k : Link} (hk : k.Fits s.phase) : (s.withLink k).SetupSound :=
  ⟨hk, h.options, h.kept⟩

/-- A change of the store alone. -/
theorem State.SetupSound.withStore {s t : State} (h : s.SetupSound) (ht : { t with store := s.store }.setup = s.setup)
    (hstore : t.store.All Stored.LegalSetup) : t.SetupSound := by
  obtain ⟨hlink, hoptions, -⟩ := h.of_setup ht
  exact ⟨hlink, hoptions, hstore⟩

/-- What SAVE copies is within the laws (R157). -/
theorem State.SetupSound.live {s : State} (h : s.SetupSound) : s.stored.LegalSetup := ⟨h.options, h.link.period⟩

/-! ### The rack link (R139 to R144) -/

/-- The link is Off in a part that does not run (R139). -/
theorem Link.fits_off {p : Phase} (hp : p ≠ .running) {k : Link} (hperiod : 10 ≤ k.period ∧ k.period ≤ 100) (hlate : k.late ≤ 255) :
    Link.Fits p { k with sending := false, nextStart := none, frame := none, owed := false } :=
  ⟨iff_of_false nofun hp, fun _ => rfl, nofun, nofun, hperiod, hlate⟩

/-- A frame starts on a link that is Sending (R143). -/
theorem Link.fits_start {k : Link} (hsending : k.sending = true) (hperiod : 10 ≤ k.period ∧ k.period ≤ 100) (hlate : k.late ≤ 255)
    (frame : List Byte) :
    Link.Fits .running { k with frame := some frame, inUse := k.period, nextStart := some k.period, owed := false } :=
  ⟨iff_of_true hsending rfl, fun h => absurd (hsending.symm.trans h) nofun, nofun, fun _ _ => rfl, hperiod, hlate⟩

theorem startFrame_setupSound {s : State} (h : s.SetupSound) (hrun : s.phase = .running) : s.startFrame.SetupSound :=
  h.withLink (hrun ▸ Link.fits_start (h.link.sending.2 hrun) h.link.period h.link.late _)

/-- The next-start time is reached: a frame starts, or a start is owed to the frame in flight (R143). -/
theorem reachNextStart_setupSound {s : State} (h : s.SetupSound) (hrun : s.phase = .running) : s.reachNextStart.SetupSound := by
  have hsending := h.link.sending.2 hrun
  unfold State.reachNextStart
  split
  · exact h
  · split
    · exact startFrame_setupSound h hrun
    · next hframe =>
      exact h.withLink ⟨h.link.sending, h.link.off, fun _ => ⟨by simpa [Option.isSome_iff_ne_none] using hframe, rfl⟩,
        fun _ => nofun, h.link.period, h.link.late⟩

/-- A frame ends: an owed start is taken and counted, or the next-start time stands (R143). -/
theorem endFrame_setupSound {s : State} (h : s.SetupSound) (hrun : s.phase = .running) : s.endFrame.SetupSound := by
  unfold State.endFrame
  split
  · exact h
  · split
    · refine startFrame_setupSound (s := s.withLink { s.link with late := bump s.link.late }) (h.withLink ?_) hrun
      exact ⟨h.link.sending, h.link.off, h.link.owed, h.link.next, h.link.period, bump_le _⟩
    · next howed =>
      exact h.withLink ⟨h.link.sending, fun _ => rfl, fun ho => absurd ho howed, h.link.next, h.link.period, h.link.late⟩

/-- SET LINK CONFIG checks the period (R144). -/
theorem setLinkConfig_setupSound (period : Nat) {s : State} (h : s.SetupSound) : (s.setLinkConfig period).state.SetupSound := by
  unfold State.setLinkConfig
  split
  · next hp => exact h.withLink ⟨h.link.sending, h.link.off, h.link.owed, h.link.next, (within_iff 10 100 period).1 hp, h.link.late⟩
  · exact h

/-! ### The mode options (R86, R94) -/

/-- The options of a write in their ranges, one by one (R86). -/
theorem optionFieldsInRange_iff (f : OptionFields) : optionFieldsInRange f = true ↔
    (∀ v, f.modeFade = some v → v ≤ 6000) ∧ (∀ v, f.defaultFade = some v → v ≤ 6000)
      ∧ (∀ v, f.defaultRate = some v → 1 ≤ v ∧ v ≤ 600) ∧ (∀ v, f.safeReleaseFade = some v → v ≤ 600)
      ∧ ∀ m, f.startMode = some m → (modeOf m).isSome = true := by
  simp only [optionFieldsInRange, Bool.and_eq_true, optWithin_iff, Option.all_eq_true, Nat.zero_le, true_and, and_assoc]

theorem ModeOptions.Legal.withFields {o : ModeOptions} (h : o.Legal) {f : OptionFields} (hf : optionFieldsInRange f = true) :
    (o.withFields f).Legal := by
  obtain ⟨hmode, hfade, hrate1, hrate2, hsafe⟩ := h
  obtain ⟨fmode, ffade, frate, fsafe, -⟩ := (optionFieldsInRange_iff f).1 hf
  exact ⟨getD_of (p := (· ≤ 6000)) fmode hmode, getD_of (p := (· ≤ 6000)) ffade hfade,
    getD_of (p := (1 ≤ ·)) (fun v hv => (frate v hv).1) hrate1, getD_of (p := (· ≤ 600)) (fun v hv => (frate v hv).2) hrate2,
    getD_of (p := (· ≤ 600)) fsafe hsafe⟩

/-- SET MODE OPTIONS checks each option (R94). -/
theorem setModeOptions_setupSound (f : OptionFields) {s : State} (h : s.SetupSound) : (s.setModeOptions f).state.SetupSound := by
  unfold State.setModeOptions
  split
  · next hf => exact h.withOptions (h.options.withFields hf)
  · exact h

theorem ModeOptions.blank_legal : ModeOptions.blank.Legal := ⟨by decide, by decide, by decide, by decide, by decide⟩

/-! ### The store, supply, reset and start-up -/

theorem save_setupSound {s : State} (h : s.SetupSound) : s.save.state.SetupSound := by
  refine h.withStore ?_ (save_all h.kept h.live)
  unfold State.save; split <;> rfl

theorem eraseStore_setupSound {s : State} (h : s.SetupSound) : s.eraseStore.state.SetupSound := by
  refine h.withStore ?_ (eraseStore_all h.kept)
  unfold State.eraseStore; split <;> rfl

theorem endSave_setupSound (verified : Bool) {s : State} (h : s.SetupSound) : (s.endSave verified).SetupSound := by
  refine h.withStore ?_ (endSave_all h.kept verified)
  unfold State.endSave
  repeat' split
  all_goals rfl

theorem endErase_setupSound {s : State} (h : s.SetupSound) : s.endErase.SetupSound := by
  refine h.withStore ?_ (endErase_all h.kept)
  unfold State.endErase; split <;> rfl

/-- The part stopped, held or without supply: the link is Off (R139). -/
theorem stop_setupSound (p : Phase) (hp : p ≠ .running) {s : State} (h : s.SetupSound) : (s.stop p).SetupSound := by
  refine ⟨?_, ?_, stop_all h.kept p⟩ <;> rw [stop_eq]
  · exact Link.fits_off hp h.link.period h.link.late
  · exact h.options

theorem legalSetup_blank : Stored.blank.LegalSetup := ⟨ModeOptions.blank_legal, by decide, by decide⟩

/-- A start-up loads options and a period in range, with the link Off (R139, R160 steps 1 and 2). -/
theorem startUp_setupSound (cause : StartCause) {s : State} (h : s.SetupSound) : (s.startUp cause).SetupSound := by
  obtain ⟨hoptions, hperiod⟩ := getD_of (p := Stored.LegalSetup) h.kept.1 legalSetup_blank
  refine ⟨?_, ?_, startUp_all h.kept cause⟩ <;> rw [startUp_eq cause s _ rfl]
  · exact Link.fits_off (p := .settling) nofun (k := { s.link with period := _, late := 0 }) hperiod (Nat.zero_le _)
  · exact hoptions

/-- Start-up ends with the link Sending and its first frame started (R139, R143). -/
theorem endSettling_setupSound {s : State} (h : s.SetupSound) : s.endSettling.SetupSound := by
  refine ⟨?_, ?_, ?_⟩ <;> rw [endSettling_eq]
  · exact Link.fits_start (k := { s.link with sending := true }) rfl h.link.period h.link.late _
  · rw [adoptInputs_eq]; exact h.options
  · rw [adoptInputs_eq]; exact h.kept

/-! ### Every command -/

/-- An arrival that only a running part takes. -/
theorem whenRunning_setupSound {f : State → State} (hf : ∀ s, s.SetupSound → s.phase = .running → (f s).SetupSound) {s : State}
    (h : s.SetupSound) : (s.whenRunning f).SetupSound := by
  unfold State.whenRunning
  split
  · next hrun => exact hf s h hrun
  · exact h

/-- A request whose owner keeps the laws. -/
theorem complete_setupSound {i : Instr} {owner : State → Carried} (howner : ∀ s, s.SetupSound → (owner s).state.SetupSound) {s : State}
    (h : s.SetupSound) : (s.complete i owner).SetupSound := complete_keeps (fun _ p hs => hs.withPort p) howner h

/-- A write of a stored table, refused while the store is busy (R157). -/
theorem write_setupSound {i : Instr} {owner : State → Carried} (howner : ∀ s, s.SetupSound → (owner s).state.SetupSound) {s : State}
    (h : s.SetupSound) : (s.complete i (State.storedWrite owner)).SetupSound :=
  complete_setupSound (fun u hu => by
    unfold State.storedWrite
    split
    · exact hu
    · exact howner u hu) h

/-- The commands that write the phase, the mode options, the rack link or the store keep the laws. -/
theorem exec_setupSound_of_writes {i : Instr} {s t : State} (he : exec i s = .next t) (hi : writesSetup i = true) (h : s.SetupSound) :
    t.SetupSound := by
  cases i <;> cases hi <;> cases he
  case powerOn =>
    split
    · exact stop_setupSound .held nofun h
    · exact startUp_setupSound .powerOn (h.of_setup rfl)
  case resetPinLow =>
    split
    · exact h.of_setup rfl
    · exact (stop_setupSound .held nofun h).of_setup rfl
  case resetPinRelease =>
    split
    · exact h.of_setup rfl
    · exact (startUp_setupSound .pin (s := s.withSpi none) (h.of_setup rfl)).of_setup rfl
  case inputSettlingEnd =>
    split
    · exact endSettling_setupSound h
    · exact h
  case supplyLost => exact stop_setupSound .unpowered nofun h
  case restart =>
    refine requestStep_keeps (fun _ p hs => hs.withPort p) (fun u hu => ?_) h
    split
    · exact hu.withPort _
    · exact startUp_setupSound .restart hu
  case setModeOptions f => exact write_setupSound (fun _ => setModeOptions_setupSound f) h
  case setLinkConfig period => exact write_setupSound (fun _ => setLinkConfig_setupSound period) h
  case save => exact complete_setupSound (fun _ => save_setupSound) h
  case eraseStore => exact complete_setupSound (fun _ => eraseStore_setupSound) h
  case saveOperationEnd verified => exact whenRunning_setupSound (fun _ hu _ => endSave_setupSound verified hu) h
  case eraseOperationEnd => exact whenRunning_setupSound (fun _ hu _ => endErase_setupSound hu) h
  case frameStart => exact whenRunning_setupSound (fun _ => reachNextStart_setupSound) h
  case frameEnd => exact whenRunning_setupSound (fun _ => endFrame_setupSound) h

/-- Every command keeps the laws: the others leave what these look at. -/
theorem exec_setupSound {i : Instr} {s t : State} (he : exec i s = .next t) (h : s.SetupSound) : t.SetupSound := by
  cases hi : writesSetup i with
  | false => exact h.of_setup (exec_setup he hi)
  | true => exact exec_setupSound_of_writes he hi h

/-- Settles O11: the commands that write the phase, the options, the link or the store keep the laws one by one, and the others leave all
four. -/
theorem everyStepKeepsLinkAndOptionsSound : Obligations.EveryStepKeepsLinkAndOptionsSound := by
  intro s t hlink hoptions h
  have hs : s.SetupSound := (setupSound_iff s).2 ⟨hlink, hoptions⟩
  refine (setupSound_iff t).1 ?_
  unfold step at h
  split at h
  · cases h; exact hs
  · exact exec_setupSound h (hs.of_setup rfl)

end Sys2Proof.Machine

namespace Sys2Proof.Machine

/-! ## SET MODE OPTIONS and SET LINK CONFIG (R94, R144) -/

theorem setModeOptions_inRange {f : OptionFields} (hf : optionFieldsInRange f = true) (s : State) :
    s.setModeOptions f = (s.withOptions (s.options.withFields f)).done [] := if_pos hf

theorem setModeOptions_outOfRange {f : OptionFields} (hf : optionFieldsInRange f = false) (s : State) :
    s.setModeOptions f = s.refuse .range := if_neg (by rw [hf]; exact nofun)

theorem setLinkConfig_eq (period : Nat) (s : State) : s.setLinkConfig period =
    if 10 ≤ period ∧ period ≤ 100 then (s.withLink { s.link with period := period }).done [] else s.refuse .range := by
  simp only [State.setLinkConfig, within_iff]

/-- A start mode that is not given stays (R94). -/
theorem ModeOptions.withFields_startMode_none {f : OptionFields} (h : f.startMode = none) (o : ModeOptions) :
    (o.withFields f).startMode = o.startMode := by simp [ModeOptions.withFields, h]

/-- A start mode given by its code is written (R94). -/
theorem ModeOptions.withFields_startMode_code {f : OptionFields} {m : Mode} (h : f.startMode = some (modeCode m)) (o : ModeOptions) :
    (o.withFields f).startMode = m := by simp [ModeOptions.withFields, h]

/-- Settles O44: each request writes its one record where its check passes, and is refused where it does not. -/
theorem optionsAndPeriodAreWritten : Obligations.OptionsAndPeriodAreWritten := by
  intro s hready
  refine ⟨fun f hserves => ⟨fun hrange => ?_, fun hrange => ?_⟩, fun p hserves => ⟨fun hrange => ?_, fun hrange => ?_⟩⟩
  · exact ⟨_, write_completes hserves hready rfl (setModeOptions_inRange hrange _) rfl, rfl, rfl, rfl, rfl, rfl,
      fun hnone => ModeOptions.withFields_startMode_none hnone _, fun m hm => ModeOptions.withFields_startMode_code hm _⟩
  · exact write_refuses hserves hready rfl (setModeOptions_outOfRange hrange _)
  · exact ⟨_, write_completes hserves hready rfl ((setLinkConfig_eq p _).trans (if_pos hrange)) rfl, rfl⟩
  · exact refuses_range hserves hready rfl (setLinkConfig_eq p _) (by omega)

end Sys2Proof.Machine

namespace Sys2Proof.Machine

/-! ## The state after reset (log 1, log 2, log 15) -/

/-- Nothing is stored after reset (log 15). -/
theorem reset_all {p : Stored → Prop} : State.reset.store.All p := erased_none

/-- The circuits after reset are alike (R1). -/
theorem forall_circuits_reset {p : Circuit → Prop} (h : p Circuit.reset) : ∀ c ∈ State.reset.circuits, p c := fun c hc => by
  rw [List.eq_of_mem_replicate (n := Config.circuits) hc]
  exact h

/-- A blank circuit in the blank start mode is that which start-up makes of one with every layer empty (R85, R160). -/
theorem Circuit.started_blank : (Circuit.bare CircuitConfig.blank).started .closed ⟨false, false⟩ = Circuit.reset := by decide

theorem reset_circuitsSound : State.reset.CircuitsSound := by
  refine ⟨?_, forall_circuits_reset ?_, reset_all⟩
  · have hcfgs : State.reset.circuits.map (·.cfg) = Stored.blank.circuits := List.map_replicate
    rw [hcfgs]
    exact legalCircuits_blank
  · rw [← Circuit.started_blank]
    exact Circuit.started_settled _ _ _

theorem reset_layersSound : State.reset.LayersSound := by
  refine ⟨⟨fun _ => forall_circuits_reset rfl, fun h => absurd rfl h⟩, forall_circuits_reset ?_, fun _ => forall_circuits_reset ?_⟩
  · rw [← Circuit.started_blank]
    exact ((Circuit.bare_movementSound _).claim _ _ _).makeSafe _
  · rw [← Circuit.started_blank]
    exact Circuit.started_agrees _ _ rfl

/-- Free slots add nothing to an index (R41). -/
theorem buildFrom_free (n k : Nat) (index : List IndexEntry) : buildFrom n (List.replicate k .free) index = index := by
  induction k generalizing n with
  | zero => rfl
  | succ k ih => exact ih (n + 1)

theorem reset_bindingsSound : State.reset.BindingsSound := by
  have hindex : buildIndex Stored.blank.slots = State.reset.index := buildFrom_free 0 Config.slots []
  exact ⟨legalSlots_blank, hindex ▸ buildIndex_agrees legalSlots_blank, reset_all⟩

theorem reset_boardsSound : State.reset.BoardsSound := by
  obtain ⟨hgroups, hscenes⟩ := legalTargets_blank
  exact ⟨⟨hgroups, hscenes, reset_all⟩, Stage.reset_legal, Stage.reset_legal, Nat.zero_le _, Nat.zero_le _⟩

theorem LineCtl.reset_legal : LineCtl.reset.Legal :=
  ⟨⟨by decide, by decide, by decide⟩, ⟨by decide, .nil, nofun⟩, nofun, by decide, by decide, fun h => absurd rfl h,
    fun _ => ⟨by decide, nofun⟩, nofun⟩

theorem LineCtl.reset_censusLegal : LineCtl.reset.CensusLegal := by
  refine ⟨by decide, by decide, .nil, nofun, fun _ hat => ?_, fun _ _ => nofun⟩
  rcases hat with ⟨_, hflying, -⟩ | hagain
  · cases hflying
  · cases hagain

theorem InputConfig.blank_legal : InputConfig.blank.Legal := ⟨by decide, by decide, by decide, by decide, by decide, by decide⟩

theorem ContactInput.reset_legal : ContactInput.reset.Legal := ⟨InputConfig.blank_legal, by decide, by decide, rfl⟩

theorem reset_inputsSound : State.reset.InputsSound := by
  have hconfigs : State.reset.inputs.map (·.config) = List.replicate Config.contacts InputConfig.blank := List.map_replicate
  refine ⟨?_, fun _ x hx => ?_, reset_all⟩
  · rw [hconfigs]
    exact ⟨List.length_replicate, fun c hc => List.eq_of_mem_replicate hc ▸ InputConfig.blank_legal⟩
  · rw [List.eq_of_mem_replicate (n := Config.contacts) hx]
    exact ContactInput.reset_legal

/-- The link after reset is one on which a frame has just started (R139, R143). -/
theorem reset_setupSound : State.reset.SetupSound :=
  ⟨Link.fits_start (k := Link.reset) rfl (by decide) (Nat.zero_le _) _, ModeOptions.blank_legal, reset_all⟩

theorem reset_portSound : State.reset.PortSound :=
  ⟨by decide, by decide, fun _ => nofun, nofun, by rintro (⟨⟨⟩⟩ | ⟨⟨⟩⟩), nofun, nofun⟩

theorem reset_storeSound : State.reset.StoreSound :=
  ⟨nofun, fun h => absurd rfl h, by decide, fun _ => rfl⟩

/-- Settles O3: the tables are blank, each circuit is as start-up leaves a blank one, and the rest is at rest. -/
theorem resetKeepsEveryLaw : Obligations.ResetKeepsEveryLaw := by
  obtain ⟨hbase, hmovement, hsafe⟩ := reset_layersSound
  obtain ⟨hlink, hoptions⟩ := (setupSound_iff _).1 reset_setupSound
  exact ⟨reset_circuitsSound, hbase, hmovement, hsafe, reset_bindingsSound, reset_boardsSound.targets, hoptions, reset_boardsSound.stages,
    ⟨LineCtl.reset_legal, LineCtl.reset_legal, reset_all⟩, ⟨LineCtl.reset_censusLegal, LineCtl.reset_censusLegal⟩, reset_inputsSound,
    hlink, reset_portSound, reset_storeSound, fun _ => by decide⟩

end Sys2Proof.Machine

namespace Sys2Proof.Machine

/-! ## The end of start-up (R122, R160 steps 4 to 7) -/

/-- What a raised flag makes of the flags (R152). -/
theorem Port.raise_isSet_iff (f g : Flag) (p : Port) : (p.raise g).isSet f = true ↔ p.isSet f = true ∨ f = g := by
  by_cases h : f = g
  · subst h
    have hbit : f.bit < 13 := by cases f <;> decide
    simp [Port.raise, Port.isSet, Flag.only, hbit]
  · simp [Port.raise_isSet_of_ne h, h]

/-- Starting becomes Idle, and nothing else changes (R148). -/
theorem Port.beginRunning_eq (p : Port) : p.beginRunning = { p with state := if p.state = .starting then .idle else p.state } := by
  unfold Port.beginRunning
  split <;> rfl

/-- A line that can run starts with nothing under way, and another is left (R98). -/
theorem LineCtl.start_exchange {c : LineCtl} (h : c.config.canRun = true) : c.start.exchange = none := by
  unfold LineCtl.start
  rw [if_pos h]
  rfl

/-- Step 5 changes the Base layer alone, and step 6 the Safe layer alone (R85, R160). -/
theorem Circuit.started_layers (m : Mode) (asserted : SafeSet) (c : Circuit) :
    (c.started m asserted).base = some ⟨.steady (c.cfg.clamp (c.cfg.base.at m)), m⟩ ∧ (c.started m asserted).local' = c.local'
      ∧ (c.started m asserted).show' = c.show' := by
  obtain ⟨-, -, hlocal, hshow, -⟩ := c.claim_sameBut (.base m) (c.cfg.base.at m) 0
  obtain ⟨-, hbase, hlocal', hshow', -⟩ := (c.makeBase m).makeSafe_sameBut asserted
  refine ⟨(hbase nofun).trans ?_, (hlocal' nofun).trans (hlocal nofun), (hshow' nofun).trans (hshow nofun)⟩
  rw [Circuit.makeBase, Circuit.claim, Circuit.place_base]
  rfl

/-- Steps 5 and 6 leave no handover where there was none. -/
theorem Circuit.started_no_handover {c : Circuit} (h : c.handover = none) (m : Mode) (asserted : SafeSet) :
    (c.started m asserted).handover = none := by
  have hmade : (c.makeBase m).handover = none := by rw [Circuit.makeBase, Circuit.claim, Circuit.place_handover, h, ite_self]
  rw [Circuit.started]
  rcases (c.makeBase m).makeSafe_cases asserted with ⟨-, he⟩ | ⟨-, he⟩ <;> rw [he]
  · exact hmade
  · exact Circuit.safeClaim_no_handover hmade _ _ _

/-- A Safe claim of step 6 stands at the wanted level at once (R160). -/
theorem Circuit.started_safe {m : Mode} {asserted : SafeSet} {c : Circuit} {cl : Claim SafeSet} (hnone : c.safe = none)
    (h : (c.started m asserted).safe = some cl) : cl.form = .steady (c.cfg.wantedLevel asserted) := by
  obtain ⟨hcfg, -, -, -, hsafe⟩ := c.claim_sameBut (.base m) (c.cfg.base.at m) 0
  change ((c.makeBase m).makeSafe asserted).safe = some cl at h
  rcases (c.makeBase m).makeSafe_cases asserted with ⟨-, he⟩ | ⟨-, he⟩ <;> rw [he] at h
  · cases h.symm.trans ((hsafe nofun).trans hnone)
  · rw [Circuit.safeClaim_safe] at h
    cases h
    exact congrArg (fun cfg : CircuitConfig => Form.steady (cfg.wantedLevel asserted)) hcfg

theorem endSettling_asserted (s : State) :
    s.endSettling.asserted = ⟨!s.safe1.settled || s.safe1.level, !s.safe2.settled || s.safe2.level⟩ := by
  rw [endSettling_eq, adoptInputs_eq]; rfl

/-- Steps 5 and 6 on every circuit, under the safety inputs as they have been adopted (R160). -/
theorem endSettling_circuits (s : State) :
    s.endSettling.circuits = s.circuits.map (Circuit.started s.options.startMode s.endSettling.asserted) := by
  rw [endSettling_eq, List.map_map]; rfl

/-- A contact input as it is adopted at the end of step 4: a Momentary one found closed is Stuck (R122). -/
def ContactInput.settled (x : ContactInput) : ContactInput := ContactInput.adopt { x with pin := x.pin.settledAt } .stuck

theorem endSettling_contact (n : Nat) (s : State) : s.endSettling.contact n = (s.contact n).map ContactInput.settled := by
  have hinputs : s.endSettling.inputs = s.inputs.map ContactInput.settled := by rw [endSettling_eq, adoptInputs_eq]; rfl
  unfold State.contact
  rw [hinputs]
  split
  · rfl
  · exact List.getElem?_map

theorem ContactInput.settled_stuck_iff (x : ContactInput) :
    x.settled.state = .stuck ↔ x.config.kind = .momentary ∧ x.config.isClosed x.pin.level = true := by
  have hstate : x.settled.state = match x.config.kind with
      | .unused => .unused
      | .maintained => if x.config.isClosed x.pin.level then .closed else .open'
      | .momentary => if x.config.isClosed x.pin.level then .stuck else .open' := rfl
  rw [hstate]
  cases x.config.kind <;> cases x.config.isClosed x.pin.level <;> decide

theorem endSettling_line (l : Line) (s : State) : s.endSettling.line l = (s.line l).start := by
  rw [endSettling_eq]
  cases l <;> rfl

/-- The adoption of the inputs raises INPUT_STUCK for a Momentary input found closed, and nothing else (R122). -/
theorem adoptInputs_port (s : State) : s.adoptInputs.port =
    if ∃ x ∈ s.inputs, x.config.kind = .momentary ∧ x.config.isClosed x.pin.level = true then s.port.raise .inputStuck else s.port := by
  have hany : ((s.inputs.map ContactInput.settled).any fun x => decide (x.state = .stuck)) = true
      ↔ ∃ x ∈ s.inputs, x.config.kind = .momentary ∧ x.config.isClosed x.pin.level = true := by
    simp only [List.any_map, List.any_eq_true, Function.comp_apply, decide_eq_true_eq, ContactInput.settled_stuck_iff]
  rw [adoptInputs_eq]
  exact if_congr hany rfl rfl

theorem adoptInputs_isSet (f : Flag) (s : State) : s.adoptInputs.port.isSet f = true ↔ s.port.isSet f = true
    ∨ f = .inputStuck ∧ ∃ x ∈ s.inputs, x.config.kind = .momentary ∧ x.config.isClosed x.pin.level = true := by
  rw [adoptInputs_port]
  split
  · next h => rw [Port.raise_isSet_iff, and_iff_left h]
  · next h => simp only [h, and_false, or_false]

theorem endSettling_port (s : State) : s.endSettling.port = s.adoptInputs.port.beginRunning.raise .started := by rw [endSettling_eq]

/-- The port at the end of start-up: but for its state and the flags it is as it was (R148). -/
theorem endSettling_port_frame (s : State) : s.endSettling.port =
    { s.port with state := if s.port.state = .starting then .idle else s.port.state, flags := s.endSettling.port.flags } := by
  rw [endSettling_port, Port.beginRunning_eq, adoptInputs_port]
  split <;> rfl

/-- The flags that start-up's end raises (R122, R160). -/
theorem endSettling_isSet (f : Flag) (s : State) : s.endSettling.port.isSet f = true ↔ s.port.isSet f = true ∨ f = .started
    ∨ f = .inputStuck ∧ ∃ x ∈ s.inputs, x.config.kind = .momentary ∧ x.config.isClosed x.pin.level = true := by
  have hkept : s.adoptInputs.port.beginRunning.isSet f = s.adoptInputs.port.isSet f := by rw [Port.beginRunning_eq]; rfl
  rw [endSettling_port, Port.raise_isSet_iff, hkept, adoptInputs_isSet, or_assoc, or_comm (b := f = .started)]

/-- The link at the end of start-up: Sending, with its first frame started from the circuits as they then are (R139, R143). -/
theorem endSettling_link (s : State) : s.endSettling.link = { s.link with
    sending := true, frame := some (rackFrame s.endSettling.circuits), inUse := s.link.period, nextStart := some s.link.period
    owed := false } := by rw [endSettling_eq]

/-- Settles O14: each step of the end of start-up on its own part of the state. -/
theorem settlingEndRunsStartUpToItsEnd : Obligations.SettlingEndRunsStartUpToItsEnd := by
  intro s hphase hbare
  refine ⟨s.endSettling, congrArg Host.Outcome.next (if_pos hphase), ?_, fun n x hx => ?_, endSettling_asserted s, fun n x hx => ?_, ?_,
    endSettling_link s, (endSettling_line · s), rtxLevel_sending ?_, fun l hl => driverEnabled_quiet ?_, endSettling_port_frame s,
    (endSettling_isSet · s)⟩
  · rw [endSettling_eq, adoptInputs_eq]
  · have hempty := hbare x (circuitAt_mem hx)
    have hsafe : x.safe = none := by rw [hempty]; rfl
    have hhandover : x.handover = none := by rw [hempty]; rfl
    obtain ⟨hbase, hlocal, hshow⟩ := x.started_layers s.options.startMode s.endSettling.asserted
    refine ⟨x.started s.options.startMode s.endSettling.asserted, ?_, Circuit.started_cfg _ _ _, hbase,
      hlocal.trans (by rw [hempty]; rfl), hshow.trans (by rw [hempty]; rfl), Circuit.started_no_handover hhandover _ _,
      Circuit.started_settled _ _ _, Circuit.started_agrees _ _ hsafe, fun cl => Circuit.started_safe hsafe⟩
    rw [endSettling_circuits, circuitAt_map, hx]
    rfl
  · exact ⟨x.settled, by rw [endSettling_contact, hx]; rfl, rfl, rfl, rfl, rfl⟩
  · rw [endSettling_eq, adoptInputs_eq]
    exact ⟨rfl, rfl, rfl, rfl⟩
  · rw [endSettling_link]
  · rw [endSettling_line]
    exact LineCtl.start_exchange hl

end Sys2Proof.Machine

namespace Sys2Proof.Machine

/-! ## What the controller of a line does (R97 to R99, R104, R112) -/

@[simp] theorem raise_line (s : State) (f : Flag) (l : Line) : (s.raise f).line l = s.line l := by cases l <;> rfl

theorem LineCtl.abandonCensus_eq (c : LineCtl) :
    c.abandonCensus = { c with census := if c.census = .running then .abandoned else c.census } := by
  unfold LineCtl.abandonCensus
  split <;> rfl

/-- A line that becomes Off (R98). -/
theorem LineCtl.becomeOff_eq (c : LineCtl) : c.becomeOff = { c with
    state := .off, waiting := false, announce := none, again := none, exchange := none
    census := if c.census = .running then .abandoned else c.census } := LineCtl.abandonCensus_eq _

/-- A line that enters Fault, or becomes Off where it can no longer run (R97, R99). -/
theorem LineCtl.enterFault_eq (c : LineCtl) : c.enterFault = { c with
    state := if c.config.canRun then .fault else .off, waiting := false, announce := none, again := none, exchange := none
    census := if c.census = .running then .abandoned else c.census } := by
  unfold LineCtl.enterFault
  simp only [LineCtl.abandonCensus_eq, LineCtl.becomeOff_eq]
  cases c.config.canRun <;> cases c.census <;> rfl

/-- The exchange of a Running line ends (R97). -/
theorem LineCtl.endExchange_running {c : LineCtl} (h : c.state = .running) : c.endExchange = c.over := by
  unfold LineCtl.endExchange LineCtl.over
  cases c.config.canRun with
  | true => exact if_neg fun hc => nomatch hc.2
  | false => exact (if_pos ⟨h, rfl⟩).trans (LineCtl.becomeOff_eq _)

theorem LineCtl.over_canRun {c : LineCtl} (h : c.config.canRun = true) : c.over = { c with exchange := none } := if_pos h

theorem LineCtl.over_cannotRun {c : LineCtl} (h : c.config.canRun = false) : c.over = c.becomeOff :=
  (if_neg (by rw [h]; exact nofun)).trans c.becomeOff_eq.symm

@[simp] theorem LineCtl.over_exchange (c : LineCtl) : c.over.exchange = none := by
  unfold LineCtl.over
  split <;> rfl

end Sys2Proof.Machine

namespace Sys2Proof.Machine

/-! ## The laws of one line (R96 to R113) -/

/-- What the laws say of what a line records, whatever it does: its configuration, its poll list, its round, and the addresses its census has
found below the next one (R96, R100, R101, R113). -/
structure LineRecords (config : LineConfig) (stations : List Station) (round : Nat) (list : List StationIdent)
    (addr : Nat) : Prop where
  config : config.Legal
  idents : LegalIdents (stations.map (·.ident))
  stations : ∀ r ∈ stations, r.Legal
  round : round ≤ 15
  next : 1 ≤ addr ∧ addr ≤ 63
  ascending : list.Pairwise fun x y => x.address < y.address
  found : ∀ x ∈ list, 1 ≤ x.address ∧ x.address < addr ∧ 1 ≤ x.buttons ∧ x.buttons ≤ 10

def LineCtl.Records (c : LineCtl) : Prop := LineRecords c.config c.stations c.round c.censusList c.censusAddr

/-- An address that the census of a line may poll next, or again (R113). -/
def LineCtl.Counts (c : LineCtl) (a : Nat) : Prop := c.census = .running ∧ c.censusAddr ≤ a ∧ a ≤ 62

/-- A line that is Off or in Fault (R97 to R99). -/
structure LineCtl.Resting (c : LineCtl) : Prop where
  state : c.state ≠ .running
  fault : c.state = .fault → c.config.canRun = true
  collisions : c.collisions ≤ 8
  exchange : c.exchange = none
  announce : c.announce = none
  again : c.again = none
  waiting : c.waiting = false

/-- A Running line (R97, R104, R113). -/
structure LineCtl.Running (c : LineCtl) : Prop where
  state : c.state = .running
  collisions : c.collisions ≤ 7
  flying : c.config.canRun = false → c.exchange.isSome = true
  census : ∀ a, c.CensusAt a → c.Counts a
  sole : ∀ x a, c.exchange = some x → x.kind = .census a → c.again = none

/-- The laws of a line, its census included, by whether it runs. -/
def LineCtl.Sound (c : LineCtl) : Prop := c.Records ∧ (c.Resting ∨ c.Running)

theorem LineCtl.not_censusAt {c : LineCtl} (hx : c.exchange = none) (hg : c.again = none) (a : Nat) : ¬c.CensusAt a := by
  rintro (⟨x, hx', -⟩ | hg')
  · cases hx.symm.trans hx'
  · cases hg.symm.trans hg'

theorem LineCtl.sound_iff (c : LineCtl) : c.Sound ↔ c.Legal ∧ c.CensusLegal := by
  constructor
  · rintro ⟨⟨hconfig, hidents, hstations, hround, ⟨hnext1, hnext2⟩, hascending, hfound⟩, h | h⟩
    · exact ⟨⟨hconfig, hidents, hstations, hround, h.collisions, fun _ => ⟨h.exchange, h.announce, h.again, h.waiting⟩,
        fun hs => absurd hs h.state, h.fault⟩, hnext1, hnext2, hascending, hfound,
        fun a ha => absurd ha (LineCtl.not_censusAt h.exchange h.again a), fun _ _ hx => nomatch h.exchange.symm.trans hx⟩
    · exact ⟨⟨hconfig, hidents, hstations, hround, h.collisions.trans (by decide), fun hs => absurd h.state hs,
        fun _ => ⟨h.collisions, h.flying⟩, fun hs => nomatch h.state.symm.trans hs⟩, hnext1, hnext2, hascending, hfound, h.census, h.sole⟩
  · rintro ⟨⟨hconfig, hidents, hstations, hround, hcollisions, hrest, hrun, hfault⟩, hnext1, hnext2, hascending, hfound, hcensus, hsole⟩
    refine ⟨⟨hconfig, hidents, hstations, hround, ⟨hnext1, hnext2⟩, hascending, hfound⟩, ?_⟩
    by_cases hs : c.state = .running
    · exact .inr ⟨hs, (hrun hs).1, (hrun hs).2, hcensus, hsole⟩
    · obtain ⟨hexchange, hannounce, hagain, hwaiting⟩ := hrest hs
      exact .inl ⟨hs, hfault, hcollisions, hexchange, hannounce, hagain, hwaiting⟩

theorem LineCtl.Sound.collisions {c : LineCtl} (h : c.Sound) : c.collisions ≤ 8 := by
  rcases h with ⟨-, h | h⟩
  · exact h.collisions
  · exact h.collisions.trans (by decide)

/-- A line whose state is Running is held to the laws of a Running line. -/
theorem LineCtl.Sound.running {c : LineCtl} (h : c.Sound) (hs : c.state = .running) : c.Running := by
  rcases h with ⟨-, h | h⟩
  · exact absurd hs h.state
  · exact h

/-- A line with an exchange in flight runs (R98, R99). -/
theorem LineCtl.Sound.running_of_exchange {c : LineCtl} (h : c.Sound) {x : Exchange} (hx : c.exchange = some x) : c.Running := by
  rcases h with ⟨-, h | h⟩
  · cases h.exchange.symm.trans hx
  · exact h

/-- A Running line between exchanges can run (R97). -/
theorem LineCtl.Running.canRun {c : LineCtl} (h : c.Running) (hx : c.exchange = none) : c.config.canRun = true := by
  cases hcan : c.config.canRun with
  | true => rfl
  | false => exact nomatch hx ▸ h.flying hcan

/-! ### States of the line (R97 to R99) -/

theorem LineCtl.becomeOff_sound {c : LineCtl} (hr : c.Records) (hc : c.collisions ≤ 8) : c.becomeOff.Sound := by
  rw [LineCtl.becomeOff_eq]
  exact ⟨hr, .inl ⟨nofun, nofun, hc, rfl, rfl, rfl, rfl⟩⟩

theorem LineCtl.quiet_sound {c : LineCtl} (h : c.Sound) : c.quiet.Sound :=
  ⟨h.1, .inl ⟨nofun, nofun, h.collisions, rfl, rfl, rfl, rfl⟩⟩

theorem LineCtl.becomeRunning_sound {c : LineCtl} (hr : c.Records) (hcan : c.config.canRun = true) : c.becomeRunning.Sound :=
  ⟨⟨hr.config, hr.idents, hr.stations, Nat.zero_le _, hr.next, hr.ascending, hr.found⟩,
    .inr ⟨rfl, Nat.zero_le _, fun h => (nomatch hcan.symm.trans h), fun a ha => absurd ha (LineCtl.not_censusAt rfl rfl a), fun _ _ => nofun⟩⟩

theorem LineCtl.enterFault_sound {c : LineCtl} (hr : c.Records) (hc : c.collisions ≤ 8) : c.enterFault.Sound := by
  rw [LineCtl.enterFault_eq]
  refine ⟨hr, .inl ⟨?_, fun hf => ?_, hc, rfl, rfl, rfl, rfl⟩⟩
  · dsimp only
    split <;> exact nofun
  · dsimp only at hf ⊢
    split at hf
    · assumption
    · cases hf

theorem LineCtl.start_sound {c : LineCtl} (h : c.Sound) : c.start.Sound := by
  unfold LineCtl.start
  split
  · next hcan => exact LineCtl.becomeRunning_sound h.1 hcan
  · exact h

/-- The Fault ends with every miss count 0 (R99). -/
theorem LineCtl.recover_sound {c : LineCtl} (h : c.Sound) (hs : c.state = .fault) : c.recover.Sound := by
  obtain ⟨hr, hrest | hrun⟩ := h
  · refine LineCtl.becomeRunning_sound (c := { c with stations := c.stations.map fun r => { r with misses := 0 } }) ?_ (hrest.fault hs)
    refine ⟨hr.config, ?_, List.forall_mem_map.2 fun r hmem => ?_, hr.round, hr.next, hr.ascending, hr.found⟩
    · rw [List.map_map]
      exact hr.idents
    · obtain ⟨-, -, hbit, hlost⟩ := hr.stations r hmem
      exact ⟨Nat.zero_le _, fun _ => Nat.zero_le _, hbit, hlost⟩
  · exact nomatch hs.symm.trans hrun.state

/-- An exchange ends, with a repeat that its census may send (R97, R113). -/
theorem LineCtl.over_sound {c : LineCtl} (hr : c.Records) (hs : c.state = .running) (hc : c.collisions ≤ 7)
    (hagain : ∀ a, c.again = some (.census a) → c.Counts a) : c.over.Sound := by
  cases hcan : c.config.canRun with
  | false =>
    rw [LineCtl.over_cannotRun hcan]
    exact LineCtl.becomeOff_sound hr (hc.trans (by decide))
  | true =>
    rw [LineCtl.over_canRun hcan]
    refine ⟨hr, .inr ⟨hs, hc, fun h => (nomatch hcan.symm.trans h), fun a ha => ?_, fun _ _ => nofun⟩⟩
    rcases ha with ⟨_, hx, -⟩ | ha
    · cases hx
    · exact hagain a ha

theorem LineCtl.ended_sound {c : LineCtl} (hr : c.Records) (hs : c.state = .running) (hc : c.collisions ≤ 7)
    (hagain : ∀ a, c.again = some (.census a) → c.Counts a) : c.endExchange.Sound :=
  LineCtl.endExchange_running hs ▸ LineCtl.over_sound hr hs hc hagain

theorem LineCtl.endExchange_sound {c : LineCtl} (h : c.Sound) : c.endExchange.Sound := by
  obtain ⟨hr, hrest | hrun⟩ := id h
  · rw [LineCtl.endExchange, if_neg fun hc => hrest.state hc.1]
    exact ⟨hr, .inl ⟨hrest.state, hrest.fault, hrest.collisions, rfl, hrest.announce, hrest.again, hrest.waiting⟩⟩
  · exact LineCtl.ended_sound hr hrun.state hrun.collisions fun a ha => hrun.census a (.inr ha)

/-- The fields of a line's configuration written within their ranges (R96, R97). -/
theorem LineConfig.Legal.withFields {c : LineConfig} (h : c.Legal) {f : LineFields} (hf : lineFieldsInRange f = true) :
    (c.withFields f).Legal := by
  obtain ⟨hdivisor, hwindow1, hwindow2⟩ := h
  simp only [lineFieldsInRange, Bool.and_eq_true, Option.all_eq_true, optWithin_iff, Bool.or_eq_true, beq_iff_eq, or_assoc] at hf
  obtain ⟨⟨-, fdivisor⟩, fwindow⟩ := hf
  exact ⟨getD_of (p := fun d => d = 0 ∨ d = 16 ∨ d = 24 ∨ d = 48) fdivisor hdivisor,
    getD_of (p := (1 ≤ ·)) (fun v hv => (fwindow v hv).1) hwindow1, getD_of (p := (· ≤ 10)) (fun v hv => (fwindow v hv).2) hwindow2⟩

/-- The line state follows a new configuration (R97, R98). -/
theorem LineCtl.follow_sound {c : LineCtl} (h : c.Sound) {cfg : LineConfig} (hcfg : cfg.Legal) :
    ({ c with config := cfg } : LineCtl).follow.Sound := by
  have hr : LineCtl.Records { c with config := cfg } :=
    ⟨hcfg, h.1.idents, h.1.stations, h.1.round, h.1.next, h.1.ascending, h.1.found⟩
  have hoff := LineCtl.becomeOff_sound hr h.collisions
  unfold LineCtl.follow
  obtain ⟨-, hrest | hrun⟩ := h
  · have hstill (hfault : c.state = .fault → cfg.canRun = true) : LineCtl.Sound { c with config := cfg } :=
      ⟨hr, .inl ⟨hrest.state, hfault, hrest.collisions, hrest.exchange, hrest.announce, hrest.again, hrest.waiting⟩⟩
    split
    · next hs =>
      split
      · next hcan => exact LineCtl.becomeRunning_sound hr hcan
      · exact hstill fun hf => nomatch hs.symm.trans hf
    · next hs => exact absurd hs hrest.state
    · split
      · next hcan => exact hstill fun _ => hcan
      · exact hoff
  · have hs := hrun.state
    split
    · next ho => exact nomatch hs.symm.trans ho
    · split
      · exact hoff
      · next hgoes =>
        refine ⟨hr, .inr ⟨hs, hrun.collisions, fun hcan => ?_, hrun.census, hrun.sole⟩⟩
        exact Option.isSome_iff_ne_none.2 fun hx => hgoes ⟨hcan, hx⟩
    · next hf => exact nomatch hs.symm.trans hf

/-! ### Exchanges (R101, R104, R108, R113) -/

/-- An exchange is begun by a Running line, with nothing left to be sent again; a census poll is one that the census may send. -/
theorem LineCtl.begin_sound {c : LineCtl} {kind : ExchangeKind} (hr : c.Records) (hs : c.state = .running) (hc : c.collisions ≤ 7)
    (hagain : c.again = none) (hcensus : ∀ a, kind = .census a → c.Counts a) (chars : List TxChar) : (c.begin kind chars).Sound := by
  refine ⟨hr, .inr ⟨hs, hc, fun _ => rfl, fun a ha => ?_, fun _ _ _ _ => hagain⟩⟩
  rcases ha with ⟨x, hx, hk⟩ | ha
  · cases hx
    exact hcensus a hk
  · cases hagain.symm.trans ha

/-- An announce is begun, whatever is to be sent again (R108). -/
theorem LineCtl.sendAnnounce_sound {c : LineCtl} (hr : c.Records) (h : c.Running) (m : Mode) : (c.sendAnnounce m).Sound := by
  refine ⟨hr, .inr ⟨h.state, h.collisions, fun _ => rfl, fun a ha => ?_, fun x a hx hk => ?_⟩⟩
  · rcases ha with ⟨x, hx, hk⟩ | ha
    · cases hx
      cases hk
    · exact h.census a (.inr ha)
  · cases hx
    cases hk

/-- Mode control asks for an announce (R93, R108). -/
theorem LineCtl.askAnnounce_sound {c : LineCtl} (h : c.Sound) (m : Mode) : (c.askAnnounce m).Sound := by
  by_cases hs : c.state = .running
  · have hrun := h.running hs
    have hasked : LineCtl.Running { c with announce := some m } := ⟨hs, hrun.collisions, hrun.flying, hrun.census, hrun.sole⟩
    rw [LineCtl.askAnnounce, if_pos hs]
    dsimp only
    split
    · exact LineCtl.sendAnnounce_sound (c := { c with announce := some m }) h.1 hasked m
    · exact ⟨h.1, .inr hasked⟩
  · rw [askAnnounce_other hs]
    exact h

/-- The characters of an exchange are all sent (R104, R105, R108). -/
theorem LineCtl.allSent_sound {c : LineCtl} (h : c.Sound) : c.allSent.Sound := by
  unfold LineCtl.allSent
  split
  · exact h
  · next x hx =>
    split
    · exact h
    · have hrun := h.running_of_exchange hx
      split
      · refine LineCtl.endExchange_sound ⟨h.1, .inr ⟨hrun.state, Nat.zero_le _, hrun.flying, hrun.census, hrun.sole⟩⟩
      · refine ⟨h.1, .inr ⟨hrun.state, Nat.zero_le _, fun _ => rfl, fun a ha => hrun.census a ?_, fun y a hy hk => ?_⟩⟩
        · rcases ha with ⟨y, hy, hk⟩ | ha
          · cases hy
            exact .inl ⟨x, hx, hk⟩
          · exact .inr ha
        · cases hy
          exact hrun.sole x a hx hk

end Sys2Proof.Machine

namespace Sys2Proof.Machine

/-! ## What a command leaves of the laws of the lines -/

@[simp] theorem withLine_withLine (l : Line) (x y : LineCtl) (s : State) : (s.withLine l x).withLine l y = s.withLine l y := by
  cases l <;> rfl

/-- Each line that keeps its laws before keeps them after. -/
def KeepsLines (s t : State) : Prop := ∀ l, (s.line l).Sound → (t.line l).Sound

theorem KeepsLines.refl (s : State) : KeepsLines s s := fun _ => id

theorem KeepsLines.trans {s t u : State} (h : KeepsLines s t) (k : KeepsLines t u) : KeepsLines s u := fun l hs => k l (h l hs)

/-- A change that leaves both lines. -/
theorem KeepsLines.same {s t : State} (hA : t.lineA = s.lineA) (hB : t.lineB = s.lineB) : KeepsLines s t :=
  fun l h => line_of_both (f := id) hA hB l ▸ h

theorem KeepsLines.foldl {o : Type} {f : State → o → State} (hf : ∀ s x, KeepsLines s (f s x)) (xs : List o) (s : State) :
    KeepsLines s (xs.foldl f s) := by
  induction xs generalizing s with
  | nil => exact .refl s
  | cons x xs ih => exact (hf s x).trans (ih _)

/-- A change of one line. -/
theorem KeepsLines.withLine (l : Line) {x : LineCtl} {s : State} (hx : (s.line l).Sound → x.Sound) : KeepsLines s (s.withLine l x) := by
  intro l' h
  cases l <;> cases l'
  · exact hx h
  · exact h
  · exact h
  · exact hx h

theorem KeepsLines.raise {s t : State} (h : KeepsLines s t) (f : Flag) : KeepsLines s (t.raise f) := h.trans (.same rfl rfl)

/-- A request that one of its checks may refuse. -/
theorem KeepsLines.orRefused {s : State} {r : ResultCode} {x : Carried} {p : Prop} [Decidable p] (h : ¬p → KeepsLines s x.state) :
    KeepsLines s (if p then s.refuse r else x).state := by
  split
  · exact .refl s
  · next hp => exact h hp

/-! ### Poll lists (R100, R106, R107, R109, R110) -/

theorem stationAt_eq_none_iff {l : List Station} {a : Nat} : stationAt l a = none ↔ ∀ r ∈ l, r.ident.address ≠ a := by
  simp [stationAt]

theorem stationAt_address {l : List Station} {a : Nat} {r : Station} (h : stationAt l a = some r) : r.ident.address = a := by
  simpa using List.find?_some h

/-- An enrolment keeps a poll list ascending (R109). -/
theorem insertStation_ascending {r : Station} {l : List Station} (hnone : stationAt l r.ident.address = none)
    (h : l.Pairwise fun x y => x.ident.address < y.ident.address) :
    (insertStation r l).Pairwise fun x y => x.ident.address < y.ident.address := by
  induction l with
  | nil => exact List.pairwise_singleton _ _
  | cons x l ih =>
    obtain ⟨hx, hl⟩ := List.pairwise_cons.1 h
    obtain ⟨hne, hrest⟩ := List.forall_mem_cons.1 (stationAt_eq_none_iff.1 hnone)
    unfold insertStation
    split
    · next hlt => exact List.pairwise_cons.2 ⟨List.forall_mem_cons.2 ⟨hlt, fun y hy => hlt.trans (hx y hy)⟩, h⟩
    · next hge =>
      refine List.pairwise_cons.2 ⟨fun y hy => ?_, ih (stationAt_eq_none_iff.2 hrest) hl⟩
      rcases (mem_insertStation r y l).1 hy with rfl | hy
      · omega
      · exact hx y hy

theorem Station.fresh_legal (i : StationIdent) : (Station.fresh i).Legal := ⟨Nat.zero_le _, fun _ => Nat.zero_le _, fun _ => rfl, Nat.zero_le _⟩

/-- A station is enrolled (R109). -/
theorem LineCtl.Records.enrol {c : LineCtl} (h : c.Records) {i : StationIdent} (ha : 1 ≤ i.address ∧ i.address ≤ 62)
    (hb : 1 ≤ i.buttons ∧ i.buttons ≤ 10) (hnone : stationAt c.stations i.address = none) (hroom : c.stations.length < 40) :
    (c.enrol (Station.fresh i)).Records := by
  obtain ⟨hlength, hascending, hranges⟩ := h.idents
  refine ⟨h.config, ⟨?_, ?_, List.forall_mem_map.2 fun r hr => ?_⟩, fun r hr => ?_, h.round, h.next, h.ascending, h.found⟩
  · simpa [LineCtl.enrol] using hroom
  · rw [List.pairwise_map] at hascending ⊢
    exact insertStation_ascending hnone hascending
  · rcases (mem_insertStation _ r c.stations).1 hr with rfl | hr
    · exact ⟨ha.1, ha.2, hb.1, hb.2⟩
    · exact hranges _ (List.mem_map_of_mem hr)
  · rcases (mem_insertStation _ r c.stations).1 hr with rfl | hr
    · exact Station.fresh_legal i
    · exact h.stations r hr

/-- Fewer stations (R110). -/
theorem LineCtl.Records.sublist {c d : LineCtl} (h : c.Records) (hd : d.stations.Sublist c.stations) (hconfig : d.config = c.config)
    (hround : d.round = c.round) (hlist : d.censusList = c.censusList) (haddr : d.censusAddr = c.censusAddr) : d.Records := by
  obtain ⟨hlength, hascending, hranges⟩ := h.idents
  unfold LineCtl.Records
  rw [hconfig, hround, hlist, haddr]
  refine ⟨h.config, ⟨?_, hascending.sublist (hd.map _), fun i hi => hranges i ((hd.map _).subset hi)⟩, fun r hr => h.stations r (hd.subset hr),
    h.round, h.next, h.ascending, h.found⟩
  exact ((hd.map _).length_le).trans hlength

@[simp] theorem Exchange.forget_kind (a : Nat) (x : Exchange) : (x.forget a).kind = x.kind := by
  unfold Exchange.forget
  split <;> rfl

/-- What is in flight when a station is unenrolled is in flight after it (R110). -/
theorem LineCtl.unenrol_exchange {a : Nat} {c : LineCtl} {x : Exchange} (h : (c.unenrol a).exchange = some x) :
    ∃ y, c.exchange = some y ∧ y.kind = x.kind := by
  obtain ⟨y, hy, rfl⟩ := Option.map_eq_some_iff.1 h
  exact ⟨y, hy, (y.forget_kind a).symm⟩

/-- A repeat is dropped where it is one of the station that is unenrolled (R110). -/
theorem LineCtl.unenrol_again_none (a : Nat) {c : LineCtl} (h : c.again = none) : (c.unenrol a).again = none := by
  simp [LineCtl.unenrol, h]

theorem LineCtl.unenrol_again_census {a b : Nat} {c : LineCtl} (h : (c.unenrol a).again = some (.census b)) : c.again = some (.census b) := by
  unfold LineCtl.unenrol at h
  dsimp only at h
  split at h
  · cases h
  · exact h

theorem LineCtl.unenrol_sound (a : Nat) {c : LineCtl} (h : c.Sound) : (c.unenrol a).Sound := by
  obtain ⟨hr, hstate⟩ := h
  refine ⟨hr.sublist List.filter_sublist rfl rfl rfl rfl, hstate.imp (fun hrest => ?_) fun hrun => ?_⟩
  · exact ⟨hrest.state, hrest.fault, hrest.collisions, congrArg (Option.map _) hrest.exchange, hrest.announce,
      LineCtl.unenrol_again_none a hrest.again, hrest.waiting⟩
  · refine ⟨hrun.state, hrun.collisions, fun hcan => Option.isSome_map.trans (hrun.flying hcan), fun b hb => hrun.census b ?_,
      fun x b hx hk => LineCtl.unenrol_again_none a ?_⟩
    · rcases hb with ⟨x, hx, hk⟩ | hb
      · obtain ⟨y, hy, hkind⟩ := LineCtl.unenrol_exchange hx
        exact .inl ⟨y, hy, hkind.trans hk⟩
      · exact .inr (LineCtl.unenrol_again_census hb)
    · obtain ⟨y, hy, hkind⟩ := LineCtl.unenrol_exchange hx
      exact hrun.sole y b hy (hkind.trans hk)

/-- A station is enrolled (R109). -/
theorem LineCtl.enrol_sound {c : LineCtl} (h : c.Sound) {i : StationIdent} (ha : 1 ≤ i.address ∧ i.address ≤ 62)
    (hb : 1 ≤ i.buttons ∧ i.buttons ≤ 10) (hnone : stationAt c.stations i.address = none) (hroom : c.stations.length < 40) :
    (c.enrol (Station.fresh i)).Sound :=
  ⟨h.1.enrol ha hb hnone hroom, h.2.imp
    (fun hrest => ⟨hrest.state, hrest.fault, hrest.collisions, hrest.exchange, hrest.announce, hrest.again, hrest.waiting⟩)
    fun hrun => ⟨hrun.state, hrun.collisions, hrun.flying, hrun.census, hrun.sole⟩⟩

/-- Station records are changed, their enrolled fields kept (R106, R107). -/
theorem LineCtl.mapStation_sound {f : Station → Station} (hident : ∀ r, (f r).ident = r.ident) (hlegal : ∀ r, r.Legal → (f r).Legal)
    (a : Nat) {c : LineCtl} (h : c.Sound) : LineCtl.Sound { c with stations := mapStation a f c.stations } := by
  obtain ⟨hr, hstate⟩ := h
  have hidents : (mapStation a f c.stations).map (·.ident) = c.stations.map (·.ident) := by
    rw [mapStation, List.map_map]
    refine List.map_congr_left fun r _ => ?_
    simp only [Function.comp_apply]
    split
    · exact hident r
    · rfl
  refine ⟨⟨hr.config, hidents ▸ hr.idents, List.forall_mem_map.2 fun r hmem => ?_, hr.round, hr.next, hr.ascending, hr.found⟩, hstate.imp
    (fun hrest => ⟨hrest.state, hrest.fault, hrest.collisions, hrest.exchange, hrest.announce, hrest.again, hrest.waiting⟩)
    fun hrun => ⟨hrun.state, hrun.collisions, hrun.flying, hrun.census, hrun.sole⟩⟩
  split
  · exact hlegal r (hr.stations r hmem)
  · exact hr.stations r hmem

theorem Station.answered_legal (reply : StationReply) {r : Station} (h : r.Legal) : (r.answered reply).Legal := by
  obtain ⟨-, -, -, hlost⟩ := h
  refine ⟨Nat.zero_le _, fun _ => Nat.zero_le _, fun h => absurd rfl h, ?_⟩
  show (if r.accepts reply && reply.lost then bump r.eventsLost else r.eventsLost) ≤ 255
  split
  · exact bump_le _
  · exact hlost

theorem Station.fails_iff (r : Station) : r.fails = true ↔ r.state ≠ .silent ∧ 3 ≤ r.misses + 1 := by simp [Station.fails]

@[simp] theorem Station.missed_ident (r : Station) : r.missed.ident = r.ident := by
  unfold Station.missed
  repeat' split
  all_goals rfl

theorem Station.missed_legal {r : Station} (h : r.Legal) : r.missed.Legal := by
  obtain ⟨-, -, hbit, hlost⟩ := h
  unfold Station.missed
  split
  · next hs => exact ⟨le_rfl, fun hn => absurd hs hn, hbit, hlost⟩
  · next hs =>
    split
    · exact ⟨le_rfl, fun hn => absurd rfl hn, fun _ => rfl, hlost⟩
    · next hfails =>
      have hfew : r.misses + 1 ≤ 2 := Nat.le_of_lt_succ (not_le.1 fun h => hfails ((Station.fails_iff r).2 ⟨hs, h⟩))
      exact ⟨hfew.trans (by decide), fun _ => hfew, hbit, hlost⟩

theorem onStation_keepsLines (l : Line) (a : Nat) {f : Station → Station} (hident : ∀ r, (f r).ident = r.ident)
    (hlegal : ∀ r, r.Legal → (f r).Legal) (s : State) : KeepsLines s (s.onStation l a f) :=
  .withLine l (LineCtl.mapStation_sound hident hlegal a)

/-! ### Events (R54, R93, R106) -/

/-- A mode change asks both lines for an announce (R93). -/
theorem changeMode_keepsLines (m : Mode) (fade : Nat) (s : State) : KeepsLines s (s.changeMode m fade) := by
  by_cases h : s.mode = m
  · rw [changeMode_same h]
    exact .refl s
  · intro l hl
    rw [changeMode_eq h, line_of_both (s := s) (f := LineCtl.askAnnounce m) rfl rfl]
    exact LineCtl.askAnnounce_sound hl m

/-- Of the actions of a binding, MODE alone reaches the lines. -/
theorem carryOut_keepsLines (k : SourceKey) (s : State) (nb : Nat × Binding) : KeepsLines s (s.carryOut k nb) := by
  unfold State.carryOut
  dsimp only
  cases nb.2.action with
  | mode =>
    dsimp only
    split
    · exact changeMode_keepsLines _ _ s
    · exact .refl s
  | _ =>
    dsimp only
    repeat' split
    all_goals exact .same rfl rfl

theorem resolve_keepsLines (k : SourceKey) (e : EventKind) (s : State) : KeepsLines s (s.resolve k e) := by
  have hend : KeepsLines s (s.endBySource k e) := by cases e <;> exact .same rfl rfl
  exact hend.trans (.foldl (carryOut_keepsLines k) _ _)

theorem deliver_keepsLines (l : Line) (a : Nat) (events : List (Nat × EventKind)) (s : State) : KeepsLines s (s.deliver l a events) :=
  .foldl (fun t _ => resolve_keepsLines _ _ t) _ _

/-! ### The next exchange (R101, R113) -/

/-- A Running line with nothing in flight and nothing to be sent again. -/
structure LineCtl.Between (c : LineCtl) : Prop where
  state : c.state = .running
  exchange : c.exchange = none
  again : c.again = none

theorem LineCtl.censusNext_eq_some {c : LineCtl} {a : Nat} (h : c.censusNext = some a) :
    c.censusAddr ≤ a ∧ a ≤ 62 ∧ stationAt c.stations a = none := by
  have hp := List.find?_some h
  have hm := List.mem_range'_1.1 (List.mem_of_find?_eq_some h)
  simp only [Bool.and_eq_true, decide_eq_true_eq, Option.isNone_iff_eq_none] at hp
  exact ⟨hp.1, Nat.le_of_lt_succ hm.2, hp.2⟩

theorem poll_keepsLines (l : Line) (r : Station) {s : State} (hs : (s.line l).state = .running) : KeepsLines s (s.poll l r) :=
  .withLine l fun h => LineCtl.begin_sound (c := { s.line l with again := none, lastPolled := some r.ident.address })
    (kind := .poll r.ident.address) h.1 hs (h.running hs).collisions rfl (fun _ => nofun) _

/-- A Running line between exchanges, whatever its census does. -/
theorem LineCtl.between_sound {c : LineCtl} (hr : c.Records) (hb : c.Between) (hc : c.collisions ≤ 7) (hcan : c.config.canRun = true) :
    c.Sound :=
  ⟨hr, .inr ⟨hb.state, hc, fun h => (nomatch hcan.symm.trans h), fun a ha => absurd ha (LineCtl.not_censusAt hb.exchange hb.again a),
    fun _ _ hx => nomatch hb.exchange.symm.trans hx⟩⟩

/-- The round ends, with a census poll where a census runs (R101, R113). -/
theorem endRound_keepsLines (l : Line) {s : State} (hb : (s.line l).Between) : KeepsLines s (s.endRound l) := by
  have hrecords (h : (s.line l).Sound) :
      LineCtl.Records { s.line l with round := ((s.line l).round + 1) % 16, lastPolled := none } :=
    ⟨h.1.config, h.1.idents, h.1.stations, Nat.le_of_lt_succ (Nat.mod_lt _ (by decide)), h.1.next, h.1.ascending, h.1.found⟩
  have hruns (h : (s.line l).Sound) := h.running hb.state
  unfold State.endRound
  dsimp only
  split
  · next hcensus =>
    split
    · next a ha =>
      obtain ⟨hlow, hhigh, -⟩ := LineCtl.censusNext_eq_some ha
      exact .withLine l fun h => LineCtl.begin_sound
        (c := { s.line l with round := ((s.line l).round + 1) % 16, lastPolled := none, again := none }) (hrecords h) hb.state
        (hruns h).collisions rfl (fun b hb => by cases hb; exact ⟨hcensus, hlow, hhigh⟩) _
    · refine KeepsLines.raise (.withLine l fun h => ?_) _
      exact LineCtl.between_sound (hrecords h) ⟨hb.state, hb.exchange, hb.again⟩ (hruns h).collisions ((hruns h).canRun hb.exchange)
  · refine .withLine l fun h => ?_
    exact LineCtl.between_sound (hrecords h) ⟨hb.state, hb.exchange, hb.again⟩ (hruns h).collisions ((hruns h).canRun hb.exchange)

theorem walk_keepsLines (l : Line) {s : State} (hb : (s.line l).Between) : KeepsLines s (s.walk l) := by
  unfold State.walk
  split
  · exact poll_keepsLines l _ hb.state
  · exact endRound_keepsLines l hb

/-- A repeat that can no longer be sent is dropped (R109, R110; log 13). -/
theorem walk_dropped_keepsLines (l : Line) {s : State} (hs : (s.line l).state = .running) (hx : (s.line l).exchange = none) :
    KeepsLines s ((s.withLine l { s.line l with again := none }).walk l) := by
  have hdrop : KeepsLines s (s.withLine l { s.line l with again := none }) := .withLine l fun h =>
    LineCtl.between_sound (c := { s.line l with again := none }) h.1 ⟨hs, hx, rfl⟩ (h.running hs).collisions ((h.running hs).canRun hx)
  refine hdrop.trans (walk_keepsLines l ?_)
  rw [withLine_line]
  exact ⟨hs, hx, rfl⟩

theorem repeatOrWalk_keepsLines (l : Line) {s : State} (hs : (s.line l).state = .running) (hx : (s.line l).exchange = none) :
    KeepsLines s (s.repeatOrWalk l) := by
  unfold State.repeatOrWalk
  split
  · split
    · exact poll_keepsLines l _ hs
    · exact walk_dropped_keepsLines l hs hx
  · next a hagain =>
    split
    · exact .withLine l fun h => LineCtl.begin_sound (c := { s.line l with again := none }) h.1 hs (h.running hs).collisions rfl
        (fun b hk => by cases hk; exact (h.running hs).census a (.inr hagain)) _
    · exact walk_dropped_keepsLines l hs hx
  · next hagain => exact walk_keepsLines l ⟨hs, hx, hagain⟩

/-- The controller's choice of its next exchange (R101). -/
theorem chooseExchange_keepsLines (l : Line) (s : State) : KeepsLines s (s.chooseExchange l) := by
  unfold State.chooseExchange
  split
  · exact .refl s
  · next hfree =>
    simp only [ne_eq, not_or, not_not] at hfree
    obtain ⟨hs, hx⟩ := hfree
    split
    · exact .withLine l fun h => LineCtl.sendAnnounce_sound h.1 (h.running hs) _
    · split
      · exact .refl s
      · exact repeatOrWalk_keepsLines l hs hx

end Sys2Proof.Machine

namespace Sys2Proof.Machine

/-! ### Ends of exchanges (R104 to R107, R113) -/

/-- The eighth collision in a row (R99, R104). -/
theorem collide_limit {l : Line} {x : Exchange} {s : State} (hx : (s.line l).exchange = some x) (hsent : x.sent = false)
    (hc : 7 ≤ (s.line l).collisions) : s.collide l
      = (s.withLine l { s.line l with collisions := (s.line l).collisions + 1 }.enterFault).raise .lineFault := by
  have hlimit : Config.collisionLimit ≤ (s.line l).collisions + 1 := Nat.succ_le_succ hc
  unfold State.collide
  rw [hx]
  simp only [hsent, Bool.false_eq_true, if_false, if_pos hlimit, State.faultLine, withLine_line, withLine_withLine]

/-- A collision below the limit (R104). -/
theorem collide_below {l : Line} {x : Exchange} {s : State} (hx : (s.line l).exchange = some x) (hsent : x.sent = false)
    (hc : (s.line l).collisions ≤ 6) : s.collide l = s.withLine l
      { s.line l with collisions := (s.line l).collisions + 1, again := x.again (s.line l).again }.endExchange := by
  have hbelow : ¬Config.collisionLimit ≤ (s.line l).collisions + 1 := Nat.not_le.2 (Nat.succ_lt_succ (Nat.lt_succ_of_le hc))
  unfold State.collide
  rw [hx]
  simp only [hsent, Bool.false_eq_true, if_false, if_neg hbelow]

/-- What is to be sent again after a collision is what the census may send (R104, R113). -/
theorem LineCtl.Running.again_counts {c : LineCtl} (h : c.Running) {x : Exchange} (hx : c.exchange = some x) {a : Nat}
    (ha : x.again c.again = some (.census a)) : c.Counts a := by
  unfold Exchange.again at ha
  split at ha
  · split at ha
    · exact h.census a (.inr ha)
    · cases ha
  · next hk =>
    cases ha
    exact h.census _ (.inl ⟨x, hx, hk⟩)
  · exact h.census a (.inr ha)

theorem collide_keepsLines (l : Line) (s : State) : KeepsLines s (s.collide l) := by
  cases hx : (s.line l).exchange with
  | none =>
    unfold State.collide
    rw [hx]
    exact .refl s
  | some x =>
    cases hsent : x.sent with
    | true =>
      unfold State.collide
      rw [hx]
      simp only [hsent, if_true]
      exact .refl s
    | false =>
      have hruns (h : (s.line l).Sound) : (s.line l).Running := h.running_of_exchange hx
      rcases Nat.lt_or_ge (s.line l).collisions 7 with hc | hc
      · rw [collide_below hx hsent (Nat.le_of_lt_succ hc)]
        refine .withLine l fun h => ?_
        exact LineCtl.ended_sound h.1 (hruns h).state hc fun a ha => (hruns h).again_counts hx ha
      · rw [collide_limit hx hsent hc]
        refine KeepsLines.raise (.withLine l fun h => ?_) _
        exact LineCtl.enterFault_sound h.1 (Nat.succ_le_succ (hruns h).collisions)

/-- The reply window of an exchange ends: it is judged, and it is over (R97, R105). -/
theorem endReply_sent {l : Line} {x : Exchange} {s : State} (hx : (s.line l).exchange = some x) (hsent : x.sent = true)
    (chars : Option (List RxChar)) :
    s.endReply l chars = (s.judge l x chars).withLine l ((s.judge l x chars).line l).endExchange := by
  unfold State.endReply
  rw [hx]
  simp only [hsent, Bool.true_eq_false, if_false]

/-- A census reply judged (R113). -/
theorem censusJudged_eq (l : Line) (a : Nat) (entry : Option StationIdent) (s : State) : s.censusJudged l a entry =
    { s.withLine l { s.line l with
        censusList := (s.line l).censusList ++ entry.toList, censusAddr := a + 1
        census := if a = 62 then .done else (s.line l).census } with
      port := if a = 62 then s.port.raise .censusDone else s.port } := by
  unfold State.censusJudged
  by_cases ha : a = 62
  · simp only [if_pos ha]
    cases l <;> rfl
  · simp only [if_neg ha]
    cases l <;> rfl

/-- The reply window of a census poll ends (R97, R105, R113). -/
theorem endReply_census {l : Line} {x : Exchange} {a : Nat} {s : State} (hx : (s.line l).exchange = some x) (hsent : x.sent = true)
    (hk : x.kind = .census a) (chars : Option (List RxChar)) : s.endReply l chars = { s.withLine l ({ s.line l with
        censusList := (s.line l).censusList ++ (chars.bind (judgeCensus a)).toList, censusAddr := a + 1
        census := if a = 62 then .done else (s.line l).census } : LineCtl).endExchange with
      port := if a = 62 then s.port.raise .censusDone else s.port } := by
  have hjudge : s.judge l x chars = s.censusJudged l a (chars.bind (judgeCensus a)) := by
    unfold State.judge
    rw [hk]
  rw [endReply_sent hx hsent, hjudge, censusJudged_eq]
  cases l <;> rfl

/-- A valid census reply gives an entry for the address polled (R105, R113). -/
theorem judgeCensus_ident {a : Nat} {chars : List RxChar} {i : StationIdent} (h : judgeCensus a chars = some i) :
    i.address = a ∧ 1 ≤ i.buttons ∧ i.buttons ≤ 10 := by
  unfold judgeCensus at h
  split at h
  · dsimp only at h
    split at h
    · next hvalid =>
      obtain ⟨-, -, hbuttons⟩ := hvalid
      cases h
      exact ⟨rfl, (within_iff 1 10 _).1 hbuttons⟩
    · cases h
  · cases h

/-- The census list after a census poll: an entry is the first for its address, which is below the next (R113). -/
theorem LineCtl.Records.count {c : LineCtl} (h : c.Records) {a : Nat} (ha : c.censusAddr ≤ a ∧ a ≤ 62) (st : CensusState)
    {entry : Option StationIdent} (hentry : ∀ i, entry = some i → i.address = a ∧ 1 ≤ i.buttons ∧ i.buttons ≤ 10) :
    LineCtl.Records { c with censusList := c.censusList ++ entry.toList, censusAddr := a + 1, census := st } := by
  have hbelow : ∀ x ∈ c.censusList, 1 ≤ x.address ∧ x.address < a ∧ 1 ≤ x.buttons ∧ x.buttons ≤ 10 := fun x hx => by
    obtain ⟨h1, h2, hb⟩ := h.found x hx
    exact ⟨h1, h2.trans_le ha.1, hb⟩
  refine ⟨h.config, h.idents, h.stations, h.round, ⟨Nat.le_add_left 1 a, Nat.succ_le_succ ha.2⟩,
    List.pairwise_append.2 ⟨h.ascending, ?_, fun x hx y hy => ?_⟩, fun x hx => ?_⟩
  · cases entry with
    | none => exact .nil
    | some i => exact List.pairwise_singleton _ _
  · obtain ⟨hy, -⟩ := hentry y (Option.mem_toList.1 hy)
    exact hy ▸ (hbelow x hx).2.1
  · rcases List.mem_append.1 hx with hx | hx
    · obtain ⟨h1, h2, hb⟩ := hbelow x hx
      exact ⟨h1, h2.trans (Nat.lt_succ_self a), hb⟩
    · obtain ⟨hx, hb⟩ := hentry x (Option.mem_toList.1 hx)
      exact ⟨hx ▸ h.next.1.trans ha.1, hx ▸ Nat.lt_succ_self a, hb⟩

theorem raiseIf_keepsLines (cond : Bool) (f : Flag) (s : State) : KeepsLines s (s.raiseIf cond f) := by
  unfold State.raiseIf
  split <;> exact .same rfl rfl

theorem validReply_keepsLines (l : Line) (r : Station) (reply : StationReply) (s : State) : KeepsLines s (s.validReply l r reply) := by
  have hback := (onStation_keepsLines l r.ident.address (f := Station.answered reply) (fun _ => rfl)
    (fun _ => Station.answered_legal reply) s).trans (raiseIf_keepsLines (decide (r.state = .silent)) .stationBack _)
  unfold State.validReply
  dsimp only
  split
  · exact hback.trans ((raiseIf_keepsLines _ _ _).trans (deliver_keepsLines l _ _ _))
  · exact hback

theorem miss_keepsLines (l : Line) (r : Station) (s : State) : KeepsLines s (s.miss l r) := by
  have hmissed := onStation_keepsLines l r.ident.address Station.missed_ident (fun _ => Station.missed_legal) s
  unfold State.miss
  dsimp only
  split
  · exact hmissed.trans (.same rfl rfl)
  · exact hmissed

/-- The end of a reply window (R105 to R107, R113). -/
theorem endReply_keepsLines (l : Line) (chars : Option (List RxChar)) (s : State) : KeepsLines s (s.endReply l chars) := by
  have hover {t : State} (h : KeepsLines s t) : KeepsLines s (t.withLine l (t.line l).endExchange) :=
    h.trans (.withLine l LineCtl.endExchange_sound)
  cases hx : (s.line l).exchange with
  | none =>
    unfold State.endReply
    rw [hx]
    exact .refl s
  | some x =>
    cases hsent : x.sent with
    | false =>
      unfold State.endReply
      rw [hx]
      simp only [hsent, if_true]
      exact .refl s
    | true =>
      cases hk : x.kind with
      | poll a =>
        rw [endReply_sent hx hsent]
        refine hover ?_
        unfold State.judge
        rw [hk]
        dsimp only
        split
        · split
          · exact validReply_keepsLines l _ _ s
          · exact miss_keepsLines l _ s
        · exact .refl s
      | announce m =>
        rw [endReply_sent hx hsent]
        refine hover ?_
        unfold State.judge
        rw [hk]
        exact .refl s
      | census a =>
        rw [endReply_census hx hsent hk]
        refine .trans (.withLine l fun h => ?_) (.same rfl rfl)
        have hrun : (s.line l).Running := h.running_of_exchange hx
        obtain ⟨-, hlow, hhigh⟩ := hrun.census a (.inl ⟨x, hx, hk⟩)
        refine LineCtl.ended_sound (h.1.count ⟨hlow, hhigh⟩ _ fun i hi => ?_) hrun.state hrun.collisions fun b hb => ?_
        · obtain ⟨w, -, hw⟩ := Option.bind_eq_some_iff.1 hi
          exact judgeCensus_ident hw
        · exact nomatch (hrun.sole x a hx hk).symm.trans hb

end Sys2Proof.Machine

namespace Sys2Proof.Machine

/-! ### Contact, safety and cue inputs: only their events reach the lines -/

theorem withContact_keepsLines (n : Nat) (x : ContactInput) (s : State) : KeepsLines s (s.withContact n x) := by
  unfold State.withContact
  split <;> exact .same rfl rfl

/-- A change of a contact input that brings an event. -/
theorem withContact_resolve_keepsLines (n : Nat) (x : ContactInput) (k : SourceKey) (e : EventKind) (s : State) :
    KeepsLines s ((s.withContact n x).resolve k e) := (withContact_keepsLines n x s).trans (resolve_keepsLines k e _)

theorem contactClosed_keepsLines (n : Nat) (x : ContactInput) (s : State) : KeepsLines s (s.contactClosed n x) := by
  unfold State.contactClosed
  split
  · exact withContact_resolve_keepsLines n _ _ _ s
  · exact withContact_keepsLines n x s

theorem contactOpened_keepsLines (n : Nat) (x : ContactInput) (s : State) : KeepsLines s (s.contactOpened n x) := by
  unfold State.contactOpened
  dsimp only
  split
  · exact withContact_resolve_keepsLines n _ _ _ s
  · exact withContact_keepsLines n _ s

theorem contactHeld_keepsLines (n : Nat) (x : ContactInput) (s : State) : KeepsLines s (s.contactHeld n x) :=
  withContact_resolve_keepsLines n _ _ _ s

theorem contactStuck_keepsLines (n : Nat) (x : ContactInput) (s : State) : KeepsLines s (s.contactStuck n x) :=
  (withContact_keepsLines n _ s).trans (.same rfl rfl)

theorem contactCounted_keepsLines (n : Nat) (x : ContactInput) (s : State) : KeepsLines s (s.contactCounted n x) := by
  unfold State.contactCounted
  dsimp only
  split
  · split
    · exact contactHeld_keepsLines n _ s
    · split
      · exact contactStuck_keepsLines n _ s
      · exact withContact_keepsLines n _ s
  · exact withContact_keepsLines n x s

theorem contactTurned_keepsLines (n : Nat) (x : ContactInput) (s : State) : KeepsLines s (s.contactTurned n x) := by
  unfold State.contactTurned
  split <;> exact withContact_resolve_keepsLines n _ _ _ s

theorem sampleContact_keepsLines (n : Nat) (level : Bool) (s : State) : KeepsLines s (s.sampleContact n level) := by
  unfold State.sampleContact
  split
  · exact .refl s
  · dsimp only
    split
    · exact withContact_keepsLines n _ s
    · split
      · exact contactTurned_keepsLines n _ s
      · exact withContact_keepsLines n _ s
    · split
      · split
        · exact contactClosed_keepsLines n _ s
        · exact contactOpened_keepsLines n _ s
      · exact contactCounted_keepsLines n _ s

theorem onContact_keepsLines (n : Nat) (occasion : ContactInput → Bool) {f : ContactInput → State → State}
    (hf : ∀ x s, KeepsLines s (f x s)) (s : State) : KeepsLines s (s.onContact n occasion f) := by
  unfold State.onContact
  split
  · exact .refl s
  · split
    · exact hf _ s
    · exact .refl s

theorem assertInput_keepsLines (i : SafeInput) (s : State) : KeepsLines s (s.assertInput i) := by cases i <;> exact .same rfl rfl

theorem deassertInput_keepsLines (i : SafeInput) (s : State) : KeepsLines s (s.deassertInput i) := by cases i <;> exact .same rfl rfl

theorem sampleSafe_keepsLines (i : SafeInput) (level : Bool) (s : State) : KeepsLines s (s.sampleSafe i level) := by
  unfold State.sampleSafe
  split
  · split
    · exact assertInput_keepsLines i s
    · exact deassertInput_keepsLines i s
  · cases i <;> exact .same rfl rfl

theorem withStage_keepsLines (i : StageId) (x : Stage) (s : State) : KeepsLines s (s.withStage i x) := by cases i <;> exact .same rfl rfl

theorem transferOne_keepsLines (i : StageId) (s : State) : KeepsLines s (s.transferOne i) := by cases i <;> exact .same rfl rfl

theorem transfer_keepsLines (i : StageId) (s : State) : KeepsLines s (s.transfer i) := by
  unfold State.transfer
  dsimp only
  split
  · exact (transferOne_keepsLines i s).trans (transferOne_keepsLines _ _)
  · exact transferOne_keepsLines i s

theorem cueArrives_keepsLines (c : CueLine) (s : State) : KeepsLines s (s.cueArrives c) := by
  have hone (b : Bool) : KeepsLines s (if b then s.transfer .one else s) := by
    split
    · exact transfer_keepsLines .one s
    · exact .refl s
  unfold State.cueArrives
  dsimp only
  split
  · split
    · exact (hone _).trans (transfer_keepsLines .two _)
    · exact hone _
  · cases c <;> exact .same rfl rfl

theorem withCue_keepsLines (c : CueLine) (x : CueInput) (s : State) : KeepsLines s (s.withCue c x) := by cases c <;> exact .same rfl rfl

theorem sampleCue_keepsLines (c : CueLine) (level : Bool) (s : State) : KeepsLines s (s.sampleCue c level) := by
  unfold State.sampleCue
  dsimp only
  split
  · exact (withCue_keepsLines c _ s).trans (cueArrives_keepsLines c _)
  · exact withCue_keepsLines c _ s

theorem sampleInput_keepsLines (pins : BitVec 28) (s : State) (n : Nat) : KeepsLines s (State.sampleInput pins s n) := by
  unfold State.sampleInput
  dsimp only
  split
  · exact sampleSafe_keepsLines .safe1 _ s
  · split
    · exact sampleSafe_keepsLines .safe2 _ s
    · split
      · exact sampleCue_keepsLines .cue1 _ s
      · split
        · exact sampleCue_keepsLines .cue2 _ s
        · exact sampleContact_keepsLines n _ s

theorem settleSample_keepsLines (pins : BitVec 28) (s : State) : KeepsLines s (s.settleSample pins) := by
  refine .same ?_ ?_ <;> (unfold State.settleSample; split <;> simp)

/-- A sample of the pins (R116, R122). -/
theorem contactSample_keepsLines (pins : BitVec 28) (order : List Nat) (s : State) : KeepsLines s (s.contactSample pins order) := by
  unfold State.contactSample
  split
  · exact settleSample_keepsLines pins s
  · exact .foldl (sampleInput_keepsLines pins) _ s
  · exact .refl s
  · exact .refl s

/-! ### Transactions (R146, R150) -/

theorem shift_keepsLines (bits : List Bool) (rises : Bool) (s : State) : KeepsLines s (s.shift bits rises) := by
  have hlow : KeepsLines s (s.shift bits false) := by rw [shift_low_touches]; exact .same rfl rfl
  cases rises with
  | false => exact hlow
  | true =>
    refine hlow.trans ?_
    show KeepsLines _ (s.shift bits false).riseSel
    unfold State.riseSel State.endTransaction
    split
    · exact .refl _
    · refine .trans ?_ (.same rfl rfl)
      split
      · exact .refl _
      · split
        · rw [takeFrame_touches]; exact .same rfl rfl
        · split <;> exact .same rfl rfl

theorem fetch_keepsLines (bits : Nat) (rises : Bool) (s : State) : KeepsLines s (s.fetch bits rises) := by
  unfold State.fetch
  dsimp only
  split
  · exact shift_keepsLines _ _ s
  · split
    · exact shift_keepsLines _ _ s
    · exact .refl s
    · split
      · exact shift_keepsLines _ _ s
      · exact .refl s

/-! ### Requests on the lines (R97, R109, R110, R112) -/

theorem setLineConfig_keepsLines (line : Nat) (f : LineFields) (s : State) : KeepsLines s (s.setLineConfig line f).state := by
  unfold State.setLineConfig
  split
  · exact .refl s
  · next l _ =>
    split
    · next hf => exact .withLine l fun h => LineCtl.follow_sound h (h.1.config.withFields hf)
    · exact .refl s

theorem enrolStation_keepsLines (line a buttons indicators : Nat) (s : State) :
    KeepsLines s (s.enrolStation line a buttons indicators).state := by
  unfold State.enrolStation
  split
  · next l has _ _ =>
    refine .orRefused fun hrange => .orRefused fun hnone => .orRefused fun hroom => .withLine l fun h => ?_
    simp only [Bool.not_eq_true', Bool.not_eq_false, Bool.and_eq_true, within_iff] at hrange
    simp only [Option.not_isSome_iff_eq_none] at hnone
    exact LineCtl.enrol_sound h (i := ⟨a, buttons, has⟩) hrange.1 hrange.2 hnone (not_le.1 hroom)
  · exact .refl s

theorem unenrolStation_keepsLines (line a : Nat) (s : State) : KeepsLines s (s.unenrolStation line a).state := by
  unfold State.unenrolStation
  split
  · exact .refl s
  · next l _ =>
    refine .orRefused fun _ => .orRefused fun _ => ?_
    exact KeepsLines.trans (t := s.endMovement (pickStation l a)) (.same rfl rfl) (.withLine l (LineCtl.unenrol_sound a))

/-- A census begins on a line where none runs, so that no census poll is left of an earlier one (R112, R113). -/
theorem LineCtl.startCensus_sound {c : LineCtl} (h : c.Sound) (hs : c.state = .running) (hfree : c.census ≠ .running) :
    c.startCensus.Sound := by
  have hrun := h.running hs
  exact ⟨⟨h.1.config, h.1.idents, h.1.stations, h.1.round, ⟨le_rfl, show 1 ≤ 63 by decide⟩, .nil, nofun⟩,
    .inr ⟨hs, hrun.collisions, hrun.flying, fun a ha => absurd (hrun.census a ha).1 hfree, hrun.sole⟩⟩

theorem censusStart_keepsLines (line : Nat) (s : State) : KeepsLines s (s.censusStart line).state := by
  unfold State.censusStart
  split
  · exact .refl s
  · next l _ =>
    exact .orRefused fun hs => .orRefused fun hfree => .withLine l fun h => LineCtl.startCensus_sound h (not_not.1 hs) hfree

/-! ### Arrivals on the lines (R99, R101) -/

theorem breakLine_keepsLines (l : Line) (s : State) : KeepsLines s (s.breakLine l) := by
  unfold State.breakLine
  split
  · exact KeepsLines.raise (.withLine l fun h => LineCtl.enterFault_sound h.1 h.collisions) _
  · exact .refl s

theorem recoverLine_keepsLines (l : Line) (s : State) : KeepsLines s (s.recoverLine l) := by
  unfold State.recoverLine
  split
  · next hs => exact .withLine l fun h => LineCtl.recover_sound h hs
  · exact .refl s

theorem endWait_keepsLines (l : Line) (s : State) : KeepsLines s (s.endWait l) := by
  unfold State.endWait
  split
  · exact .withLine l fun h => ⟨h.1, h.2.imp
      (fun hrest => ⟨hrest.state, hrest.fault, hrest.collisions, hrest.exchange, hrest.announce, hrest.again, rfl⟩)
      fun hrun => ⟨hrun.state, hrun.collisions, hrun.flying, hrun.census, hrun.sole⟩⟩
  · exact .refl s

/-! ### Requests that do not reach the lines, and those whose events do -/

theorem clearAttention_keepsLines (flags : Nat) (s : State) : KeepsLines s (s.clearAttention flags).state := by
  unfold State.clearAttention
  split <;> exact .same rfl rfl

theorem setAttentionMask_keepsLines (mask : Nat) (s : State) : KeepsLines s (s.setAttentionMask mask).state := by
  unfold State.setAttentionMask
  split <;> exact .same rfl rfl

theorem setCircuitConfig_keepsLines (first last : Nat) (f : CircuitFields) (s : State) :
    KeepsLines s (s.setCircuitConfig first last f).state :=
  .orRefused fun _ => .orRefused fun _ => .orRefused fun _ => .same rfl rfl

theorem claimLevel_keepsLines (n code v fade : Nat) (s : State) : KeepsLines s (s.claimLevel n code v fade).state := by
  unfold State.claimLevel
  repeat' split
  all_goals exact .same rfl rfl

theorem releaseLayer_keepsLines (n code fade : Nat) (s : State) : KeepsLines s (s.releaseLayer n code fade).state := by
  unfold State.releaseLayer
  repeat' split
  all_goals exact .same rfl rfl

theorem addBinding_keepsLines (r : RawBinding) (s : State) : KeepsLines s (s.addBinding r).state := by
  unfold State.addBinding
  repeat' split
  all_goals exact .same rfl rfl

theorem replaceBinding_keepsLines (n : Nat) (r : RawBinding) (s : State) : KeepsLines s (s.replaceBinding n r).state := by
  unfold State.replaceBinding
  repeat' split
  all_goals exact .same rfl rfl

theorem RetireFrame.keepsLines {s t : State} (h : RetireFrame s t) : KeepsLines s t := by rw [h]; exact .same rfl rfl

theorem retireBinding_keepsLines (n : Nat) (s : State) : KeepsLines s (s.retireBinding n).state :=
  .orRefused fun _ => .orRefused fun _ => (retire_frame n s).keepsLines

theorem retireSource_keepsLines (k : RawKey) (s : State) : KeepsLines s (s.retireSource k).state := by
  unfold State.retireSource
  split
  · exact .refl s
  · exact (retireAll_frame _ s).keepsLines

theorem disable_keepsLines (n : Nat) (s : State) : KeepsLines s (s.disable n).state := by
  refine .orRefused fun _ => ?_
  split <;> exact .same rfl rfl

theorem enable_keepsLines (n : Nat) (s : State) : KeepsLines s (s.enable n).state := by
  refine .orRefused fun _ => ?_
  split <;> exact .same rfl rfl

theorem injectEvent_keepsLines (k : RawKey) (kind : Nat) (s : State) : KeepsLines s (s.injectEvent k kind).state := by
  unfold State.injectEvent
  split
  · split
    · exact resolve_keepsLines _ _ s
    · exact .refl s
  · exact .refl s

theorem writeGroup_keepsLines (g : Nat) (ranges : List (Nat × Nat)) (s : State) : KeepsLines s (s.writeGroup g ranges).state :=
  .orRefused fun _ => .orRefused fun _ => .orRefused fun _ => .orRefused fun _ => .same rfl rfl

theorem deleteGroup_keepsLines (g : Nat) (s : State) : KeepsLines s (s.deleteGroup g).state :=
  .orRefused fun _ => .orRefused fun _ => .same rfl rfl

theorem placeScene_keepsLines (n : Nat) (sc : Scene) (s : State) : KeepsLines s (s.placeScene n sc).state :=
  .orRefused fun _ => .same rfl rfl

theorem writeScene_keepsLines (n : Nat) (fade : Option Nat) (entries : List (Nat × Nat)) (s : State) :
    KeepsLines s (s.writeScene n fade entries).state :=
  .orRefused fun _ => .orRefused fun _ => .orRefused fun _ => .orRefused fun _ => placeScene_keepsLines n _ s

theorem extendScene_keepsLines (n : Nat) (entries : List (Nat × Nat)) (s : State) : KeepsLines s (s.extendScene n entries).state := by
  refine .orRefused fun _ => .orRefused fun _ => .orRefused fun _ => ?_
  split
  · exact .refl s
  · exact placeScene_keepsLines n _ s

theorem captureScene_keepsLines (n : Nat) (fade : Option Nat) (ranges : List (Nat × Nat)) (s : State) :
    KeepsLines s (s.captureScene n fade ranges).state :=
  .orRefused fun _ => .orRefused fun _ => .orRefused fun _ => .orRefused fun _ => placeScene_keepsLines n _ s

theorem deleteScene_keepsLines (n : Nat) (s : State) : KeepsLines s (s.deleteScene n).state :=
  .orRefused fun _ => .orRefused fun _ => .same rfl rfl

theorem setMode_keepsLines (m : Nat) (fade : Option Nat) (s : State) : KeepsLines s (s.setMode m fade).state := by
  unfold State.setMode
  split
  · exact .refl s
  · split
    · exact changeMode_keepsLines _ _ s
    · exact .refl s

theorem setInputConfig_keepsLines (n : Nat) (f : InputFields) (s : State) : KeepsLines s (s.setInputConfig n f).state := by
  unfold State.setInputConfig
  split
  · refine .orRefused fun _ => ?_
    split
    · exact withCue_keepsLines _ _ s
    · exact .refl s
  · split
    · exact .refl s
    · refine .orRefused fun _ => ?_
      split
      · exact withContact_keepsLines n _ s
      · exact .refl s

theorem stageEntry_keepsLines (stage circuit : Nat) (e : StageForm) (s : State) : KeepsLines s (s.stageEntry stage circuit e).state := by
  unfold State.stageEntry
  split
  · exact .refl s
  · exact .orRefused fun _ => .orRefused fun _ => withStage_keepsLines _ _ s

theorem stageClear_keepsLines (stage : Nat) (s : State) : KeepsLines s (s.stageClear stage).state := by
  unfold State.stageClear
  split
  · exact .refl s
  · exact .orRefused fun _ => withStage_keepsLines _ _ s

theorem setStageTrigger_keepsLines (stage trigger : Nat) (s : State) : KeepsLines s (s.setStageTrigger stage trigger).state := by
  unfold State.setStageTrigger
  split
  · exact .orRefused fun _ => withStage_keepsLines _ _ s
  · exact .refl s

theorem standby_keepsLines (stage : Nat) (s : State) : KeepsLines s (s.standby stage).state := by
  unfold State.standby
  split
  · exact .refl s
  · exact .orRefused fun _ => withStage_keepsLines _ _ s

theorem unstandby_keepsLines (stage : Nat) (s : State) : KeepsLines s (s.unstandby stage).state := by
  unfold State.unstandby
  split
  · exact .refl s
  · split
    · exact withStage_keepsLines _ _ s
    · exact .refl s

theorem go_keepsLines (stage : Nat) (s : State) : KeepsLines s (s.go stage).state := by
  unfold State.go
  split
  · exact .refl s
  · split
    · exact transfer_keepsLines _ s
    · exact .refl s

/-! ### Every command -/

/-- An arrival that only a running part takes. -/
theorem arrival_keepsLines {f : State → State} (hf : ∀ s, KeepsLines s (f s)) (s : State) : KeepsLines s (s.whenRunning f) := by
  unfold State.whenRunning
  split
  · exact hf s
  · exact .refl s

/-- A request, by its owner. -/
theorem request_keepsLines {i : Instr} {owner : State → Carried} (howner : ∀ s, KeepsLines s (owner s).state) (s : State) :
    KeepsLines s (s.complete i owner) :=
  complete_keeps (P := fun t => KeepsLines s t) (fun _ _ ht => ht.trans (.same rfl rfl)) (fun t ht => ht.trans (howner t)) (.refl s)

/-- A write of a stored table, by its owner. -/
theorem write_keepsLines {i : Instr} {owner : State → Carried} (howner : ∀ s, KeepsLines s (owner s).state) (s : State) :
    KeepsLines s (s.complete i (State.storedWrite owner)) := request_keepsLines (fun u => .orRefused fun _ => howner u) s

/-- A request that reads. -/
theorem read_keepsLines {i : Instr} {owner : State → Carried} (howner : ∀ s, (owner s).state = s) (s : State) :
    KeepsLines s (s.complete i owner) := request_keepsLines (fun u => by rw [howner]; exact .refl u) s

/-- Every command but those of `writesSetup` keeps the laws of each line. -/
theorem exec_keepsLines {i : Instr} {s t : State} (he : exec i s = .next t) (hi : writesSetup i = false) : KeepsLines s t := by
  cases i <;> cases he
  case powerOn | resetPinLow | resetPinRelease | inputSettlingEnd | supplyLost | restart => cases hi
  case setModeOptions | setLinkConfig | frameStart | frameEnd => cases hi
  case save | eraseStore | saveOperationEnd | eraseOperationEnd => cases hi
  case requestTransaction piece =>
    split
    · exact shift_keepsLines _ _ s
    · exact .refl s
  case fetch piece =>
    split
    · exact fetch_keepsLines _ _ s
    · exact .refl s
  case contactSample pins order => exact contactSample_keepsLines pins order s
  case readIdentity | readAttention | readMode | readRackLink | readStoreState => exact read_keepsLines (fun _ => rfl) s
  case readCircuitConfig first count => exact read_keepsLines (readCircuitConfig_state first count) s
  case readCircuitState first count => exact read_keepsLines (readCircuitState_state first count) s
  case readBinding n => exact read_keepsLines (readBinding_state n) s
  case findBindings k kind => exact read_keepsLines (findBindings_state k kind) s
  case readGroup g first count => exact read_keepsLines (readGroup_state g first count) s
  case readScene n first count => exact read_keepsLines (readScene_state n first count) s
  case readStation line a => exact read_keepsLines (readStation_state line a) s
  case readLine line => exact read_keepsLines (readLine_state line) s
  case censusRead line => exact read_keepsLines (censusRead_state line) s
  case readInput n => exact read_keepsLines (readInput_state n) s
  case readStage stage first count => exact read_keepsLines (readStage_state stage first count) s
  case clearAttention flags => exact request_keepsLines (clearAttention_keepsLines flags) s
  case claimLevel n code v fade => exact request_keepsLines (claimLevel_keepsLines n code v fade) s
  case releaseLayer n code fade => exact request_keepsLines (releaseLayer_keepsLines n code fade) s
  case injectEvent k kind => exact request_keepsLines (injectEvent_keepsLines k kind) s
  case setMode m fade => exact request_keepsLines (setMode_keepsLines m fade) s
  case censusStart line => exact request_keepsLines (censusStart_keepsLines line) s
  case setAttentionMask mask => exact write_keepsLines (setAttentionMask_keepsLines mask) s
  case setCircuitConfig first last f => exact write_keepsLines (setCircuitConfig_keepsLines first last f) s
  case setLineConfig line f => exact write_keepsLines (setLineConfig_keepsLines line f) s
  case enrolStation line a buttons indicators => exact write_keepsLines (enrolStation_keepsLines line a buttons indicators) s
  case unenrolStation line a => exact write_keepsLines (unenrolStation_keepsLines line a) s
  case setInputConfig n f => exact write_keepsLines (setInputConfig_keepsLines n f) s
  case addBinding r => exact write_keepsLines (addBinding_keepsLines r) s
  case replaceBinding n r => exact write_keepsLines (replaceBinding_keepsLines n r) s
  case retireBinding n => exact write_keepsLines (retireBinding_keepsLines n) s
  case retireSource k => exact write_keepsLines (retireSource_keepsLines k) s
  case disable n => exact write_keepsLines (disable_keepsLines n) s
  case enable n => exact write_keepsLines (enable_keepsLines n) s
  case writeGroup g ranges => exact write_keepsLines (writeGroup_keepsLines g ranges) s
  case deleteGroup g => exact write_keepsLines (deleteGroup_keepsLines g) s
  case writeScene n fade entries => exact write_keepsLines (writeScene_keepsLines n fade entries) s
  case extendScene n entries => exact write_keepsLines (extendScene_keepsLines n entries) s
  case captureScene n fade ranges => exact write_keepsLines (captureScene_keepsLines n fade ranges) s
  case deleteScene n => exact write_keepsLines (deleteScene_keepsLines n) s
  case stageEntry stage circuit e => exact request_keepsLines (stageEntry_keepsLines stage circuit e) s
  case stageClear stage => exact request_keepsLines (stageClear_keepsLines stage) s
  case setStageTrigger stage trigger => exact request_keepsLines (setStageTrigger_keepsLines stage trigger) s
  case standby stage => exact request_keepsLines (standby_keepsLines stage) s
  case unstandby stage => exact request_keepsLines (unstandby_keepsLines stage) s
  case go stage => exact request_keepsLines (go_keepsLines stage) s
  case fadeTick => exact arrival_keepsLines (f := State.mapCircuits Circuit.tick) (fun _ => .same rfl rfl) s
  case fadeComplete n l => exact arrival_keepsLines (f := State.onCircuit n (Circuit.finish l)) (fun _ => .same rfl rfl) s
  case handoverEnd n => exact arrival_keepsLines (f := State.onCircuit n Circuit.endHandover) (fun _ => .same rfl rfl) s
  case nextExchange l => exact arrival_keepsLines (chooseExchange_keepsLines l) s
  case exchangeSent l => exact arrival_keepsLines (fun _ => .withLine l LineCtl.allSent_sound) s
  case collision l => exact arrival_keepsLines (collide_keepsLines l) s
  case reply l chars => exact arrival_keepsLines (endReply_keepsLines l (some chars)) s
  case replyWindowEnd l => exact arrival_keepsLines (endReply_keepsLines l none) s
  case lineBreak l => exact arrival_keepsLines (breakLine_keepsLines l) s
  case faultRecovery l => exact arrival_keepsLines (recoverLine_keepsLines l) s
  case roundWaitEnd l => exact arrival_keepsLines (endWait_keepsLines l) s
  case acceptedClose n => exact arrival_keepsLines (onContact_keepsLines n _ fun _ u => contactClosed_keepsLines n _ u) s
  case holdTimeReached n => exact arrival_keepsLines (onContact_keepsLines n _ fun _ u => contactHeld_keepsLines n _ u) s
  case stuckTimeReached n => exact arrival_keepsLines (onContact_keepsLines n _ fun _ u => contactStuck_keepsLines n _ u) s
  case acceptedOpen n => exact arrival_keepsLines (onContact_keepsLines n _ fun _ u => contactOpened_keepsLines n _ u) s
  case maintainedChange n closed => exact arrival_keepsLines (onContact_keepsLines n _ fun _ u => contactTurned_keepsLines n _ u) s
  case safeAssert i =>
    refine arrival_keepsLines (fun u => ?_) s
    split
    · exact .refl u
    · exact assertInput_keepsLines i u
  case safeDeassert i =>
    refine arrival_keepsLines (fun u => ?_) s
    split
    · exact deassertInput_keepsLines i u
    · exact .refl u
  case cueEvent c => exact arrival_keepsLines (fun u => (withCue_keepsLines c _ u).trans (cueArrives_keepsLines c _)) s

end Sys2Proof.Machine

namespace Sys2Proof.Machine

/-! ## The laws of both lines and of what the images store of them (R96, R100, R156) -/

/-- What the laws say of the tables of one line (R96, R100). -/
def StoredLine.Legal (t : StoredLine) : Prop := t.config.Legal ∧ LegalIdents t.stations

def Stored.LegalLines (t : Stored) : Prop := t.lineA.Legal ∧ t.lineB.Legal

/-- The laws of both lines, their censuses included, and of the tables that the images store of them. -/
structure State.LinesLawful (s : State) : Prop where
  lines : ∀ l, (s.line l).Sound
  kept : s.store.All Stored.LegalLines

theorem Stored.legalLines_iff (t : Stored) : t.LegalLines
    ↔ t.lineA.config.Legal ∧ LegalIdents t.lineA.stations ∧ t.lineB.config.Legal ∧ LegalIdents t.lineB.stations := and_assoc

theorem linesLawful_iff (s : State) : s.LinesLawful ↔ s.LinesSound ∧ s.CensusSound := by
  have hkept : s.store.All Stored.LegalLines ↔ s.store.All fun t =>
      t.lineA.config.Legal ∧ LegalIdents t.lineA.stations ∧ t.lineB.config.Legal ∧ LegalIdents t.lineB.stations := by
    simp only [Store.All, Stored.legalLines_iff]
  constructor
  · rintro ⟨hlines, himages⟩
    obtain ⟨hlegalA, hcensusA⟩ := (LineCtl.sound_iff _).1 (hlines .a)
    obtain ⟨hlegalB, hcensusB⟩ := (LineCtl.sound_iff _).1 (hlines .b)
    exact ⟨⟨hlegalA, hlegalB, hkept.1 himages⟩, hcensusA, hcensusB⟩
  · rintro ⟨⟨hlegalA, hlegalB, himages⟩, hcensusA, hcensusB⟩
    exact ⟨fun
      | .a => (LineCtl.sound_iff _).2 ⟨hlegalA, hcensusA⟩
      | .b => (LineCtl.sound_iff _).2 ⟨hlegalB, hcensusB⟩, hkept.2 himages⟩

/-- A change of the lines by their laws, and of the store by what it keeps. -/
theorem State.LinesLawful.of_keeps {s t : State} (h : s.LinesLawful) (hl : KeepsLines s t) (hkept : t.store.All Stored.LegalLines) :
    t.LinesLawful := ⟨fun l => hl l (h.lines l), hkept⟩

/-- A change that leaves the lines and the store. -/
theorem State.LinesLawful.same {s t : State} (h : s.LinesLawful) (hA : t.lineA = s.lineA) (hB : t.lineB = s.lineB)
    (hstore : t.store = s.store) : t.LinesLawful := h.of_keeps (.same hA hB) (hstore ▸ h.kept)

theorem State.LinesLawful.withPort {s : State} (h : s.LinesLawful) (p : Port) : (s.withPort p).LinesLawful := h.same rfl rfl rfl

/-! ### The tables of a line, stored and loaded -/

theorem LineCtl.Sound.stored {c : LineCtl} (h : c.Sound) : c.stored.Legal := ⟨h.1.config, h.1.idents⟩

/-- What SAVE copies is within the laws (R157). -/
theorem State.LinesLawful.live {s : State} (h : s.LinesLawful) : s.stored.LegalLines := ⟨(h.lines .a).stored, (h.lines .b).stored⟩

theorem Stored.legalLines_blank : Stored.blank.LegalLines := by
  have hblank : StoredLine.Legal ⟨LineConfig.blank, []⟩ := ⟨⟨.inr (.inr (.inl rfl)), by decide, by decide⟩, by decide, .nil, nofun⟩
  exact ⟨hblank, hblank⟩

/-- A line loaded from legal tables is Off with fresh stations and an idle census (R98, R100, R112). -/
theorem LineCtl.load_sound {t : StoredLine} (h : t.Legal) : (LineCtl.load t).Sound := by
  refine ⟨⟨h.1, ?_, List.forall_mem_map.2 fun i _ => Station.fresh_legal i, Nat.zero_le _, ⟨le_rfl, show 1 ≤ 63 by decide⟩, .nil, nofun⟩,
    .inl ⟨nofun, nofun, Nat.zero_le _, rfl, rfl, rfl, rfl⟩⟩
  rw [LineCtl.load, List.map_map]
  exact (List.map_id t.stations).symm ▸ h.2

/-! ### The store, supply, reset and start-up -/

theorem save_linesLawful {s : State} (h : s.LinesLawful) : s.save.state.LinesLawful := by
  refine h.of_keeps ?_ (save_all h.kept h.live)
  unfold State.save
  split <;> exact .same rfl rfl

theorem eraseStore_linesLawful {s : State} (h : s.LinesLawful) : s.eraseStore.state.LinesLawful := by
  refine h.of_keeps ?_ (eraseStore_all h.kept)
  unfold State.eraseStore
  split <;> exact .same rfl rfl

theorem endSave_linesLawful (verified : Bool) {s : State} (h : s.LinesLawful) : (s.endSave verified).LinesLawful := by
  refine h.of_keeps ?_ (endSave_all h.kept verified)
  unfold State.endSave
  split
  · exact .refl s
  · split <;> exact .same rfl rfl

theorem endErase_linesLawful {s : State} (h : s.LinesLawful) : s.endErase.LinesLawful := by
  refine h.of_keeps ?_ (endErase_all h.kept)
  unfold State.endErase
  split <;> exact .same rfl rfl

theorem stop_linesLawful (p : Phase) {s : State} (h : s.LinesLawful) : (s.stop p).LinesLawful := by
  refine h.of_keeps (fun l hl => ?_) (stop_all h.kept p)
  rw [stop_eq, line_of_both (s := s) (f := LineCtl.quiet) rfl rfl]
  exact LineCtl.quiet_sound hl

theorem startUp_linesLawful (cause : StartCause) {s : State} (h : s.LinesLawful) : (s.startUp cause).LinesLawful := by
  obtain ⟨hA, hB⟩ := getD_of (p := Stored.LegalLines) h.kept.1 Stored.legalLines_blank
  refine ⟨fun l => ?_, startUp_all h.kept cause⟩
  rw [startUp_eq cause s _ rfl]
  cases l
  · exact LineCtl.load_sound hA
  · exact LineCtl.load_sound hB

/-- Start-up ends with each line that can run Running (R98). -/
theorem endSettling_linesLawful {s : State} (h : s.LinesLawful) : s.endSettling.LinesLawful := by
  refine h.of_keeps (fun l hl => endSettling_line l s ▸ LineCtl.start_sound hl) ?_
  rw [endSettling_eq, adoptInputs_eq]
  exact h.kept

/-! ### The mode options and the rack link, which leave the lines and the store -/

theorem setModeOptions_linesLawful (f : OptionFields) {s : State} (h : s.LinesLawful) : (s.setModeOptions f).state.LinesLawful := by
  unfold State.setModeOptions
  split
  · exact h.same rfl rfl rfl
  · exact h

theorem setLinkConfig_linesLawful (period : Nat) {s : State} (h : s.LinesLawful) : (s.setLinkConfig period).state.LinesLawful := by
  unfold State.setLinkConfig
  split
  · exact h.same rfl rfl rfl
  · exact h

theorem reachNextStart_linesLawful {s : State} (h : s.LinesLawful) : s.reachNextStart.LinesLawful := by
  unfold State.reachNextStart
  split
  · exact h
  · split <;> exact h.same rfl rfl rfl

theorem endFrame_linesLawful {s : State} (h : s.LinesLawful) : s.endFrame.LinesLawful := by
  unfold State.endFrame
  split
  · exact h
  · split <;> exact h.same rfl rfl rfl

/-! ### Every command -/

theorem whenRunning_linesLawful {f : State → State} (hf : ∀ s, s.LinesLawful → (f s).LinesLawful) {s : State} (h : s.LinesLawful) :
    (s.whenRunning f).LinesLawful := by
  unfold State.whenRunning
  split
  · exact hf s h
  · exact h

theorem complete_linesLawful {i : Instr} {owner : State → Carried} (howner : ∀ s, s.LinesLawful → (owner s).state.LinesLawful) {s : State}
    (h : s.LinesLawful) : (s.complete i owner).LinesLawful := complete_keeps (fun _ p hs => hs.withPort p) howner h

/-- A write of a stored table, refused while the store is busy (R157). -/
theorem write_linesLawful {i : Instr} {owner : State → Carried} (howner : ∀ s, s.LinesLawful → (owner s).state.LinesLawful) {s : State}
    (h : s.LinesLawful) : (s.complete i (State.storedWrite owner)).LinesLawful :=
  complete_linesLawful (fun u hu => by
    unfold State.storedWrite
    split
    · exact hu
    · exact howner u hu) h

/-- The commands that write the phase, the mode options, the rack link or the store. -/
theorem exec_linesLawful_of_writes {i : Instr} {s t : State} (he : exec i s = .next t) (hi : writesSetup i = true) (h : s.LinesLawful) :
    t.LinesLawful := by
  cases i <;> cases hi <;> cases he
  case powerOn =>
    split
    · exact stop_linesLawful .held h
    · exact startUp_linesLawful .powerOn (h.same rfl rfl rfl)
  case resetPinLow =>
    split
    · exact h.same rfl rfl rfl
    · exact (stop_linesLawful .held h).same rfl rfl rfl
  case resetPinRelease =>
    split
    · exact h.same rfl rfl rfl
    · exact (startUp_linesLawful .pin (s := s.withSpi none) (h.same rfl rfl rfl)).same rfl rfl rfl
  case inputSettlingEnd =>
    split
    · exact endSettling_linesLawful h
    · exact h
  case supplyLost => exact stop_linesLawful .unpowered h
  case restart =>
    refine requestStep_keeps (fun _ p hs => hs.withPort p) (fun u hu => ?_) h
    split
    · exact hu.withPort _
    · exact startUp_linesLawful .restart hu
  case setModeOptions f => exact write_linesLawful (fun _ => setModeOptions_linesLawful f) h
  case setLinkConfig period => exact write_linesLawful (fun _ => setLinkConfig_linesLawful period) h
  case save => exact complete_linesLawful (fun _ => save_linesLawful) h
  case eraseStore => exact complete_linesLawful (fun _ => eraseStore_linesLawful) h
  case saveOperationEnd verified => exact whenRunning_linesLawful (fun _ => endSave_linesLawful verified) h
  case eraseOperationEnd => exact whenRunning_linesLawful (fun _ => endErase_linesLawful) h
  case frameStart => exact whenRunning_linesLawful (fun _ => reachNextStart_linesLawful) h
  case frameEnd => exact whenRunning_linesLawful (fun _ => endFrame_linesLawful) h

theorem exec_linesLawful {i : Instr} {s t : State} (he : exec i s = .next t) (h : s.LinesLawful) : t.LinesLawful := by
  cases hi : writesSetup i with
  | true => exact exec_linesLawful_of_writes he hi h
  | false =>
    have hstore : t.store = s.store := congrArg Setup.store (exec_setup he hi)
    exact h.of_keeps (exec_keepsLines he hi) (hstore ▸ h.kept)

/-- Settles O9: the commands that write the store or start and stop the part keep the laws one by one; every other command keeps the laws of
each line and leaves the store. -/
theorem everyStepKeepsLinesAndCensusSound : Obligations.EveryStepKeepsLinesAndCensusSound := by
  intro s t hlines hcensus h
  have hs : s.LinesLawful := (linesLawful_iff s).2 ⟨hlines, hcensus⟩
  refine (linesLawful_iff t).1 ?_
  unfold step at h
  split at h
  · cases h; exact hs
  · exact exec_linesLawful h (hs.same rfl rfl rfl)

end Sys2Proof.Machine

namespace Sys2Proof.Machine

/-! ## Breaks, Faults and waits (R97, R99, R101) -/

/-- Settles O51: each arrival by what its line's controller makes of it. -/
theorem breaksFaultsAndWaitsBeginAndEnd : Obligations.BreaksFaultsAndWaitsBeginAndEnd := by
  intro l s hphase
  refine ⟨fun hrun => ⟨_, congrArg Host.Outcome.next (whenRunning_running hphase (State.breakLine l)), ?_⟩,
    fun hfault => ⟨_, congrArg Host.Outcome.next (whenRunning_running hphase (State.recoverLine l)), if_pos hfault⟩,
    fun hwait => ⟨_, congrArg Host.Outcome.next (whenRunning_running hphase (State.endWait l)), if_pos hwait⟩⟩
  rw [State.breakLine, if_pos hrun, State.faultLine, LineCtl.enterFault_eq]
  cases l <;> rfl

end Sys2Proof.Machine

namespace Sys2Proof.Machine

/-! ## SET LINE CONFIG (R96 to R98) -/

/-- An Off line that can run becomes Running (R97, R98). -/
theorem LineCtl.follow_starts {c : LineCtl} (h : c.state = .off) (hcan : c.config.canRun = true) : c.follow = c.becomeRunning := by
  simp only [LineCtl.follow, h, hcan, if_true]

theorem LineCtl.follow_stays_off {c : LineCtl} (h : c.state = .off) (hcan : c.config.canRun = false) : c.follow = c := by
  simp only [LineCtl.follow, h, hcan, Bool.false_eq_true, if_false]

/-- A line that cannot run becomes Off at once where nothing is in flight (R97). -/
theorem LineCtl.follow_stops {c : LineCtl} (h : c.state = .fault ∨ c.state = .running ∧ c.exchange = none) (hcan : c.config.canRun = false) :
    c.follow = c.becomeOff := by
  rcases h with h | ⟨h, hx⟩
  · simp only [LineCtl.follow, h, hcan, Bool.false_eq_true, if_false]
  · simp only [LineCtl.follow, h, hcan, hx, and_self, if_true]

/-- A line that can still run goes on (R97). -/
theorem LineCtl.follow_goes_on {c : LineCtl} (h : c.state ≠ .off) (hcan : c.config.canRun = true) : c.follow = c := by
  cases hs : c.state with
  | off => exact absurd hs h
  | running => simp [LineCtl.follow, hs, hcan]
  | fault => simp [LineCtl.follow, hs, hcan]

/-- A Running line with an exchange in flight waits for its end (R97). -/
theorem LineCtl.follow_in_flight {c : LineCtl} (h : c.state = .running) (hx : c.exchange ≠ none) : c.follow = c := by
  simp [LineCtl.follow, h, hx]

@[simp] theorem LineCtl.becomeOff_config (c : LineCtl) : c.becomeOff.config = c.config := by rw [LineCtl.becomeOff_eq]

@[simp] theorem LineCtl.follow_config (c : LineCtl) : c.follow.config = c.config := by
  unfold LineCtl.follow
  split
  · split <;> rfl
  · split
    · exact c.becomeOff_config
    · rfl
  · split
    · rfl
    · exact c.becomeOff_config

/-- A yes/no code that is given in its range (R165). -/
theorem yesNoOf_of_isSome {v : Nat} (h : (yesNoOf v).isSome = true) : yesNoOf v = some (decide (v = 0)) := by
  match v with
  | 0 => rfl
  | 1 => rfl

theorem LineConfig.withFields_enabled {f : LineFields} (hf : lineFieldsInRange f = true) (c : LineConfig) :
    (c.withFields f).enabled = match f.enabled with | none => c.enabled | some v => decide (v = 0) := by
  simp only [lineFieldsInRange, Bool.and_eq_true, Option.all_eq_true] at hf
  obtain ⟨⟨henabled, -⟩, -⟩ := hf
  unfold LineConfig.withFields
  cases hv : f.enabled with
  | none => rfl
  | some v => simp [yesNoOf_of_isSome (henabled v hv)]

theorem setLineConfig_inRange {n : Nat} {l : Line} {f : LineFields} (hl : lineOf n = some l) (hf : lineFieldsInRange f = true) (s : State) :
    s.setLineConfig n f = (s.withLine l { s.line l with config := (s.line l).config.withFields f }.follow).done [] := by
  simp only [State.setLineConfig, hl, hf, if_true]

/-- Settles O45: the owner writes the fields, and the line state follows by the state the line was in. -/
theorem aLineFollowsItsConfiguration : Obligations.ALineFollowsItsConfiguration := by
  intro n l f s hserves hready hl hf
  have howner := setLineConfig_inRange hl hf (s.accept (.setLineConfig n f))
  simp only [accept_line] at howner
  refine ⟨_, write_completes hserves hready rfl howner (withLine_port l _ _), by cases l <;> rfl, ?_⟩
  simp only [answer_line, withLine_line, LineCtl.follow_config]
  refine ⟨LineConfig.withFields_enabled hf _, rfl, rfl, fun hoff hcan => LineCtl.follow_starts hoff hcan,
    fun hcan hoff => LineCtl.follow_stays_off hoff hcan, fun hcan hstops => ?_, fun hon hcan => LineCtl.follow_goes_on hon hcan,
    fun hrun hx => LineCtl.follow_in_flight hrun hx⟩
  exact (LineCtl.follow_stops (c := { s.line l with config := (s.line l).config.withFields f }) hstops hcan).trans (LineCtl.becomeOff_eq _)

end Sys2Proof.Machine

namespace Sys2Proof.Machine

/-! ## Exchanges sent, and collisions (R97, R99, R104, R105, R108) -/

/-- The characters of a poll or of a census poll are all sent: the reply window opens (R105). -/
theorem LineCtl.allSent_polled {c : LineCtl} {x : Exchange} (hx : c.exchange = some x) (hsent : x.sent = false)
    (hk : ∀ m, x.kind ≠ .announce m) : c.allSent = { c with collisions := 0, exchange := some { x with sent := true } } := by
  unfold LineCtl.allSent
  rw [hx]
  simp only [hsent, Bool.false_eq_true, if_false]

/-- An announce is all sent, and over (R97, R108; log 11). -/
theorem LineCtl.allSent_announced {c : LineCtl} {x : Exchange} {m : Mode} (hs : c.state = .running) (hx : c.exchange = some x)
    (hsent : x.sent = false) (hk : x.kind = .announce m) :
    c.allSent = LineCtl.over { c with collisions := 0, announce := if c.announce = some m then none else c.announce } := by
  have hend : c.allSent = { c with collisions := 0, announce := if c.announce = some m then none else c.announce }.endExchange := by
    unfold LineCtl.allSent
    rw [hx]
    simp only [hsent, hk, Bool.false_eq_true, if_false]
  exact hend.trans (LineCtl.endExchange_running (c := { c with collisions := 0, announce := _ }) hs)

theorem LineCtl.over_off {c : LineCtl} (h : c.config.canRun = false) :
    c.over.state = .off ∧ c.over.announce = none ∧ c.over.again = none := by
  rw [LineCtl.over_cannotRun h, LineCtl.becomeOff_eq]
  exact ⟨rfl, rfl, rfl⟩

@[simp] theorem LineCtl.over_collisions (c : LineCtl) : c.over.collisions = c.collisions := by
  unfold LineCtl.over
  split <;> rfl

/-- What a collision leaves in its line, besides the end of the exchange (R104). -/
def LineCtl.collided (x : Exchange) (c : LineCtl) : LineCtl := { c with collisions := c.collisions + 1, again := x.again c.again }

/-- A collision below the limit leaves what R104 says to be sent again, and the exchange is over (R97, R104). -/
theorem collide_over {l : Line} {x : Exchange} {s : State} (hs : (s.line l).state = .running) (hx : (s.line l).exchange = some x)
    (hsent : x.sent = false) (hc : (s.line l).collisions ≤ 6) : s.collide l = s.withLine l ((s.line l).collided x).over :=
  (collide_below hx hsent hc).trans (congrArg (s.withLine l) (LineCtl.endExchange_running (c := (s.line l).collided x) hs))

/-- A running part's line that sends enables its driver, with the characters of its exchange on it (log 40). -/
theorem sends_driver {l : Line} {x : Exchange} {s : State} (hphase : s.phase = .running) (hs : (s.line l).state = .running)
    (hx : (s.line l).exchange = some x) (hsent : x.sent = false) :
    s.driverEnabled l = true ∧ s.tx l = x.chars.flatMap TxChar.bits := by
  have hdriver : s.driverEnabled l = true := (driverEnabled_iff l s).2 ⟨hphase, hs, x, hx, hsent⟩
  exact ⟨hdriver, tx_sending hdriver hx⟩

/-- Settles O49: EXCHANGE SENT by the kind of the exchange, COLLISION by whether it is the eighth in a row. -/
theorem exchangesAreSentOrCollide : Obligations.ExchangesAreSentOrCollide := by
  intro l x s hphase hs hx hsent
  obtain ⟨hdriver, htx⟩ := sends_driver hphase hs hx hsent
  refine ⟨hdriver, htx, ⟨_, congrArg Host.Outcome.next (whenRunning_running hphase _), ?_⟩,
    ⟨_, congrArg Host.Outcome.next (whenRunning_running hphase _), ?_⟩⟩
  · rw [withLine_line]
    refine ⟨rfl, ?_⟩
    by_cases hk : ∀ m, x.kind ≠ .announce m
    · rw [LineCtl.allSent_polled hx hsent hk]
      exact ⟨rfl, driverEnabled_sent (congrArg LineCtl.exchange (withLine_line l _ s)) rfl, fun _ => rfl, fun m hm => absurd hm (hk m)⟩
    · obtain ⟨m, hm⟩ := not_forall_not.1 hk
      rw [LineCtl.allSent_announced hs hx hsent hm]
      refine ⟨LineCtl.over_collisions _, driverEnabled_quiet (by rw [withLine_line, LineCtl.over_exchange]), fun hnone => absurd hm (hnone m),
        fun m' hm' => ?_⟩
      cases hm.symm.trans hm'
      refine ⟨LineCtl.over_exchange _, fun hcan => LineCtl.over_canRun hcan, fun hcan => ?_⟩
      obtain ⟨hoff, hannounce, -⟩ := LineCtl.over_off (c := { s.line l with collisions := 0, announce := _ }) hcan
      exact ⟨hoff, hannounce⟩
  · rcases Nat.lt_or_ge (s.line l).collisions 7 with hc | hc
    · rw [collide_over hs hx hsent (Nat.le_of_lt_succ hc), withLine_line, withLine_port]
      refine ⟨by cases l <;> rfl, LineCtl.over_exchange _, driverEnabled_quiet (by rw [withLine_line, LineCtl.over_exchange]), fun _ => ⟨rfl,
        LineCtl.over_collisions _, fun hcan => ?_, fun hcan => ?_⟩, fun hlimit => absurd hlimit (Nat.not_le.2 hc)⟩
      · rw [LineCtl.over_canRun (c := (s.line l).collided x) hcan]
        exact ⟨rfl, fun a hk => by simp only [LineCtl.collided, Exchange.again, hk],
          fun a hk => by simp only [LineCtl.collided, Exchange.again, hk], fun m hk => by simp only [LineCtl.collided, Exchange.again, hk]⟩
      · obtain ⟨hoff, -, hagain⟩ := LineCtl.over_off (c := (s.line l).collided x) hcan
        exact ⟨hoff, hagain⟩
    · rw [collide_limit hx hsent hc, LineCtl.enterFault_eq, raise_line, withLine_line]
      refine ⟨by cases l <;> rfl, rfl, driverEnabled_quiet (by rw [raise_line, withLine_line]), fun hbelow => absurd hc (by omega),
        fun _ => ⟨by cases l <;> rfl, rfl⟩⟩

end Sys2Proof.Machine

namespace Sys2Proof.Machine

/-! ## Replies and misses (R105 to R107, R110, R113) -/

/-- Looking up an address after a change to the record of one, which keeps its address. -/
theorem stationAt_mapStation {f : Station → Station} (hident : ∀ r, (f r).ident = r.ident) (a d : Nat) (l : List Station) :
    stationAt (mapStation a f l) d = if d = a then (stationAt l a).map f else stationAt l d := by
  induction l with
  | nil => simp [mapStation, stationAt]
  | cons x l ih =>
    have hcons : mapStation a f (x :: l) = (if x.ident.address = a then f x else x) :: mapStation a f l := rfl
    have haddress : (if x.ident.address = a then f x else x).ident.address = x.ident.address := by
      split
      · rw [hident]
      · rfl
    rw [hcons, stationAt_cons, ih, haddress, stationAt_cons, stationAt_cons]
    by_cases hd : d = a
    · subst hd
      by_cases hx : x.ident.address = d <;> simp [hx]
    · by_cases hx : x.ident.address = d
      · simp [hx, hd]
      · simp [hx, hd]

/-- A line with the record of one of its stations changed. -/
def LineCtl.onStation (a : Nat) (f : Station → Station) (c : LineCtl) : LineCtl := { c with stations := mapStation a f c.stations }

theorem onStation_eq (l : Line) (a : Nat) (f : Station → Station) (s : State) :
    s.onStation l a f = s.withLine l ((s.line l).onStation a f) := rfl

@[simp] theorem LineCtl.over_stations (c : LineCtl) : c.over.stations = c.stations := by
  unfold LineCtl.over
  split <;> rfl

theorem LineCtl.over_onStation (a : Nat) (f : Station → Station) (c : LineCtl) :
    (c.onStation a f).over = { c.over with stations := mapStation a f c.stations } := by
  cases hcan : c.config.canRun with
  | true => rw [LineCtl.over_canRun hcan, LineCtl.over_canRun (c := c.onStation a f) hcan]; rfl
  | false =>
    rw [LineCtl.over_cannotRun hcan, LineCtl.over_cannotRun (c := c.onStation a f) hcan, LineCtl.becomeOff_eq, LineCtl.becomeOff_eq]; rfl

/-- The end of the reply window of a Running line: what the reply brings, and then the exchange is over (R97, R105). -/
theorem endReply_running {l : Line} {x : Exchange} {s : State} {chars : Option (List RxChar)} (hx : (s.line l).exchange = some x)
    (hsent : x.sent = true) (hs : ((s.judge l x chars).line l).state = .running) :
    s.endReply l chars = (s.judge l x chars).withLine l ((s.judge l x chars).line l).over := by
  rw [endReply_sent hx hsent, LineCtl.endExchange_running hs]

/-- A valid reply from a station that is on the poll list still (R105, R106, R110). -/
theorem judge_valid {l : Line} {x : Exchange} {a : Nat} {r : Station} {reply : StationReply} {s : State} {chars : Option (List RxChar)}
    (hk : x.kind = .poll a) (hkeep : x.discard = false) (hr : stationAt (s.line l).stations a = some r)
    (hyes : chars.bind (judgeReply a) = some reply) : s.judge l x chars = s.validReply l r reply := by
  simp only [State.judge, hk, hkeep, hr, hyes]

/-- No valid reply from a station that is on the poll list still (R105, R107, R110). -/
theorem judge_missed {l : Line} {x : Exchange} {a : Nat} {r : Station} {s : State} {chars : Option (List RxChar)}
    (hk : x.kind = .poll a) (hkeep : x.discard = false) (hr : stationAt (s.line l).stations a = some r)
    (hno : chars.bind (judgeReply a) = none) : s.judge l x chars = s.miss l r := by
  simp only [State.judge, hk, hkeep, hr, hno]

/-- A discarded reply brings nothing (R110). -/
theorem judge_discarded {l : Line} {x : Exchange} {a : Nat} {s : State} (hk : x.kind = .poll a)
    (hgone : x.discard = true ∨ stationAt (s.line l).stations a = none) (chars : Option (List RxChar)) : s.judge l x chars = s := by
  rcases hgone with hdiscard | hnone
  · simp only [State.judge, hk, hdiscard]
  · simp only [State.judge, hk, hnone]
    cases x.discard <;> rfl

/-- What a valid reply makes of its station and of the flags, before its events are delivered (R106). -/
def State.replied (l : Line) (r : Station) (reply : StationReply) (s : State) : State :=
  ((s.onStation l r.ident.address (Station.answered reply)).raiseIf (decide (r.state = .silent)) .stationBack).raiseIf
    (r.accepts reply && reply.lost) .eventsLost

/-- A valid reply that is accepted delivers its events; a duplicate does not (R106). -/
theorem validReply_eq (l : Line) (r : Station) (reply : StationReply) (s : State) : s.validReply l r reply =
    if r.accepts reply then (s.replied l r reply).deliver l r.ident.address reply.events else s.replied l r reply := by
  unfold State.validReply State.replied
  cases r.accepts reply <;> rfl

theorem Station.accepts_iff (r : Station) (reply : StationReply) :
    r.accepts reply = true ↔ r.state = .silent ∨ r.lastBit ≠ some reply.bit := by simp [Station.accepts]

theorem raiseIf_eq (cond : Bool) (f : Flag) (s : State) :
    s.raiseIf cond f = s.withPort { s.port with flags := (if cond then s.port.raise f else s.port).flags } := by
  cases cond <;> rfl

@[simp] theorem raiseIf_line (cond : Bool) (f : Flag) (s : State) (l : Line) : (s.raiseIf cond f).line l = s.line l := by
  cases cond
  · rfl
  · exact raise_line s f l

theorem raiseIf_isSet (cond : Bool) (f g : Flag) (s : State) :
    (s.raiseIf cond f).port.isSet g = true ↔ s.port.isSet g = true ∨ g = f ∧ cond = true := by
  cases cond with
  | false => exact ⟨.inl, fun h => h.resolve_right fun ⟨_, h⟩ => nomatch h⟩
  | true => exact (Port.raise_isSet_iff g f s.port).trans (or_congr_right (and_iff_left rfl).symm)

@[simp] theorem replied_line (l : Line) (r : Station) (reply : StationReply) (s : State) :
    (s.replied l r reply).line l = (s.line l).onStation r.ident.address (Station.answered reply) := by
  simp only [State.replied, raiseIf_line, onStation_eq, withLine_line]

theorem replied_frame (l : Line) (r : Station) (reply : StationReply) (s : State) : s.replied l r reply =
    { s.withLine l ((s.line l).onStation r.ident.address (Station.answered reply)) with
      port := { s.port with flags := (s.replied l r reply).port.flags } } := by
  unfold State.replied
  rw [raiseIf_eq, raiseIf_eq]
  cases l <;> rfl

theorem replied_isSet (l : Line) (r : Station) (reply : StationReply) (s : State) (f : Flag) :
    (s.replied l r reply).port.isSet f = true ↔ s.port.isSet f = true ∨ f = .stationBack ∧ r.state = .silent
      ∨ f = .eventsLost ∧ (r.accepts reply && reply.lost) = true := by
  simp only [State.replied, raiseIf_isSet, onStation_eq, withLine_port, decide_eq_true_eq, or_assoc]

/-- Delivered events leave the state of a line (R53). -/
theorem EventFrame.line_state {s t : State} (h : EventFrame s t) (l : Line) : (t.line l).state = (s.line l).state := by
  cases l
  · exact (congrArg LineCtl.state h.lineA :)
  · exact (congrArg LineCtl.state h.lineB :)

theorem Station.answered_eq {reply : StationReply} {r : Station} : r.answered reply = { r with
    state := .online, misses := 0, lastBit := some reply.bit
    eventsLost := if (r.state = .silent ∨ r.lastBit ≠ some reply.bit) ∧ reply.lost = true then min (r.eventsLost + 1) 255
      else r.eventsLost } := by
  simp only [Station.answered, Bool.and_eq_true, Station.accepts_iff, bump, Config.countMax]

/-- A station record after a miss, by what the station was (R107). -/
theorem Station.missed_below {r : Station} (hs : r.state ≠ .silent) (hm : r.misses + 1 < 3) :
    r.fails = false ∧ r.missed = { r with misses := r.misses + 1 } := by
  have hfails : r.fails = false := by simpa [Station.fails, hs] using Nat.le_of_lt_succ hm
  exact ⟨hfails, by simp [Station.missed, hs, hfails]⟩

theorem Station.missed_third {r : Station} (hs : r.state ≠ .silent) (hm : 3 ≤ r.misses + 1) :
    r.fails = true ∧ r.missed = { r with misses := 3, state := .silent, lastBit := none } := by
  have hfails : r.fails = true := (Station.fails_iff r).2 ⟨hs, hm⟩
  exact ⟨hfails, by simp [Station.missed, hs, hfails]⟩

theorem Station.missed_silent {r : Station} (hs : r.state = .silent) : r.fails = false ∧ r.missed = { r with misses := 3 } :=
  ⟨by simp [Station.fails, hs], by simp [Station.missed, hs]⟩

/-- A third miss in a row ends the movement that the station began, and says so (R66, R107). -/
theorem miss_fails {l : Line} {r : Station} {s : State} (h : r.fails = true) : s.miss l r =
    { s.withLine l ((s.line l).onStation r.ident.address Station.missed) with
      circuits := s.circuits.map (Circuit.endMovement (pickStation l r.ident.address)), port := s.port.raise .stationSilent } := by
  unfold State.miss
  rw [if_pos h]
  cases l <;> rfl

/-- Any other miss is counted alone (R107). -/
theorem miss_counts {l : Line} {r : Station} {s : State} (h : r.fails = false) :
    s.miss l r = s.withLine l ((s.line l).onStation r.ident.address Station.missed) := by
  unfold State.miss
  rw [h]
  rfl

@[simp] theorem miss_line (l : Line) (r : Station) (s : State) :
    (s.miss l r).line l = (s.line l).onStation r.ident.address Station.missed := by
  cases h : r.fails with
  | true =>
    rw [miss_fails h]
    cases l <;> rfl
  | false => rw [miss_counts h, withLine_line]

/-- The reply window of a poll ends with no valid reply (R105, R107). -/
theorem endReply_missed {l : Line} {x : Exchange} {a : Nat} {r : Station} {s : State} {chars : Option (List RxChar)}
    (hs : (s.line l).state = .running) (hx : (s.line l).exchange = some x) (hsent : x.sent = true) (hk : x.kind = .poll a)
    (hkeep : x.discard = false) (hr : stationAt (s.line l).stations a = some r) (hno : chars.bind (judgeReply a) = none) :
    s.endReply l chars = (s.miss l r).withLine l ((s.line l).onStation a Station.missed).over := by
  have hjudge : s.judge l x chars = s.miss l r := judge_missed hk hkeep hr hno
  have hline : (s.judge l x chars).line l = (s.line l).onStation a Station.missed := by rw [hjudge, miss_line, stationAt_address hr]
  rw [endReply_running hx hsent (hline ▸ hs), hline, hjudge]

/-- The reply window of a poll ends with a valid reply (R105, R106). -/
theorem endReply_valid {l : Line} {x : Exchange} {a : Nat} {r : Station} {reply : StationReply} {s : State} {chars : Option (List RxChar)}
    (hs : (s.line l).state = .running) (hx : (s.line l).exchange = some x) (hsent : x.sent = true) (hk : x.kind = .poll a)
    (hkeep : x.discard = false) (hr : stationAt (s.line l).stations a = some r) (hyes : chars.bind (judgeReply a) = some reply) :
    s.endReply l chars = (s.validReply l r reply).withLine l ((s.validReply l r reply).line l).over := by
  have hjudge : s.judge l x chars = s.validReply l r reply := judge_valid hk hkeep hr hyes
  have hreplied : ((s.replied l r reply).line l).state = .running := by rw [replied_line]; exact hs
  rw [endReply_running hx hsent, hjudge]
  rw [hjudge, validReply_eq]
  split
  · exact ((deliver_frame l _ _ _).line_state l).trans hreplied
  · exact hreplied

/-- Both arrivals that end a reply window (R105). -/
theorem exec_endReply {l : Line} {chars : Option (List RxChar)} {c : Instr} {s : State} (hphase : s.phase = .running)
    (hc : (c = .replyWindowEnd l ∧ chars = none) ∨ (∃ w, c = .reply l w ∧ chars = some w)) : exec c s = .next (s.endReply l chars) := by
  rcases hc with ⟨rfl, rfl⟩ | ⟨w, rfl, rfl⟩
  · exact congrArg Host.Outcome.next (whenRunning_running hphase (State.endReply l none))
  · exact congrArg Host.Outcome.next (whenRunning_running hphase (State.endReply l (some w)))

/-- Settles O50: each end of a reply window by what was polled, whether its station is still enrolled, and whether the reply is valid. -/
theorem repliesAndMissesAreJudged : Obligations.RepliesAndMissesAreJudged := by
  intro l x chars c s hc hphase hs hx hsent
  refine ⟨_, exec_endReply hphase hc, fun a r reply hk hkeep hr hyes => ?_, fun a r hk hkeep hr hno => ?_, fun a hk hgone => ?_,
    fun a hk => ?_⟩
  · have haddress := stationAt_address hr
    have hstations (d : Nat) := stationAt_mapStation (f := Station.answered reply) (fun _ => rfl) a d (s.line l).stations
    rw [endReply_valid hs hx hsent hk hkeep hr hyes, validReply_eq]
    refine ⟨s.replied l r reply, ?_, ?_, fun d hd => ?_, fun hon hdup => ?_, fun haccepted => ?_⟩
    · rw [replied_line]
      exact replied_frame l r reply s
    · rw [replied_line, haddress]
      exact (hstations a).trans (by rw [if_pos rfl, hr, Option.map_some, Station.answered_eq])
    · rw [replied_line, haddress]
      exact (hstations d).trans (if_neg hd)
    · have hnot : r.accepts reply = false := by simp [Station.accepts, hon, hdup]
      rw [hnot]
      exact ⟨by simp [State.replied, State.raiseIf, hon, hnot, onStation_eq], rfl⟩
    · have hyes := (Station.accepts_iff r reply).2 haccepted
      rw [if_pos hyes, haddress]
      exact ⟨fun f => by rw [replied_isSet, hyes, Bool.true_and], rfl⟩
  · have hstations (d : Nat) := stationAt_mapStation Station.missed_ident a d (s.line l).stations
    have hmissed {r' : Station} (hr' : r.missed = r') : stationAt ((s.line l).onStation a Station.missed).over.stations a = some r' := by
      rw [LineCtl.over_stations]
      exact (hstations a).trans (by rw [if_pos rfl, hr, Option.map_some, hr'])
    rw [endReply_missed hs hx hsent hk hkeep hr hno, withLine_line]
    refine ⟨?_, fun d hd => ?_, fun hon hfew => ?_, fun hon hthird => ?_, fun hsilent => ?_⟩
    · rw [LineCtl.over_onStation]
    · rw [LineCtl.over_stations]
      exact (hstations d).trans (if_neg hd)
    · obtain ⟨hfails, hr'⟩ := Station.missed_below hon hfew
      rw [miss_counts hfails, withLine_withLine]
      exact ⟨rfl, hmissed hr'⟩
    · obtain ⟨hfails, hr'⟩ := Station.missed_third hon hthird
      rw [miss_fails hfails, stationAt_address hr]
      exact ⟨by cases l <;> rfl, hmissed hr'⟩
    · obtain ⟨hfails, hr'⟩ := Station.missed_silent hsilent
      rw [miss_counts hfails, withLine_withLine]
      exact ⟨rfl, hmissed hr'⟩
  · have hjudge := judge_discarded hk hgone chars
    rw [endReply_running hx hsent (hjudge.symm ▸ hs), hjudge]
  · rw [endReply_census hx hsent hk, LineCtl.endExchange_running]
    exact hs

end Sys2Proof.Machine

namespace Sys2Proof.Machine

/-! ## The next exchange (R101, R102, R108, R113) -/

/-- When a station is due in this round (R101). -/
theorem LineCtl.due_iff (c : LineCtl) (r : Station) :
    c.due r = true ↔ (∀ p, c.lastPolled = some p → p < r.ident.address) ∧ (r.state ≠ .silent ∨ c.round = 0) := by
  simp only [LineCtl.due, Bool.and_eq_true, Bool.or_eq_true, Option.all_eq_true, decide_eq_true_eq]

/-- The first station due on the poll list is the next (R101). -/
theorem LineCtl.nextDue_eq_some {c : LineCtl} {before after : List Station} {r : Station} (hlist : c.stations = before ++ r :: after)
    (hbefore : ∀ q ∈ before, ¬(c.due q = true)) (hr : c.due r = true) : c.nextDue = some r := by
  rw [LineCtl.nextDue, hlist, List.find?_append, List.find?_eq_none.2 hbefore, List.find?_cons_of_pos hr]
  rfl

/-- The lowest address at or above the census address that is not on the poll list is the next (R113). -/
theorem LineCtl.censusNext_of_lowest {c : LineCtl} {a : Nat} (h1 : 1 ≤ a) (h62 : a ≤ 62) (hfrom : c.censusAddr ≤ a)
    (hfree : stationAt c.stations a = none) (hlowest : ∀ d, 1 ≤ d → c.censusAddr ≤ d → d < a → (stationAt c.stations d).isSome = true) :
    c.censusNext = some a := by
  refine List.find?_range'_eq_some.2 ⟨by simp [hfrom, hfree], List.mem_range'_1.2 ⟨h1, Nat.lt_succ_of_le h62⟩, fun d hd hda => ?_⟩
  by_cases hlow : c.censusAddr ≤ d
  · simpa [hlow] using hlowest d hd hlow hda
  · simp [hlow]

/-- No address is left for the census (R113). -/
theorem LineCtl.censusNext_of_none {c : LineCtl}
    (hfull : ∀ d, 1 ≤ d → d ≤ 62 → c.censusAddr ≤ d → (stationAt c.stations d).isSome = true) : c.censusNext = none := by
  refine List.find?_eq_none.2 fun d hd => ?_
  obtain ⟨hd1, hd62⟩ := List.mem_range'_1.1 hd
  by_cases hlow : c.censusAddr ≤ d
  · simpa [hlow, Option.isSome_iff_ne_none] using hfull d hd1 (Nat.le_of_lt_succ hd62) hlow
  · simp [hlow]

/-- A census poll where nothing is to be sent again. -/
theorem LineCtl.pollCensus_eq {c : LineCtl} (h : c.again = none) (a : Nat) : c.pollCensus a = c.begin (.census a) (censusMessage a) := by
  cases c
  cases h
  rfl

/-! ### The order of the choice (R101) -/

section
variable {l : Line} {s : State}

theorem chooseExchange_announce (hs : (s.line l).state = .running) (hx : (s.line l).exchange = none) {m : Mode}
    (hm : (s.line l).announce = some m) : s.chooseExchange l = s.withLine l ((s.line l).sendAnnounce m) := by
  simp only [State.chooseExchange, hs, hx, hm, ne_eq, not_true_eq_false, or_self, if_false]

theorem chooseExchange_waiting (hm : (s.line l).announce = none) (hw : (s.line l).waiting = true) : s.chooseExchange l = s := by
  simp only [State.chooseExchange, hm, hw, if_true, ite_self]

theorem chooseExchange_repeatOrWalk (hs : (s.line l).state = .running) (hx : (s.line l).exchange = none)
    (hm : (s.line l).announce = none) (hw : (s.line l).waiting = false) : s.chooseExchange l = s.repeatOrWalk l := by
  simp only [State.chooseExchange, hs, hx, hm, hw, ne_eq, not_true_eq_false, or_self, Bool.false_eq_true, if_false]

theorem repeatOrWalk_station {a : Nat} {r : Station} (ha : (s.line l).again = some (.station a))
    (hr : stationAt (s.line l).stations a = some r) : s.repeatOrWalk l = s.poll l r := by simp only [State.repeatOrWalk, ha, hr]

theorem repeatOrWalk_census {a : Nat} (ha : (s.line l).again = some (.census a)) (hfree : stationAt (s.line l).stations a = none) :
    s.repeatOrWalk l = s.withLine l ((s.line l).pollCensus a) := by
  simp only [State.repeatOrWalk, ha, hfree, Option.isNone_none, if_true]

theorem repeatOrWalk_none (ha : (s.line l).again = none) : s.repeatOrWalk l = s.walk l := by simp only [State.repeatOrWalk, ha]

theorem walk_due {r : Station} (hr : (s.line l).nextDue = some r) : s.walk l = s.poll l r := by simp only [State.walk, hr]

theorem walk_ends (hnone : ∀ q ∈ (s.line l).stations, ¬((s.line l).due q = true)) : s.walk l = s.endRound l := by
  have hnext : (s.line l).nextDue = none := List.find?_eq_none.2 hnone
  simp only [State.walk, hnext]

theorem endRound_idle (hc : (s.line l).census ≠ .running) : s.endRound l = s.withLine l { s.line l with
    round := ((s.line l).round + 1) % 16, lastPolled := none, waiting := (s.line l).lastPolled.isNone } := if_neg hc

theorem endRound_census {a : Nat} (hagain : (s.line l).again = none) (hc : (s.line l).census = .running)
    (ha : (s.line l).censusNext = some a) : s.endRound l = s.withLine l { s.line l with
      round := ((s.line l).round + 1) % 16, lastPolled := none
      exchange := some ⟨.census a, censusMessage a, (s.line l).config.divisor, (s.line l).config.window, false, false⟩ } := by
  simp only [State.endRound, if_pos hc, ha]
  exact congrArg (s.withLine l) (LineCtl.pollCensus_eq (c := { s.line l with round := _, lastPolled := none }) hagain a)

theorem endRound_done (hc : (s.line l).census = .running) (hnone : (s.line l).censusNext = none) :
    s.endRound l = (s.withLine l { s.line l with
      round := ((s.line l).round + 1) % 16, lastPolled := none, census := .done }).raise .censusDone := by
  simp only [State.endRound, if_pos hc, hnone]

end

/-! ### What every choice leaves (R101; log 40) -/

/-- A choice of the next exchange: nothing but the line and the flags changes, and an exchange that has begun is not sent yet. -/
structure Chosen (l : Line) (s t : State) : Prop where
  frame : t = { s.withLine l (t.line l) with port := t.port }
  state : (t.line l).state = .running
  fresh : ∀ x, (t.line l).exchange = some x → x.sent = false

theorem Chosen.withLine {l : Line} {s : State} {c : LineCtl} (hc : c.state = .running) (hfresh : ∀ x, c.exchange = some x → x.sent = false) :
    Chosen l s (s.withLine l c) := by
  refine ⟨?_, ?_, ?_⟩
  · cases l <;> rfl
  · rw [withLine_line]; exact hc
  · rw [withLine_line]; exact hfresh

theorem Chosen.raise {l : Line} {s t : State} (h : Chosen l s t) (f : Flag) : Chosen l s (t.raise f) := by
  obtain ⟨hframe, hstate, hfresh⟩ := h
  refine ⟨?_, ?_, ?_⟩
  · have hraised := congrArg (State.raise · f) hframe
    rw [raise_line]
    exact hraised
  · rw [raise_line]; exact hstate
  · rw [raise_line]; exact hfresh

/-- A choice made after the repeat was dropped (log 13). -/
theorem Chosen.of_withLine {l : Line} {s t : State} {c : LineCtl} (h : Chosen l (s.withLine l c) t) : Chosen l s t := by
  obtain ⟨hframe, hstate, hfresh⟩ := h
  rw [withLine_withLine] at hframe
  exact ⟨hframe, hstate, hfresh⟩

theorem Chosen.begin {l : Line} {s : State} {c : LineCtl} (hc : c.state = .running) (kind : ExchangeKind) (chars : List TxChar) :
    Chosen l s (s.withLine l (c.begin kind chars)) := .withLine hc fun x hx => by cases hx; rfl

theorem poll_chosen {l : Line} {s : State} (hs : (s.line l).state = .running) (r : Station) : Chosen l s (s.poll l r) :=
  .begin (c := { s.line l with again := none, lastPolled := some r.ident.address }) hs _ _

theorem walk_chosen {l : Line} {s : State} (hs : (s.line l).state = .running) (hx : (s.line l).exchange = none) : Chosen l s (s.walk l) := by
  have hnone (x : Exchange) (h : (s.line l).exchange = some x) : x.sent = false := nomatch hx.symm.trans h
  unfold State.walk
  split
  · exact poll_chosen hs _
  · unfold State.endRound
    dsimp only
    split
    · split
      · exact .begin (c := { s.line l with round := _, lastPolled := none, again := none }) hs _ _
      · exact .raise (.withLine (c := { s.line l with round := _, lastPolled := none, census := .done }) hs hnone) _
    · exact .withLine (c := { s.line l with round := _, lastPolled := none, waiting := _ }) hs hnone

theorem chooseExchange_chosen {l : Line} {s : State} (hs : (s.line l).state = .running) (hx : (s.line l).exchange = none) :
    Chosen l s (s.chooseExchange l) := by
  have hdropped : Chosen l s ((s.withLine l { s.line l with again := none }).walk l) := by
    refine .of_withLine (walk_chosen ?_ ?_) <;> rw [withLine_line]
    · exact hs
    · exact hx
  cases hm : (s.line l).announce with
  | some m =>
    rw [chooseExchange_announce hs hx hm]
    exact .begin hs _ _
  | none =>
    cases hw : (s.line l).waiting with
    | true =>
      rw [chooseExchange_waiting hm hw]
      exact ⟨by cases l <;> rfl, hs, fun _ h => nomatch hx.symm.trans h⟩
    | false =>
      rw [chooseExchange_repeatOrWalk hs hx hm hw]
      unfold State.repeatOrWalk
      split
      · split
        · exact poll_chosen hs _
        · exact hdropped
      · split
        · exact .begin (c := { s.line l with again := none }) hs _ _
        · exact hdropped
      · exact walk_chosen hs hx

/-- The driver of a running part's line after a choice: enabled exactly where an exchange has begun, with its characters on it (log 40). -/
theorem Chosen.driver {l : Line} {s t : State} (h : Chosen l s t) (hphase : s.phase = .running) :
    t.driverEnabled l = (t.line l).exchange.isSome ∧ ∀ x, (t.line l).exchange = some x → t.tx l = x.chars.flatMap TxChar.bits := by
  have hphase' : t.phase = .running := by
    rw [h.frame]
    cases l <;> exact hphase
  cases hx : (t.line l).exchange with
  | none => exact ⟨driverEnabled_quiet hx, fun _ => nofun⟩
  | some x =>
    obtain ⟨hdriver, htx⟩ := sends_driver hphase' h.state hx (h.fresh x hx)
    exact ⟨hdriver, fun y hy => by cases hy; exact htx⟩

/-- Settles O47: what every choice leaves, and then the choices in their order. -/
theorem aLineChoosesItsNextExchange : Obligations.ALineChoosesItsNextExchange := by
  refine ⟨fun l s hphase hs hx => ?_, fun m => by cases m <;> rfl, fun a => rfl⟩
  have hchosen := chooseExchange_chosen hs hx
  obtain ⟨hdriver, htx⟩ := hchosen.driver hphase
  refine ⟨_, congrArg Host.Outcome.next (whenRunning_running hphase _), hchosen.frame, hdriver, htx,
    fun m hm => chooseExchange_announce hs hx hm, chooseExchange_waiting, fun hm hw => ?_⟩
  rw [chooseExchange_repeatOrWalk hs hx hm hw]
  refine ⟨fun a r ha hr => repeatOrWalk_station ha hr, fun a ha hfree => repeatOrWalk_census ha hfree, fun hagain => ?_⟩
  rw [repeatOrWalk_none hagain]
  simp only [← LineCtl.due_iff]
  refine ⟨fun before r after hlist hbefore hlast hsilent => ?_, fun hnone => ?_⟩
  · exact walk_due (LineCtl.nextDue_eq_some hlist hbefore ((LineCtl.due_iff _ r).2 ⟨hlast, hsilent⟩))
  · rw [walk_ends hnone]
    exact ⟨endRound_idle, fun a hc h1 h62 hfrom hfree hlowest =>
      endRound_census hagain hc (LineCtl.censusNext_of_lowest h1 h62 hfrom hfree hlowest),
      fun hc hfull => endRound_done hc (LineCtl.censusNext_of_none hfull)⟩

end Sys2Proof.Machine

namespace Sys2Proof.Machine

/-! ## The characters of a poll (R102, R162) -/

/-- The first character of a message has mark bit 1, the rest 0; the check is last (R162). -/
theorem stationMessage_cons (b : Byte) (data : List Byte) :
    stationMessage (b :: data) = ⟨true, b⟩ :: (data.map (TxChar.mk false) ++ [⟨false, crc8 (b :: data)⟩]) := by
  have hrest (l : List Byte) : (l.mapIdx fun i c => (⟨i + 1 == 0, c⟩ : TxChar)) = l.map (TxChar.mk false) := by
    refine List.ext_getElem? fun i => ?_
    rw [List.getElem?_mapIdx, List.getElem?_map]
    rfl
  rw [stationMessage, List.cons_append, List.mapIdx_cons, hrest, List.map_append]
  rfl

theorem pollMessage_eq (address : Nat) (ack : Bool) (ind : List Indicator) : pollMessage address ack ind =
    ⟨true, BitVec.ofNat 8 address⟩ :: ⟨false, BitVec.ofNat 8 (ack.toNat + 2 * ((ind.length + 3) / 4))⟩
      :: ((indicatorBytes ind).map (TxChar.mk false) ++ [⟨false, crc8 (BitVec.ofNat 8 address
        :: BitVec.ofNat 8 (ack.toNat + 2 * ((ind.length + 3) / 4)) :: indicatorBytes ind)⟩]) :=
  stationMessage_cons _ _

/-- The second character of a poll, for a count of at most 3 (R162). -/
theorem pollSecond_bits (ack : Bool) {k : Nat} (hk : k ≤ 3) :
    (BitVec.ofNat 8 (ack.toNat + 2 * k)).getLsbD 0 = ack ∧ (BitVec.ofNat 8 (ack.toNat + 2 * k)).toNat / 2 = k := by
  have hack : ack.toNat ≤ 1 := Bool.toNat_le ack
  refine ⟨?_, ?_⟩
  · rw [BitVec.getLsbD_ofNat, Nat.testBit_zero]
    cases ack <;> simp [Nat.add_mul_mod_self_left]
  · rw [BitVec.toNat_ofNat]
    omega

/-! ### Indicator characters (R162) -/

/-- The number that some indicator states make, two bits each, the first in bits 1..0. -/
def packed (l : List Indicator) : Nat := l.foldr (fun i n => i.code + 4 * n) 0

theorem indicatorByte_eq (l : List Indicator) : indicatorByte l = BitVec.ofNat 8 (packed l) := rfl

theorem Indicator.code_lt (i : Indicator) : i.code < 4 := by cases i <;> decide

theorem packed_lt (l : List Indicator) : packed l < 4 ^ l.length := by
  induction l with
  | nil => decide
  | cons i l ih =>
    have hcode := i.code_lt
    have hcons : packed (i :: l) = i.code + 4 * packed l := rfl
    rw [hcons, List.length_cons, Nat.pow_succ']
    omega

/-- Two bits of a packed number are the code of one state, 0 above the last. -/
theorem packed_digit (l : List Indicator) (j : Nat) : packed l / 4 ^ j % 4 = ((l[j]?).map Indicator.code).getD 0 := by
  induction l generalizing j with
  | nil => simp [packed]
  | cons i l ih =>
    have hcons : packed (i :: l) = i.code + 4 * packed l := rfl
    have hcode := i.code_lt
    cases j with
    | zero =>
      rw [hcons, Nat.pow_zero, Nat.div_one]
      simp only [List.getElem?_cons_zero, Option.map_some, Option.getD_some]
      omega
    | succ j =>
      have hdiv : (i.code + 4 * packed l) / 4 = packed l := by omega
      rw [hcons, Nat.pow_succ', ← Nat.div_div_eq_div_mul, hdiv, ih, List.getElem?_cons_succ]

theorem indicatorByte_digit {l : List Indicator} (h : l.length ≤ 4) (j : Nat) :
    (indicatorByte l).toNat / 4 ^ j % 4 = ((l[j]?).map Indicator.code).getD 0 := by
  have hlt : packed l < 2 ^ 8 := (packed_lt l).trans_le (Nat.pow_le_pow_right (by decide) h)
  rw [indicatorByte_eq, BitVec.toNat_ofNat, Nat.mod_eq_of_lt hlt, packed_digit]

/-- The state of a button in its indicator character, two bits, 0 above the last button (R162). -/
theorem indicatorBytes_digit {ind : List Indicator} {b : Nat} {c : Byte} (hc : (indicatorBytes ind)[b / 4]? = some c) :
    c.toNat / 4 ^ (b % 4) % 4 = ((ind[b]?).map Indicator.code).getD 0 := by
  obtain ⟨i, hi, rfl⟩ := Option.map_eq_some_iff.1 (List.getElem?_map.symm.trans hc)
  obtain ⟨-, rfl⟩ := List.getElem?_eq_some_iff.1 hi
  have hwindow : (window (4 * (b / 4)) 4 ind)[b % 4]? = ind[b]? := by
    rw [window, List.getElem?_take_of_lt (Nat.mod_lt b (by decide)), List.getElem?_drop, Nat.div_add_mod]
  rw [List.getElem_range, indicatorByte_digit (l := window (4 * (b / 4)) 4 ind) (List.length_take_le _ _), hwindow]

@[simp] theorem indicatorBytes_length (ind : List Indicator) : (indicatorBytes ind).length = (ind.length + 3) / 4 := by
  simp [indicatorBytes]

/-! ### The indicator of a button (R103) -/

theorem indicators_length (s : State) (l : Line) (r : Station) :
    (s.indicators l r).length = if r.ident.indicators then r.ident.buttons else 0 := by
  unfold State.indicators
  split
  · simp
  · rfl

theorem indicators_getElem? {r : Station} (hr : r.ident.indicators = true) {b : Nat} (h1 : 1 ≤ b) (h2 : b ≤ r.ident.buttons) (l : Line)
    (s : State) : (s.indicators l r)[b - 1]? = some (s.indicator (.station l r.ident.address b)) := by
  have hlt : b - 1 < r.ident.buttons := by omega
  have hb : 1 + (b - 1) = b := by omega
  rw [State.indicators, if_pos hr, List.getElem?_map, List.getElem?_range' hlt]
  simp [hb]

theorem Slot.feedbackFor_eq_some {k : SourceKey} {x : Slot} {c : Binding} :
    x.feedbackFor k = some c ↔ x = .live c ∧ c.feedback = true ∧ c.key = k := by
  cases x with
  | live b =>
    simp only [Slot.feedbackFor, Slot.liveRecord, Bool.and_eq_true, decide_eq_true_eq, Option.ite_none_right_eq_some, Option.some.injEq,
      Slot.live.injEq]
    exact ⟨fun ⟨hb, he⟩ => ⟨he, he ▸ hb⟩, fun ⟨he, hb⟩ => ⟨he ▸ hb, he⟩⟩
  | free => simp [Slot.feedbackFor, Slot.liveRecord]
  | disabled b => simp [Slot.feedbackFor, Slot.liveRecord]

theorem Slot.feedbackFor_eq_none {k : SourceKey} {x : Slot} (h : ∀ c, x = .live c → c.feedback = true → c.key ≠ k) :
    x.feedbackFor k = none :=
  Option.eq_none_iff_forall_not_mem.2 fun c hc => by
    obtain ⟨hx, hf, hk⟩ := Slot.feedbackFor_eq_some.1 hc
    exact h c hx hf hk

/-- No binding gives feedback for a button (R103). -/
theorem feedbackBinding_none {s : State} {k : SourceKey} (h : ∀ n c, slotAt s.slots n = .live c → c.feedback = true → c.key ≠ k) :
    s.feedbackBinding k = none := by
  refine List.findSome?_eq_none_iff.2 fun x hx => Slot.feedbackFor_eq_none fun c hc => ?_
  obtain ⟨n, hn, rfl⟩ := List.getElem_of_mem hx
  exact h n c ((slotAt_of_lt hn).trans hc)

/-- The lowest-numbered Live binding with feedback for a button gives its indicator (R103). -/
theorem feedbackBinding_lowest {s : State} {k : SourceKey} {n : Nat} {c : Binding} (hc : slotAt s.slots n = .live c) (hf : c.feedback = true)
    (hk : c.key = k) (hlow : ∀ m d, m < n → slotAt s.slots m = .live d → d.feedback = true → d.key ≠ k) :
    s.feedbackBinding k = some c := by
  have hn : n < s.slots.length := by
    by_contra hn
    cases (slotAt_of_le (Nat.le_of_not_lt hn)).symm.trans hc
  have hsplit : s.slots = s.slots.take n ++ s.slots[n] :: s.slots.drop (n + 1) := by simp
  refine List.findSome?_eq_some_iff.2 ⟨_, _, _, hsplit, ?_, fun x hx => Slot.feedbackFor_eq_none fun d hd => ?_⟩
  · exact Slot.feedbackFor_eq_some.2 ⟨(slotAt_of_lt hn).symm.trans hc, hf, hk⟩
  · obtain ⟨m, hm, hx⟩ := List.mem_take_iff_getElem.1 hx
    have hmn : m < n ∧ m < s.slots.length := by omega
    exact hlow m d hmn.1 ((slotAt_of_lt hmn.2).trans (hx.trans hd))

/-- A character on a station line, bit by bit (R162; log 33). -/
theorem TxChar.bits_spec (c : TxChar) : c.bits.length = 11 ∧ c.bits[0]? = some false ∧ (∀ i, i < 8 → c.bits[i + 1]? = some (c.data.getLsbD i))
    ∧ c.bits[9]? = some c.mark ∧ c.bits[10]? = some true := by
  have hbits : c.bits = false :: (dataBits c.data ++ [c.mark, true]) := by simp [TxChar.bits, lineAt]
  have hlength : (dataBits c.data).length = 8 := rfl
  rw [hbits]
  refine ⟨rfl, rfl, fun i hi => ?_, rfl, rfl⟩
  rw [List.getElem?_cons_succ, List.getElem?_append_left (hlength ▸ hi), dataBits, List.getElem?_map, List.getElem?_range hi]
  rfl

/-- Settles O48: the poll by the model's own text, its characters by the packing of the indicators, and each indicator by the lowest binding
that gives feedback for its button. -/
theorem aPollCarriesTheAcknowledgementAndTheIndicators : Obligations.APollCarriesTheAcknowledgementAndTheIndicators := by
  refine ⟨fun l r s hbuttons => ?_, TxChar.bits_spec⟩
  have hlength := indicators_length s l r
  have hfew : (s.indicators l r).length ≤ r.ident.buttons := by
    rw [hlength]
    split
    · exact le_rfl
    · exact Nat.zero_le _
  obtain ⟨hack, hcount⟩ := pollSecond_bits (r.lastBit.getD false) (k := ((s.indicators l r).length + 3) / 4) (by omega)
  refine ⟨_, rfl, ⟨_, _, _, ?_, indicatorBytes_length _, pollMessage_eq _ _ _, hack, hcount, fun b ind hb hind => ?_, fun b c hb hc => ?_⟩,
    hlength, fun b hr h1 h2 => ?_⟩
  · rw [hlength]
    split <;> rfl
  · obtain ⟨hlt, -⟩ := List.getElem?_eq_some_iff.1 hind
    have hin : (b - 1) / 4 < (indicatorBytes (s.indicators l r)).length := by
      rw [indicatorBytes_length]
      omega
    refine ⟨_, List.getElem?_eq_getElem hin, ?_⟩
    rw [indicatorBytes_digit (List.getElem?_eq_getElem hin), hind]
    cases ind <;> rfl
  · have hnone : (s.indicators l r)[b - 1]? = none := List.getElem?_eq_none (by omega)
    rw [indicatorBytes_digit hc, hnone]
    rfl
  · rw [indicators_getElem? hr h1 h2]
    refine ⟨fun hnone => ?_, fun n c hc hf hk hlow => ?_⟩
    · rw [State.indicator, feedbackBinding_none hnone]
    · rw [State.indicator, feedbackBinding_lowest hc hf hk hlow]
      cases htarget : c.target <;> simp [State.indicatorOf, Indicator.ofLit, State.groupOn, htarget]

end Sys2Proof.Machine

namespace Sys2Proof.Machine

/-! ## The record of a contact input (R115, R116) -/

theorem contact_eq_some_iff {s : State} {n : Nat} {x : ContactInput} : s.contact n = some x ↔ n ≠ 0 ∧ s.inputs[n - 1]? = some x := by
  unfold State.contact
  split <;> simp_all

theorem contact_mem {s : State} {n : Nat} {x : ContactInput} (h : s.contact n = some x) : x ∈ s.inputs :=
  List.mem_of_getElem? (contact_eq_some_iff.1 h).2

/-- Contact inputs are numbered from 1 (R115). -/
theorem contact_range {s : State} {n : Nat} {x : ContactInput} (h : s.contact n = some x) : 1 ≤ n ∧ n ≤ s.inputs.length := by
  obtain ⟨hn, hx⟩ := contact_eq_some_iff.1 h
  obtain ⟨hlt, -⟩ := List.getElem?_eq_some_iff.1 hx
  omega

theorem contact_withContact_self {s : State} {n : Nat} {x : ContactInput} (h : s.contact n = some x) (y : ContactInput) :
    (s.withContact n y).contact n = some y := by
  obtain ⟨hn, hx⟩ := contact_eq_some_iff.1 h
  obtain ⟨hlt, -⟩ := List.getElem?_eq_some_iff.1 hx
  rw [contact_eq_some_iff, State.withContact, if_neg hn]
  exact ⟨hn, List.getElem?_set_self hlt⟩

theorem contact_withContact_of_ne {m n : Nat} (h : m ≠ n) (y : ContactInput) (s : State) :
    (s.withContact n y).contact m = s.contact m := by
  unfold State.contact State.withContact
  split
  · rfl
  · split
    · rfl
    · exact List.getElem?_set_ne (by omega)

@[simp] theorem withContact_withContact (n : Nat) (x y : ContactInput) (s : State) :
    (s.withContact n x).withContact n y = s.withContact n y := by
  unfold State.withContact
  split
  · rfl
  · simp [State.withInputs]

theorem EventFrame.contact {s t : State} (h : EventFrame s t) (n : Nat) : t.contact n = s.contact n := by
  rw [State.contact, State.contact, h.inputs]

/-! ### A pin and its sample (R116) -/

theorem Pin.accepts_iff (p : Pin) (debounce : Nat) (level : Bool) : p.accepts debounce level = true ↔ p.Turns debounce level := by
  simp [Pin.accepts, Pin.Turns]

theorem Pin.sample_samplesTo (p : Pin) (debounce : Nat) (level : Bool) : p.SamplesTo debounce level (p.sample debounce level) := by
  refine ⟨fun hsame => if_pos hsame, fun hdiffers hshort => ?_, fun hturns => ?_⟩
  · rw [Pin.sample, if_neg hdiffers, if_neg (by rw [Pin.accepts_iff]; exact fun ⟨_, hlong⟩ => by omega)]
  · rw [Pin.sample, if_neg hturns.1, if_pos ((p.accepts_iff debounce level).2 hturns)]
    rfl

theorem Pin.sample_of_turns {p : Pin} {debounce : Nat} {level : Bool} (h : p.Turns debounce level) :
    p.sample debounce level = p.adopt level := (p.sample_samplesTo debounce level).2.2 h

/-- What a sample can do to a pin: its level turns, or stays while the disagree count is below the debounce (R116). -/
theorem Pin.SamplesTo.cases {p q : Pin} {debounce : Nat} {level : Bool} (h : p.SamplesTo debounce level q) :
    p.Turns debounce level ∧ q.level = level ∧ q.disagree = 0
    ∨ ¬p.Turns debounce level ∧ q.level = p.level ∧ (q.disagree = 0 ∨ q.disagree < debounce) := by
  obtain ⟨hsame, hcounts, hturns⟩ := h
  by_cases ht : p.Turns debounce level
  · exact .inl ⟨ht, by rw [hturns ht], by rw [hturns ht]⟩
  · refine .inr ⟨ht, ?_⟩
    by_cases hlevel : level = p.level
    · rw [hsame hlevel]
      exact ⟨rfl, .inl rfl⟩
    · have hshort : p.disagree + 1 < debounce := Nat.lt_of_not_le fun hlong => ht ⟨hlevel, hlong⟩
      rw [hcounts hlevel hshort]
      exact ⟨rfl, .inr hshort⟩

/-- A sample makes one pin. -/
theorem Pin.SamplesTo.eq_sample {p q : Pin} {debounce : Nat} {level : Bool} (h : p.SamplesTo debounce level q) :
    q = p.sample debounce level := by
  obtain ⟨hsame, hcounts, hturns⟩ := h
  obtain ⟨hsame', hcounts', hturns'⟩ := p.sample_samplesTo debounce level
  by_cases hlevel : level = p.level
  · rw [hsame hlevel, hsame' hlevel]
  · rcases Nat.lt_or_ge (p.disagree + 1) debounce with hshort | hlong
    · rw [hcounts hlevel hshort, hcounts' hlevel hshort]
    · rw [hturns ⟨hlevel, hlong⟩, hturns' ⟨hlevel, hlong⟩]

/-! ### What an arrival makes of a record, and what it brings (R117 to R119) -/

/-- The record after a sample on which no change of a Momentary input is accepted (R117, R118). -/
def ContactInput.counted (x : ContactInput) : ContactInput :=
  if x.state.down then
    { x with
      closedCount := min (x.closedCount + 1) Config.closedMax
      state := if x.state = .closed ∧ x.config.holdTime ≤ min (x.closedCount + 1) Config.closedMax then .held
        else if x.config.stuckTime ≠ 0 ∧ x.config.stuckTime * 1000 ≤ min (x.closedCount + 1) Config.closedMax then .stuck else x.state }
  else x

theorem contactClosed_frame {x : ContactInput} (h : x.state = .open') (n : Nat) (s : State) :
    EventFrame (s.withContact n { x with state := .closed, closedCount := 0 }) (s.contactClosed n x) := by
  rw [State.contactClosed, if_pos h]
  exact resolve_frame _ _ _

theorem contactClosed_shut {x : ContactInput} (h : x.state ≠ .open') (n : Nat) (s : State) : s.contactClosed n x = s.withContact n x :=
  if_neg h

theorem contactOpened_frame (n : Nat) (x : ContactInput) (s : State) :
    EventFrame (s.withContact n { x with state := .open' }) (s.contactOpened n x) := by
  unfold State.contactOpened
  dsimp only
  split
  · exact resolve_frame _ _ _
  · exact .refl _

theorem contactHeld_frame (n : Nat) (x : ContactInput) (s : State) :
    EventFrame (s.withContact n { x with state := .held }) (s.contactHeld n x) := resolve_frame _ _ _

theorem contactStuck_frame (n : Nat) (x : ContactInput) (s : State) :
    EventFrame (s.withContact n { x with state := .stuck }) (s.contactStuck n x) := (endMovement_frame _ _).trans (raise_frame _ _)

theorem contactTurned_frame (n : Nat) (x : ContactInput) (s : State) :
    EventFrame (s.withContact n { x with state := if x.config.isClosed x.pin.level then .closed else .open' }) (s.contactTurned n x) := by
  unfold State.contactTurned
  split <;> exact resolve_frame _ _ _

theorem contactCounted_frame (n : Nat) (x : ContactInput) (s : State) : EventFrame (s.withContact n x.counted) (s.contactCounted n x) := by
  unfold State.contactCounted ContactInput.counted
  by_cases hdown : x.state.down
  · simp only [if_pos hdown]
    split
    · exact contactHeld_frame n { x with closedCount := min (x.closedCount + 1) Config.closedMax } s
    · split
      · exact contactStuck_frame n { x with closedCount := min (x.closedCount + 1) Config.closedMax } s
      · exact .refl _
  · simp only [if_neg hdown]
    exact .refl _

/-! ### The sample of a contact input (R116 to R119) -/

section
variable {n : Nat} {x : ContactInput} {level : Bool} {s : State}

theorem sampleContact_unused (hx : s.contact n = some x) (hk : x.config.kind = .unused) :
    s.sampleContact n level = s.withContact n { x with pin := x.pin.sample x.config.debounce level } := by
  simp only [State.sampleContact, hx, hk]

theorem sampleContact_maintained_turns (hx : s.contact n = some x) (hk : x.config.kind = .maintained)
    (ht : x.pin.Turns x.config.debounce level) : s.sampleContact n level = s.contactTurned n { x with pin := x.pin.adopt level } := by
  simp only [State.sampleContact, hx, hk, (x.pin.accepts_iff _ _).2 ht, if_true, Pin.sample_of_turns ht]

theorem sampleContact_maintained_stays (hx : s.contact n = some x) (hk : x.config.kind = .maintained)
    (ht : ¬x.pin.Turns x.config.debounce level) :
    s.sampleContact n level = s.withContact n { x with pin := x.pin.sample x.config.debounce level } := by
  simp only [State.sampleContact, hx, hk]
  exact if_neg ((x.pin.accepts_iff _ _).not.2 ht)

theorem sampleContact_closes (hx : s.contact n = some x) (hk : x.config.kind = .momentary) (ht : x.pin.Turns x.config.debounce level)
    (hc : x.config.isClosed level = true) : s.sampleContact n level = s.contactClosed n { x with pin := x.pin.adopt level } := by
  simp only [State.sampleContact, hx, hk, (x.pin.accepts_iff _ _).2 ht, if_true, Pin.sample_of_turns ht]
  exact if_pos hc

theorem sampleContact_opens (hx : s.contact n = some x) (hk : x.config.kind = .momentary) (ht : x.pin.Turns x.config.debounce level)
    (hc : x.config.isClosed level = false) : s.sampleContact n level = s.contactOpened n { x with pin := x.pin.adopt level } := by
  simp only [State.sampleContact, hx, hk, (x.pin.accepts_iff _ _).2 ht, if_true, Pin.sample_of_turns ht]
  exact if_neg (by rw [Pin.adopt, hc]; exact nofun)

theorem sampleContact_counts (hx : s.contact n = some x) (hk : x.config.kind = .momentary) (ht : ¬x.pin.Turns x.config.debounce level) :
    s.sampleContact n level = s.contactCounted n { x with pin := x.pin.sample x.config.debounce level } := by
  simp only [State.sampleContact, hx, hk]
  exact if_neg ((x.pin.accepts_iff _ _).not.2 ht)

end

/-- The record after a sample (R116 to R119). -/
def ContactInput.sampled (level : Bool) (x : ContactInput) : ContactInput :=
  let y := { x with pin := x.pin.sample x.config.debounce level }
  if x.pin.accepts x.config.debounce level then
    match x.config.kind with
    | .unused => y
    | .maintained => { y with state := if x.config.isClosed level then .closed else .open' }
    | .momentary =>
      if x.config.isClosed level then (if x.state = .open' then { y with state := .closed, closedCount := 0 } else y)
      else { y with state := .open' }
  else if x.config.kind = .momentary then y.counted else y

section
variable {x : ContactInput} {level : Bool}

theorem ContactInput.sampled_of_turns (ht : x.pin.Turns x.config.debounce level) : x.sampled level =
    match x.config.kind with
    | .unused => { x with pin := x.pin.adopt level }
    | .maintained => { x with pin := x.pin.adopt level, state := if x.config.isClosed level then .closed else .open' }
    | .momentary =>
      if x.config.isClosed level then
        (if x.state = .open' then { x with pin := x.pin.adopt level, state := .closed, closedCount := 0 }
          else { x with pin := x.pin.adopt level })
      else { x with pin := x.pin.adopt level, state := .open' } := by
  unfold ContactInput.sampled
  rw [if_pos ((x.pin.accepts_iff _ _).2 ht), Pin.sample_of_turns ht]

theorem ContactInput.sampled_of_stays (ht : ¬x.pin.Turns x.config.debounce level) : x.sampled level =
    if x.config.kind = .momentary then ContactInput.counted { x with pin := x.pin.sample x.config.debounce level }
    else { x with pin := x.pin.sample x.config.debounce level } := if_neg ((x.pin.accepts_iff _ _).not.2 ht)

end

/-- What a sample of a contact input does but for its record is the event it brings. -/
theorem sampleContact_frame {n : Nat} {x : ContactInput} {s : State} (hx : s.contact n = some x) (level : Bool) :
    EventFrame (s.withContact n (x.sampled level)) (s.sampleContact n level) := by
  by_cases ht : x.pin.Turns x.config.debounce level
  · rw [ContactInput.sampled_of_turns ht]
    cases hk : x.config.kind with
    | unused =>
      rw [sampleContact_unused hx hk, Pin.sample_of_turns ht]
      exact .refl _
    | maintained =>
      rw [sampleContact_maintained_turns hx hk ht]
      exact contactTurned_frame n { x with pin := x.pin.adopt level } s
    | momentary =>
      cases hc : x.config.isClosed level with
      | false =>
        rw [sampleContact_opens hx hk ht hc]
        exact contactOpened_frame n { x with pin := x.pin.adopt level } s
      | true =>
        rw [sampleContact_closes hx hk ht hc]
        by_cases hs : x.state = .open'
        · simp only [if_true, if_pos hs]
          exact contactClosed_frame (x := { x with pin := x.pin.adopt level }) hs n s
        · simp only [if_true, if_neg hs]
          rw [contactClosed_shut (x := { x with pin := x.pin.adopt level }) hs]
          exact .refl _
  · rw [ContactInput.sampled_of_stays ht]
    cases hk : x.config.kind with
    | unused =>
      rw [sampleContact_unused hx hk]
      exact .refl _
    | maintained =>
      rw [sampleContact_maintained_stays hx hk ht]
      exact .refl _
    | momentary =>
      rw [sampleContact_counts hx hk ht]
      exact contactCounted_frame n _ s

theorem ContactInput.counted_of_down {x : ContactInput} (h : x.state = .closed ∨ x.state = .held) : x.counted = { x with
    closedCount := min (x.closedCount + 1) 600000
    state := if x.state = .closed ∧ x.config.holdTime ≤ min (x.closedCount + 1) 600000 then .held
      else if x.config.stuckTime ≠ 0 ∧ x.config.stuckTime * 1000 ≤ min (x.closedCount + 1) 600000 then .stuck else x.state } :=
  if_pos (by rcases h with h | h <;> rw [h] <;> rfl)

theorem ContactInput.counted_of_up {x : ContactInput} (hc : x.state ≠ .closed) (hh : x.state ≠ .held) : x.counted = x :=
  if_neg (by cases hs : x.state <;> simp_all [InputState.down])

@[simp] theorem ContactInput.counted_config (x : ContactInput) : x.counted.config = x.config := by
  unfold ContactInput.counted; split <;> rfl

@[simp] theorem ContactInput.counted_pin (x : ContactInput) : x.counted.pin = x.pin := by
  unfold ContactInput.counted; split <;> rfl

/-- A sample makes of a record what R116 to R119 say. -/
theorem ContactInput.sampled_samplesTo (x : ContactInput) (level : Bool) : x.SamplesTo level (x.sampled level) := by
  have hpin := x.pin.sample_samplesTo x.config.debounce level
  by_cases ht : x.pin.Turns x.config.debounce level
  · rw [Pin.sample_of_turns ht] at hpin
    rw [ContactInput.sampled_of_turns ht]
    cases hk : x.config.kind with
    | unused => simpa [ContactInput.SamplesTo, hk] using hpin
    | maintained => simpa [ContactInput.SamplesTo, hk, ht] using hpin
    | momentary =>
      cases hc : x.config.isClosed level with
      | false => simpa [ContactInput.SamplesTo, hk, ht, hc] using hpin
      | true => by_cases hs : x.state = .open' <;> simpa [ContactInput.SamplesTo, hk, ht, hc, hs] using hpin
  · rw [ContactInput.sampled_of_stays ht]
    cases hk : x.config.kind with
    | unused => simpa [ContactInput.SamplesTo, hk] using hpin
    | maintained => simpa [ContactInput.SamplesTo, hk, ht] using hpin
    | momentary =>
      have hcounts (h : x.state = .closed ∨ x.state = .held) :=
        ContactInput.counted_of_down (x := { x with pin := x.pin.sample x.config.debounce level }) h
      have hrests (hc : x.state ≠ .closed) (hh : x.state ≠ .held) :=
        ContactInput.counted_of_up (x := { x with pin := x.pin.sample x.config.debounce level }) hc hh
      simp only [if_true, ContactInput.SamplesTo, hk, ContactInput.counted_config, ContactInput.counted_pin, ht, false_implies,
        not_false_eq_true, true_implies, reduceCtorEq, true_and]
      exact ⟨hpin, fun hc hh => by rw [hrests hc hh]; exact ⟨rfl, rfl⟩, fun h => by rw [hcounts h]; exact ⟨rfl, rfl⟩⟩

/-! ### Records within their laws (R115, R117 to R119) -/

/-- The law of a record's state, for its kind and accepted position. -/
theorem ContactInput.legal_iff (x : ContactInput) : x.Legal ↔ x.config.Legal ∧ x.pin.disagree < x.config.debounce ∧ x.closedCount ≤ 600000
    ∧ (x.config.kind = .unused → x.state = .unused)
    ∧ (x.config.kind = .maintained → x.state = if x.config.isClosed x.pin.level then .closed else .open')
    ∧ (x.config.kind = .momentary → x.state ≠ .unused ∧ (x.state = .open' ↔ x.config.isClosed x.pin.level = false)) := by
  unfold ContactInput.Legal
  cases x.config.kind <;> simp

/-- A change of level is a change of position (R115). -/
theorem InputConfig.isClosed_of_ne {level other : Bool} (h : level ≠ other) (c : InputConfig) : c.isClosed level = !c.isClosed other := by
  unfold InputConfig.isClosed
  cases level <;> cases other <;> cases c.closedHigh <;> simp_all

/-- A sample leaves the disagree count below the debounce (R116). -/
theorem Pin.SamplesTo.disagree_lt {p q : Pin} {debounce : Nat} {level : Bool} (h : p.SamplesTo debounce level q) (hd : 0 < debounce) :
    q.disagree < debounce := by
  rcases h.cases with ⟨-, -, hzero⟩ | ⟨-, -, hzero | hlt⟩
  · omega
  · omega
  · exact hlt

/-- A sample keeps a record within its laws (R116 to R119). -/
theorem ContactInput.Legal.sampled {x : ContactInput} (h : x.Legal) (level : Bool) : (x.sampled level).Legal := by
  obtain ⟨hconfig, -, hcount, hunused, hmaintained, hmomentary⟩ := x.legal_iff.1 h
  have hdebounce : 0 < x.config.debounce := lt_of_lt_of_le (by decide) hconfig.1
  obtain ⟨hc, hpin, hu, hm, hp⟩ := x.sampled_samplesTo level
  generalize x.sampled level = y at *
  rw [ContactInput.legal_iff, hc]
  refine ⟨hconfig, hpin.disagree_lt hdebounce, ?_, fun hk => (hu hk).1.trans (hunused hk), fun hk => ?_, fun hk => ?_⟩
  · cases hk : x.config.kind with
    | unused => exact (hu hk).2.trans_le hcount
    | maintained => exact (hm hk).1.trans_le hcount
    | momentary =>
      obtain ⟨hcloses, hopens, hstays⟩ := hp hk
      by_cases ht : x.pin.Turns x.config.debounce level
      · cases hclosed : x.config.isClosed level with
        | false => exact (hopens ht hclosed).2.trans_le hcount
        | true =>
          by_cases hs : x.state = .open'
          · exact ((hcloses ht hclosed).1 hs).2.trans_le (Nat.zero_le _)
          · exact ((hcloses ht hclosed).2 hs).2.trans_le hcount
      · by_cases hdown : x.state = .closed ∨ x.state = .held
        · exact ((hstays ht).2 hdown).1.trans_le (Nat.min_le_right _ _)
        · rw [not_or] at hdown
          exact ((hstays ht).1 hdown.1 hdown.2).2.trans_le hcount
  · obtain ⟨-, hturns, hstays⟩ := hm hk
    rcases hpin.cases with ⟨ht, hlevel, -⟩ | ⟨ht, hlevel, -⟩ <;> rw [hlevel]
    · exact hturns ht
    · exact (hstays ht).trans (hmaintained hk)
  · obtain ⟨hcloses, hopens, hstays⟩ := hp hk
    obtain ⟨hused, hposition⟩ := hmomentary hk
    rcases hpin.cases with ⟨ht, hlevel, -⟩ | ⟨ht, hlevel, -⟩ <;> rw [hlevel]
    · have hwas := x.config.isClosed_of_ne ht.1
      cases hclosed : x.config.isClosed level with
      | false => simp [(hopens ht hclosed).1]
      | true =>
        have hopen : x.state = .open' := hposition.2 (by simpa [hclosed] using hwas)
        simp [((hcloses ht hclosed).1 hopen).1]
    · by_cases hdown : x.state = .closed ∨ x.state = .held
      · have hshut : x.config.isClosed x.pin.level ≠ false := fun ho => by
          rcases hdown with hs | hs <;> cases hs.symm.trans (hposition.2 ho)
        rw [((hstays ht).2 hdown).2]
        rcases hdown with hs | hs <;> split_ifs <;> simp [hshut, hs]
      · rw [not_or] at hdown
        rw [((hstays ht).1 hdown.1 hdown.2).1]
        exact ⟨hused, hposition⟩

end Sys2Proof.Machine

namespace Sys2Proof.Machine

/-! ## What a cue event and a transfer can touch (R134 to R136) -/

/-- The circuits, the stages, the counts of ignored cues and the port are all that may differ. -/
def CueFrame (s t : State) : Prop := t = { s with
  circuits := t.circuits, stage1 := t.stage1, stage2 := t.stage2, ignored1 := t.ignored1, ignored2 := t.ignored2, port := t.port }

theorem CueFrame.trans {s t u : State} (h : CueFrame s t) (k : CueFrame t u) : CueFrame s u := by
  unfold CueFrame at *
  rw [h] at k
  exact k

theorem transferOne_frame (i : StageId) (s : State) : CueFrame s (s.transferOne i) := by cases i <;> rfl

theorem transfer_frame (i : StageId) (s : State) : CueFrame s (s.transfer i) := by
  unfold State.transfer
  dsimp only
  split
  · exact (transferOne_frame i s).trans (transferOne_frame i.other _)
  · exact transferOne_frame i s

theorem cueArrives_frame (c : CueLine) (s : State) : CueFrame s (s.cueArrives c) := by
  have hone (b : Bool) : CueFrame s (if b then s.transfer .one else s) := by
    split
    · exact transfer_frame .one s
    · rfl
  unfold State.cueArrives
  dsimp only
  split
  · split
    · exact (hone _).trans (transfer_frame .two _)
    · exact hone _
  · cases c <;> rfl

/-! ## What leaves the records of the contact inputs -/

@[simp] theorem withLine_inputs (l : Line) (x : LineCtl) (s : State) : (s.withLine l x).inputs = s.inputs := by cases l <;> rfl

@[simp] theorem withStage_inputs (i : StageId) (x : Stage) (s : State) : (s.withStage i x).inputs = s.inputs := by cases i <;> rfl

@[simp] theorem withCue_inputs (c : CueLine) (x : CueInput) (s : State) : (s.withCue c x).inputs = s.inputs := by cases c <;> rfl

@[simp] theorem withSafePin_inputs (i : SafeInput) (p : Pin) (s : State) : (s.withSafePin i p).inputs = s.inputs := by cases i <;> rfl

@[simp] theorem mapCircuits_inputs (s : State) (f : Circuit → Circuit) : (s.mapCircuits f).inputs = s.inputs := rfl

theorem onCircuit_inputs (n : Nat) (f : Circuit → Circuit) (s : State) : (s.onCircuit n f).inputs = s.inputs := rfl

@[simp] theorem stateEndMovement_inputs (p : LocalOwner → Bool) (s : State) : (s.endMovement p).inputs = s.inputs := rfl

@[simp] theorem resolve_inputs (k : SourceKey) (e : EventKind) (s : State) : (s.resolve k e).inputs = s.inputs := (resolve_frame k e s).inputs

@[simp] theorem changeMode_inputs (m : Mode) (fade : Nat) (s : State) : (s.changeMode m fade).inputs = s.inputs :=
  (changeMode_frame m fade s).inputs

@[simp] theorem deliver_inputs (l : Line) (a : Nat) (events : List (Nat × EventKind)) (s : State) :
    (s.deliver l a events).inputs = s.inputs := (deliver_frame l a events s).inputs

/-! ### Safety inputs, stages and cues -/

@[simp] theorem sampleSafe_inputs (i : SafeInput) (level : Bool) (s : State) : (s.sampleSafe i level).inputs = s.inputs := by
  unfold State.sampleSafe
  repeat' split
  all_goals simp [State.assertInput, State.deassertInput]

@[simp] theorem cueArrives_inputs (c : CueLine) (s : State) : (s.cueArrives c).inputs = s.inputs := by rw [cueArrives_frame c s]

@[simp] theorem transfer_inputs (i : StageId) (s : State) : (s.transfer i).inputs = s.inputs := by rw [transfer_frame i s]

@[simp] theorem sampleCue_inputs (c : CueLine) (level : Bool) (s : State) : (s.sampleCue c level).inputs = s.inputs := by
  unfold State.sampleCue; dsimp only; split <;> simp

/-! ### Station lines -/

@[simp] theorem faultLine_inputs (l : Line) (s : State) : (s.faultLine l).inputs = s.inputs := by simp [State.faultLine]

@[simp] theorem walk_inputs (l : Line) (s : State) : (s.walk l).inputs = s.inputs := by
  unfold State.walk State.endRound State.poll
  dsimp only
  repeat' split
  all_goals simp

theorem chooseExchange_inputs (l : Line) (s : State) : (s.chooseExchange l).inputs = s.inputs := by
  unfold State.chooseExchange State.repeatOrWalk State.poll
  dsimp only
  repeat' split
  all_goals simp

theorem collide_inputs (l : Line) (s : State) : (s.collide l).inputs = s.inputs := by
  unfold State.collide
  dsimp only
  repeat' split
  all_goals simp

@[simp] theorem raiseIf_inputs (cond : Bool) (f : Flag) (s : State) : (s.raiseIf cond f).inputs = s.inputs := by
  unfold State.raiseIf; split <;> rfl

@[simp] theorem validReply_inputs (l : Line) (r : Station) (reply : StationReply) (s : State) :
    (s.validReply l r reply).inputs = s.inputs := by
  unfold State.validReply; dsimp only; split <;> simp [State.onStation]

@[simp] theorem miss_inputs (l : Line) (r : Station) (s : State) : (s.miss l r).inputs = s.inputs := by
  unfold State.miss; dsimp only; split <;> simp [State.onStation]

@[simp] theorem censusJudged_inputs (l : Line) (a : Nat) (entry : Option StationIdent) (s : State) :
    (s.censusJudged l a entry).inputs = s.inputs := by
  unfold State.censusJudged; dsimp only; split <;> simp

@[simp] theorem judge_inputs (l : Line) (x : Exchange) (chars : Option (List RxChar)) (s : State) : (s.judge l x chars).inputs = s.inputs := by
  unfold State.judge
  repeat' split
  all_goals simp

theorem endReply_inputs (l : Line) (chars : Option (List RxChar)) (s : State) : (s.endReply l chars).inputs = s.inputs := by
  unfold State.endReply
  repeat' split
  all_goals simp

theorem breakLine_inputs (l : Line) (s : State) : (s.breakLine l).inputs = s.inputs := by unfold State.breakLine; split <;> simp

theorem recoverLine_inputs (l : Line) (s : State) : (s.recoverLine l).inputs = s.inputs := by unfold State.recoverLine; split <;> simp

theorem endWait_inputs (l : Line) (s : State) : (s.endWait l).inputs = s.inputs := by unfold State.endWait; split <;> simp

/-! ### Transactions -/

/-- A piece of a transaction (R146). -/
@[simp] theorem shift_inputs (bits : List Bool) (rises : Bool) (s : State) : (s.shift bits rises).inputs = s.inputs := by
  have hlow : (s.shift bits false).inputs = s.inputs := by rw [shift_low_touches]
  cases rises with
  | false => exact hlow
  | true =>
    refine .trans ?_ hlow
    show (s.shift bits false).riseSel.inputs = _
    unfold State.riseSel State.endTransaction
    split
    · rfl
    · rw [withSpi_inputs]
      split
      · rfl
      · split
        · rw [takeFrame_touches]
        · split <;> rfl

/-- A piece of a fetch (R150). -/
theorem fetch_inputs (bits : Nat) (rises : Bool) (s : State) : (s.fetch bits rises).inputs = s.inputs := by
  unfold State.fetch
  dsimp only
  repeat' split
  all_goals simp

/-! ### Requests -/

theorem clearAttention_inputs (flags : Nat) (s : State) : (s.clearAttention flags).state.inputs = s.inputs := by
  unfold State.clearAttention; split <;> rfl

theorem setAttentionMask_inputs (mask : Nat) (s : State) : (s.setAttentionMask mask).state.inputs = s.inputs := by
  unfold State.setAttentionMask; split <;> rfl

theorem setCircuitConfig_inputs (first last : Nat) (f : CircuitFields) (s : State) :
    (s.setCircuitConfig first last f).state.inputs = s.inputs := by
  unfold State.setCircuitConfig
  repeat' split
  all_goals rfl

theorem claimLevel_inputs (n code v fade : Nat) (s : State) : (s.claimLevel n code v fade).state.inputs = s.inputs := by
  unfold State.claimLevel
  repeat' split
  all_goals rfl

theorem releaseLayer_inputs (n code fade : Nat) (s : State) : (s.releaseLayer n code fade).state.inputs = s.inputs := by
  unfold State.releaseLayer
  repeat' split
  all_goals rfl

theorem addBinding_inputs (r : RawBinding) (s : State) : (s.addBinding r).state.inputs = s.inputs := by
  unfold State.addBinding
  repeat' split
  all_goals rfl

theorem replaceBinding_inputs (n : Nat) (r : RawBinding) (s : State) : (s.replaceBinding n r).state.inputs = s.inputs := by
  unfold State.replaceBinding
  repeat' split
  all_goals rfl

theorem RetireFrame.inputs {s t : State} (h : RetireFrame s t) : t.inputs = s.inputs := by rw [h]

theorem retireBinding_inputs (n : Nat) (s : State) : (s.retireBinding n).state.inputs = s.inputs := by
  unfold State.retireBinding
  repeat' split
  · rfl
  · rfl
  · exact (retire_frame n s).inputs

theorem retireSource_inputs (k : RawKey) (s : State) : (s.retireSource k).state.inputs = s.inputs := by
  unfold State.retireSource
  split
  · rfl
  · exact (retireAll_frame _ s).inputs

theorem disable_inputs (n : Nat) (s : State) : (s.disable n).state.inputs = s.inputs := by
  unfold State.disable
  repeat' split
  all_goals rfl

theorem enable_inputs (n : Nat) (s : State) : (s.enable n).state.inputs = s.inputs := by
  unfold State.enable
  repeat' split
  all_goals rfl

theorem injectEvent_inputs (k : RawKey) (kind : Nat) (s : State) : (s.injectEvent k kind).state.inputs = s.inputs := by
  unfold State.injectEvent
  repeat' split
  all_goals simp

theorem writeGroup_inputs (g : Nat) (ranges : List (Nat × Nat)) (s : State) : (s.writeGroup g ranges).state.inputs = s.inputs := by
  unfold State.writeGroup
  dsimp only
  repeat' split
  all_goals rfl

theorem deleteGroup_inputs (g : Nat) (s : State) : (s.deleteGroup g).state.inputs = s.inputs := by
  unfold State.deleteGroup
  repeat' split
  all_goals rfl

@[simp] theorem placeScene_inputs (n : Nat) (sc : Scene) (s : State) : (s.placeScene n sc).state.inputs = s.inputs := by
  unfold State.placeScene; split <;> rfl

theorem writeScene_inputs (n : Nat) (fade : Option Nat) (entries : List (Nat × Nat)) (s : State) :
    (s.writeScene n fade entries).state.inputs = s.inputs := by
  unfold State.writeScene
  repeat' split
  all_goals simp

theorem extendScene_inputs (n : Nat) (entries : List (Nat × Nat)) (s : State) : (s.extendScene n entries).state.inputs = s.inputs := by
  unfold State.extendScene
  repeat' split
  all_goals simp

theorem captureScene_inputs (n : Nat) (fade : Option Nat) (ranges : List (Nat × Nat)) (s : State) :
    (s.captureScene n fade ranges).state.inputs = s.inputs := by
  unfold State.captureScene
  repeat' split
  all_goals simp

theorem deleteScene_inputs (n : Nat) (s : State) : (s.deleteScene n).state.inputs = s.inputs := by
  unfold State.deleteScene
  repeat' split
  all_goals rfl

theorem setMode_inputs (m : Nat) (fade : Option Nat) (s : State) : (s.setMode m fade).state.inputs = s.inputs := by
  unfold State.setMode
  repeat' split
  all_goals simp

theorem setLineConfig_inputs (line : Nat) (f : LineFields) (s : State) : (s.setLineConfig line f).state.inputs = s.inputs := by
  unfold State.setLineConfig
  repeat' split
  all_goals simp

theorem enrolStation_inputs (line a buttons indicators : Nat) (s : State) :
    (s.enrolStation line a buttons indicators).state.inputs = s.inputs := by
  unfold State.enrolStation
  repeat' split
  all_goals simp

theorem unenrolStation_inputs (line a : Nat) (s : State) : (s.unenrolStation line a).state.inputs = s.inputs := by
  unfold State.unenrolStation
  dsimp only
  repeat' split
  all_goals simp

theorem censusStart_inputs (line : Nat) (s : State) : (s.censusStart line).state.inputs = s.inputs := by
  unfold State.censusStart
  repeat' split
  all_goals simp

theorem stageEntry_inputs (stage circuit : Nat) (e : StageForm) (s : State) : (s.stageEntry stage circuit e).state.inputs = s.inputs := by
  unfold State.stageEntry
  repeat' split
  all_goals simp

theorem stageClear_inputs (stage : Nat) (s : State) : (s.stageClear stage).state.inputs = s.inputs := by
  unfold State.stageClear
  repeat' split
  all_goals simp

theorem setStageTrigger_inputs (stage trigger : Nat) (s : State) : (s.setStageTrigger stage trigger).state.inputs = s.inputs := by
  unfold State.setStageTrigger
  repeat' split
  all_goals simp

theorem standby_inputs (stage : Nat) (s : State) : (s.standby stage).state.inputs = s.inputs := by
  unfold State.standby
  repeat' split
  all_goals simp

theorem unstandby_inputs (stage : Nat) (s : State) : (s.unstandby stage).state.inputs = s.inputs := by
  unfold State.unstandby
  repeat' split
  all_goals simp

theorem go_inputs (stage : Nat) (s : State) : (s.go stage).state.inputs = s.inputs := by
  unfold State.go
  repeat' split
  all_goals simp

/-! ### Every such command -/

/-- The commands by which the contact inputs are sampled, written or changed (R115 to R120). -/
def worksInputs : Instr → Bool
  | .contactSample _ _ | .setInputConfig _ _ => true
  | .acceptedClose _ | .holdTimeReached _ | .stuckTimeReached _ | .acceptedOpen _ | .maintainedChange _ _ => true
  | _ => false

theorem whenRunning_inputs {f : State → State} (hf : ∀ s, (f s).inputs = s.inputs) (s : State) : (s.whenRunning f).inputs = s.inputs := by
  unfold State.whenRunning
  split
  · exact hf s
  · rfl

theorem complete_inputs {i : Instr} {owner : State → Carried} (howner : ∀ s, (owner s).state.inputs = s.inputs) (s : State) :
    (s.complete i owner).inputs = s.inputs :=
  complete_keeps (P := fun t => t.inputs = s.inputs) (fun _ _ ht => ht) (fun t ht => (howner t).trans ht) rfl

/-- A write of a stored table, refused while the store is busy (R157). -/
theorem write_inputs {i : Instr} {owner : State → Carried} (howner : ∀ s, (owner s).state.inputs = s.inputs) (s : State) :
    (s.complete i (State.storedWrite owner)).inputs = s.inputs :=
  complete_inputs (fun u => by
    unfold State.storedWrite
    split
    · rfl
    · exact howner u) s

theorem read_inputs {i : Instr} {owner : State → Carried} (howner : ∀ s, (owner s).state = s) (s : State) :
    (s.complete i owner).inputs = s.inputs := complete_inputs (fun u => by rw [howner]) s

/-- A command that is none of those of `worksInputs` or `writesSetup` leaves the records of the contact inputs. -/
theorem exec_inputs {i : Instr} {s t : State} (he : exec i s = .next t) (hi : worksInputs i = false) (hw : writesSetup i = false) :
    t.inputs = s.inputs := by
  cases i <;> cases he
  case contactSample | setInputConfig => cases hi
  case acceptedClose | holdTimeReached | stuckTimeReached | acceptedOpen | maintainedChange => cases hi
  case powerOn | resetPinLow | resetPinRelease | inputSettlingEnd | supplyLost | restart => cases hw
  case setModeOptions | setLinkConfig | frameStart | frameEnd => cases hw
  case save | eraseStore | saveOperationEnd | eraseOperationEnd => cases hw
  case requestTransaction piece =>
    split
    · exact shift_inputs _ _ s
    · rfl
  case fetch piece =>
    split
    · exact fetch_inputs _ _ s
    · rfl
  case readIdentity | readAttention | readMode | readRackLink | readStoreState => exact read_inputs (fun _ => rfl) s
  case readCircuitConfig first count => exact read_inputs (readCircuitConfig_state first count) s
  case readCircuitState first count => exact read_inputs (readCircuitState_state first count) s
  case readBinding n => exact read_inputs (readBinding_state n) s
  case findBindings k kind => exact read_inputs (findBindings_state k kind) s
  case readGroup g first count => exact read_inputs (readGroup_state g first count) s
  case readScene n first count => exact read_inputs (readScene_state n first count) s
  case readStation line a => exact read_inputs (readStation_state line a) s
  case readLine line => exact read_inputs (readLine_state line) s
  case censusRead line => exact read_inputs (censusRead_state line) s
  case readInput n => exact read_inputs (readInput_state n) s
  case readStage stage first count => exact read_inputs (readStage_state stage first count) s
  case clearAttention flags => exact complete_inputs (clearAttention_inputs flags) s
  case claimLevel n code v fade => exact complete_inputs (claimLevel_inputs n code v fade) s
  case releaseLayer n code fade => exact complete_inputs (releaseLayer_inputs n code fade) s
  case injectEvent k kind => exact complete_inputs (injectEvent_inputs k kind) s
  case setMode m fade => exact complete_inputs (setMode_inputs m fade) s
  case censusStart line => exact complete_inputs (censusStart_inputs line) s
  case stageEntry stage circuit e => exact complete_inputs (stageEntry_inputs stage circuit e) s
  case stageClear stage => exact complete_inputs (stageClear_inputs stage) s
  case setStageTrigger stage trigger => exact complete_inputs (setStageTrigger_inputs stage trigger) s
  case standby stage => exact complete_inputs (standby_inputs stage) s
  case unstandby stage => exact complete_inputs (unstandby_inputs stage) s
  case go stage => exact complete_inputs (go_inputs stage) s
  case setAttentionMask mask => exact write_inputs (setAttentionMask_inputs mask) s
  case setCircuitConfig first last f => exact write_inputs (setCircuitConfig_inputs first last f) s
  case setLineConfig line f => exact write_inputs (setLineConfig_inputs line f) s
  case enrolStation line a buttons indicators => exact write_inputs (enrolStation_inputs line a buttons indicators) s
  case unenrolStation line a => exact write_inputs (unenrolStation_inputs line a) s
  case addBinding r => exact write_inputs (addBinding_inputs r) s
  case replaceBinding n r => exact write_inputs (replaceBinding_inputs n r) s
  case retireBinding n => exact write_inputs (retireBinding_inputs n) s
  case retireSource k => exact write_inputs (retireSource_inputs k) s
  case disable n => exact write_inputs (disable_inputs n) s
  case enable n => exact write_inputs (enable_inputs n) s
  case writeGroup g ranges => exact write_inputs (writeGroup_inputs g ranges) s
  case deleteGroup g => exact write_inputs (deleteGroup_inputs g) s
  case writeScene n fade entries => exact write_inputs (writeScene_inputs n fade entries) s
  case extendScene n entries => exact write_inputs (extendScene_inputs n entries) s
  case captureScene n fade ranges => exact write_inputs (captureScene_inputs n fade ranges) s
  case deleteScene n => exact write_inputs (deleteScene_inputs n) s
  case fadeTick => exact whenRunning_inputs (fun u => mapCircuits_inputs u _) s
  case fadeComplete n l => exact whenRunning_inputs (onCircuit_inputs n _) s
  case handoverEnd n => exact whenRunning_inputs (onCircuit_inputs n _) s
  case nextExchange l => exact whenRunning_inputs (chooseExchange_inputs l) s
  case exchangeSent l => exact whenRunning_inputs (fun u => withLine_inputs l _ u) s
  case collision l => exact whenRunning_inputs (collide_inputs l) s
  case reply l chars => exact whenRunning_inputs (endReply_inputs l (some chars)) s
  case replyWindowEnd l => exact whenRunning_inputs (endReply_inputs l none) s
  case lineBreak l => exact whenRunning_inputs (breakLine_inputs l) s
  case faultRecovery l => exact whenRunning_inputs (recoverLine_inputs l) s
  case roundWaitEnd l => exact whenRunning_inputs (endWait_inputs l) s
  case safeAssert i => exact whenRunning_inputs (fun u => by split <;> simp [State.assertInput]) s
  case safeDeassert i => exact whenRunning_inputs (fun u => by split <;> simp [State.deassertInput]) s
  case cueEvent c => exact whenRunning_inputs (fun u => (cueArrives_inputs c _).trans (withCue_inputs c _ u)) s

end Sys2Proof.Machine

namespace Sys2Proof.Machine

/-! ## The laws of the contact inputs (R115 to R119) -/

/-- The laws look at the phase, the records and the store. -/
theorem State.InputsSound.same {s t : State} (h : s.InputsSound) (hphase : t.phase = s.phase) (hinputs : t.inputs = s.inputs)
    (hstore : t.store = s.store) : t.InputsSound := by
  rw [State.InputsSound, hphase, hinputs, hstore]
  exact h

theorem State.InputsSound.withPort {s : State} (h : s.InputsSound) (p : Port) : (s.withPort p).InputsSound := h

/-- A change of the store alone. -/
theorem State.InputsSound.withStore {s t : State} (h : s.InputsSound) (hphase : t.phase = s.phase) (hinputs : t.inputs = s.inputs)
    (hstore : t.store.All fun u => LegalInputs u.inputs) : t.InputsSound := by
  obtain ⟨hconfigs, hlive, -⟩ := h
  rw [← hinputs] at hconfigs hlive
  exact ⟨hconfigs, fun hrun => hlive (hphase ▸ hrun), hstore⟩

/-- What an event brings leaves the laws (R54). -/
theorem State.InputsSound.event {s t : State} (h : s.InputsSound) (ht : EventFrame s t) : t.InputsSound :=
  h.same ht.phase ht.inputs ht.store

theorem State.InputsSound.withCue {s : State} (h : s.InputsSound) (c : CueLine) (x : CueInput) : (s.withCue c x).InputsSound :=
  h.same (congrArg Background.phase (withCue_background c x s)) (withCue_inputs c x s) (congrArg Background.store (withCue_background c x s))

/-- A record is written within the ranges of R115, and, in a running part, within its laws. -/
theorem State.InputsSound.withContact {s : State} (h : s.InputsSound) (n : Nat) {y : ContactInput} (hconfig : y.config.Legal)
    (hy : s.phase = .running → y.Legal) : (s.withContact n y).InputsSound := by
  obtain ⟨⟨hlength, hlegal⟩, hlive, hstore⟩ := h
  unfold State.withContact
  split
  · exact ⟨⟨hlength, hlegal⟩, hlive, hstore⟩
  · refine ⟨⟨by simpa using hlength, List.forall_mem_map.2 fun x hx => ?_⟩, fun hrun x hx => ?_, hstore⟩
    · rcases List.mem_or_eq_of_mem_set hx with hx | rfl
      · exact hlegal _ (List.mem_map_of_mem hx)
      · exact hconfig
    · rcases List.mem_or_eq_of_mem_set hx with hx | rfl
      · exact hlive hrun x hx
      · exact hy hrun

theorem State.InputsSound.config {s : State} (h : s.InputsSound) {n : Nat} {x : ContactInput} (hx : s.contact n = some x) :
    x.config.Legal := by
  obtain ⟨⟨-, hlegal⟩, -, -⟩ := h
  exact hlegal _ (List.mem_map_of_mem (contact_mem hx))

theorem State.InputsSound.contact {s : State} (h : s.InputsSound) (hrun : s.phase = .running) {n : Nat} {x : ContactInput}
    (hx : s.contact n = some x) : x.Legal := by
  obtain ⟨-, hlive, -⟩ := h
  exact hlive hrun x (contact_mem hx)

theorem ContactInput.Legal.config {x : ContactInput} (h : x.Legal) : x.config.Legal := (x.legal_iff.1 h).1

theorem ContactInput.Legal.disagree {x : ContactInput} (h : x.Legal) : x.pin.disagree < x.config.debounce :=
  have ⟨_, hdisagree, _⟩ := x.legal_iff.1 h; hdisagree

theorem ContactInput.Legal.count {x : ContactInput} (h : x.Legal) : x.closedCount ≤ 600000 :=
  have ⟨_, _, hcount, _⟩ := x.legal_iff.1 h; hcount

/-! ### Samples (R116, R122) -/

theorem sampleContact_inputsSound (n : Nat) (level : Bool) {s : State} (h : s.InputsSound) (hrun : s.phase = .running) :
    (s.sampleContact n level).InputsSound := by
  cases hx : s.contact n with
  | none =>
    rw [State.sampleContact, hx]
    exact h
  | some x =>
    have hy := (h.contact hrun hx).sampled level
    exact (h.withContact n hy.config fun _ => hy).event (sampleContact_frame hx level)

theorem sampleInput_inputsSound (pins : BitVec 28) (n : Nat) {s : State} (h : s.InputsSound) (hrun : s.phase = .running) :
    (s.sampleInput pins n).InputsSound := by
  have hsetup := sampleInput_setup pins s n
  have hkept (hinputs : (s.sampleInput pins n).inputs = s.inputs) : (s.sampleInput pins n).InputsSound :=
    h.same (congrArg Setup.phase hsetup) hinputs (congrArg Setup.store hsetup)
  by_cases hcontact : n ≠ 25 ∧ n ≠ 26 ∧ n ≠ 27 ∧ n ≠ 28
  · obtain ⟨h25, h26, h27, h28⟩ := hcontact
    rw [State.sampleInput, if_neg h25, if_neg h26, if_neg h27, if_neg h28]
    exact sampleContact_inputsSound n _ h hrun
  · refine hkept ?_
    unfold State.sampleInput
    dsimp only
    split_ifs
    · exact sampleSafe_inputs .safe1 _ s
    · exact sampleSafe_inputs .safe2 _ s
    · exact sampleCue_inputs .cue1 _ s
    · exact sampleCue_inputs .cue2 _ s
    · omega

theorem sampleAll_inputsSound (pins : BitVec 28) (order : List Nat) {s : State} (h : s.InputsSound) (hrun : s.phase = .running) :
    (s.sampleAll pins order).InputsSound := by
  have hall : (s.sampleAll pins order).phase = .running ∧ (s.sampleAll pins order).InputsSound :=
    List.foldlRecOn (motive := fun t : State => t.phase = .running ∧ t.InputsSound) _ _ ⟨hrun, h⟩ fun u ⟨hphase, hu⟩ n _ =>
      ⟨(congrArg Setup.phase (sampleInput_setup pins u n)).trans hphase, sampleInput_inputsSound pins n hu hphase⟩
  exact hall.2

/-- The record of an input after a sample of step 4 of start-up (R122). -/
theorem settleContacts_getElem? (pins : BitVec 28) (n : Nat) (l : List ContactInput) (i : Nat) : (settleContacts pins n l)[i]? =
    l[i]?.map fun x => { x with pin := x.pin.settle x.config.debounce (pins.getLsbD (n + i - 1)) } := by
  induction l generalizing n i with
  | nil => rfl
  | cons x l ih =>
    cases i with
    | zero => rfl
    | succ i =>
      rw [settleContacts, List.getElem?_cons_succ, ih, List.getElem?_cons_succ, Nat.succ_add_eq_add_succ]

theorem settleContacts_configs (pins : BitVec 28) (n : Nat) (l : List ContactInput) :
    (settleContacts pins n l).map (·.config) = l.map (·.config) := by
  refine List.ext_getElem? fun i => ?_
  rw [List.getElem?_map, settleContacts_getElem?, List.getElem?_map, Option.map_map]
  rfl

/-- A sample of step 4 of start-up on every pin (R122). -/
theorem settleSample_eq {pins : BitVec 28} {s : State} (hsettled : s.allSettled = false) (hcount : s.settleSamples < 250) :
    s.settleSample pins = { s with
      inputs := settleContacts pins 1 s.inputs
      safe1 := s.safe1.settle 20 (pins.getLsbD 24), safe2 := s.safe2.settle 20 (pins.getLsbD 25)
      cue1 := { s.cue1 with pin := s.cue1.pin.settle 5 (pins.getLsbD 26) }
      cue2 := { s.cue2 with pin := s.cue2.pin.settle 5 (pins.getLsbD 27) }
      settleSamples := s.settleSamples + 1 } := by
  unfold State.settleSample
  rw [if_neg (by simp [hsettled, hcount])]
  rfl

/-- No sample is taken once all are settled or after the 250th (R122). -/
theorem settleSample_over {pins : BitVec 28} {s : State} (h : s.allSettled = true ∨ 250 ≤ s.settleSamples) : s.settleSample pins = s :=
  if_pos (by simpa using h)

theorem settleSample_inputsSound (pins : BitVec 28) {s : State} (h : s.InputsSound) (hphase : s.phase = .settling) :
    (s.settleSample pins).InputsSound := by
  obtain ⟨hconfigs, -, hstore⟩ := id h
  by_cases hover : s.allSettled = true ∨ 250 ≤ s.settleSamples
  · rw [settleSample_over hover]
    exact h
  · rw [not_or, Bool.not_eq_true, Nat.not_le] at hover
    rw [settleSample_eq hover.1 hover.2]
    refine ⟨?_, fun hrun => (nomatch hphase.symm.trans hrun), hstore⟩
    rw [settleContacts_configs]
    exact hconfigs

theorem contactSample_inputsSound (pins : BitVec 28) (order : List Nat) {s : State} (h : s.InputsSound) :
    (s.contactSample pins order).InputsSound := by
  unfold State.contactSample
  split
  · next hphase => exact settleSample_inputsSound pins h hphase
  · next hphase => exact sampleAll_inputsSound pins order h hphase
  · exact h
  · exact h

/-! ### Adoption and configuration (R120, R122) -/

/-- A record as it is adopted is within its laws, where its configuration is in range (R120, R122). -/
theorem ContactInput.adopt_legal {x : ContactInput} (hconfig : x.config.Legal) (hdisagree : x.pin.disagree = 0) {down : InputState}
    (hdown : down = .closed ∨ down = .stuck) : (x.adopt down).Legal := by
  have hdebounce : 0 < x.config.debounce := lt_of_lt_of_le (by decide) hconfig.1
  rw [ContactInput.legal_iff]
  refine ⟨hconfig, hdisagree.trans_lt hdebounce, Nat.zero_le _, fun hk => ?_, fun hk => ?_, fun hk => ?_⟩ <;>
    replace hk : x.config.kind = _ := hk <;> simp only [ContactInput.adopt, hk]
  · cases x.config.isClosed x.pin.level <;> rcases hdown with rfl | rfl <;> simp

/-- The fields of a write in their ranges, one by one (R115, R120). -/
theorem inputFieldsInRange_iff (f : InputFields) : inputFieldsInRange f = true ↔
    (∀ k, f.kind = some k → (inputKindOf k).isSome = true) ∧ (∀ v, f.pullUp = some v → v ≤ 1) ∧ (∀ v, f.polarity = some v → v ≤ 1)
      ∧ (∀ v, f.debounce = some v → 2 ≤ v ∧ v ≤ 64) ∧ (∀ v, f.holdTime = some v → (300 ≤ v ∧ v ≤ 3000) ∧ v % 10 = 0)
      ∧ (∀ v, f.stuckTime = some v → v = 0 ∨ 5 ≤ v ∧ v ≤ 600) ∧ ∀ e, f.edge = some e → (edgeOf e).isSome = true := by
  simp only [inputFieldsInRange, Bool.and_eq_true, Bool.or_eq_true, optWithin_iff, Option.all_eq_true, within_iff, beq_iff_eq,
    Nat.zero_le, true_and, and_assoc]

/-- Fields in range leave a configuration in range (R115, R120). -/
theorem InputConfig.Legal.withFields {c : InputConfig} (h : c.Legal) {f : InputFields} (hf : inputFieldsInRange f = true) :
    (c.withFields f).Legal := by
  obtain ⟨hdebounce2, hdebounce64, hhold300, hhold3000, hholdTens, hstuck⟩ := h
  obtain ⟨-, -, -, fdebounce, fhold, fstuck, -⟩ := (inputFieldsInRange_iff f).1 hf
  obtain ⟨hdebounce2, hdebounce64⟩ := getD_of (p := fun v => 2 ≤ v ∧ v ≤ 64) fdebounce ⟨hdebounce2, hdebounce64⟩
  obtain ⟨⟨hhold300, hhold3000⟩, hholdTens⟩ :=
    getD_of (p := fun v => (300 ≤ v ∧ v ≤ 3000) ∧ v % 10 = 0) fhold ⟨⟨hhold300, hhold3000⟩, hholdTens⟩
  exact ⟨hdebounce2, hdebounce64, hhold300, hhold3000, hholdTens, getD_of (p := fun v => v = 0 ∨ 5 ≤ v ∧ v ≤ 600) fstuck hstuck⟩

/-- SET INPUT CONFIG checks each field (R120). -/
theorem setInputConfig_inputsSound (n : Nat) (f : InputFields) {s : State} (h : s.InputsSound) : (s.setInputConfig n f).state.InputsSound := by
  unfold State.setInputConfig
  split
  · split
    · exact h
    · split
      · exact h.withCue _ _
      · exact h
  · split
    · exact h
    · next x hx =>
      split
      · exact h
      · split
        · next hf =>
          have hconfig := (h.config hx).withFields hf
          exact h.withContact n hconfig fun _ => ContactInput.adopt_legal hconfig rfl (.inl rfl)
        · exact h

/-! ### The arrivals of a running part (R117 to R119) -/

/-- An arrival at a contact input: the record it makes where it has its occasion is within the laws, and what else it does is an event. -/
theorem onContact_inputsSound {n : Nat} {occasion : ContactInput → Bool} {f : ContactInput → State → State}
    {record : ContactInput → ContactInput}
    (hframe : ∀ x s, occasion x = true → EventFrame (s.withContact n (record x)) (f x s))
    (hlegal : ∀ x, x.Legal → occasion x = true → (record x).Legal) {s : State} (h : s.InputsSound) :
    (s.whenRunning (State.onContact n occasion f)).InputsSound := by
  by_cases hrun : s.phase = .running
  · rw [whenRunning_running hrun]
    unfold State.onContact
    split
    · exact h
    · next x hx =>
      split
      · next ho =>
        have hy := hlegal x (h.contact hrun hx) ho
        exact (h.withContact n hy.config fun _ => hy).event (hframe x s ho)
      · exact h
  · rw [whenRunning_other hrun]
    exact h

theorem InputConfig.isClosed_closedHigh (c : InputConfig) : c.isClosed c.closedHigh = true := by simp [InputConfig.isClosed]

theorem InputConfig.isClosed_not_closedHigh (c : InputConfig) : c.isClosed (!c.closedHigh) = false := by simp [InputConfig.isClosed]

/-- A record of a Momentary input within its laws (R115, R117, R118). -/
theorem ContactInput.legal_of_momentary {x : ContactInput} (hconfig : x.config.Legal) (hdisagree : x.pin.disagree < x.config.debounce)
    (hcount : x.closedCount ≤ 600000) (hk : x.config.kind = .momentary) (hused : x.state ≠ .unused)
    (hposition : x.state = .open' ↔ x.config.isClosed x.pin.level = false) : x.Legal :=
  x.legal_iff.2 ⟨hconfig, hdisagree, hcount, fun hu => (nomatch hk.symm.trans hu), fun hm => (nomatch hk.symm.trans hm),
    fun _ => ⟨hused, hposition⟩⟩

/-- A pin at a newly accepted level has no disagreement (R116). -/
theorem InputConfig.Legal.adopt_disagree {c : InputConfig} (h : c.Legal) (p : Pin) (level : Bool) : (p.adopt level).disagree < c.debounce :=
  lt_of_lt_of_le (show 0 < 2 by decide) h.1

theorem acceptClose_inputsSound (n : Nat) {s : State} (h : s.InputsSound) : (s.whenRunning (State.acceptClose n)).InputsSound := by
  refine onContact_inputsSound (record := fun x => { x with pin := x.pin.adopt x.config.closedHigh, state := .closed, closedCount := 0 })
    (fun x u ho => ?_) (fun x hx ho => ?_) h
  all_goals simp only [ContactInput.momentary, Bool.and_eq_true, decide_eq_true_eq] at ho
  · exact contactClosed_frame (x := { x with pin := x.pin.adopt x.config.closedHigh }) ho.2 n u
  · exact ContactInput.legal_of_momentary hx.config (hx.config.adopt_disagree _ _) (Nat.zero_le _) ho.1 nofun
      (iff_of_false nofun (by simp [Pin.adopt, InputConfig.isClosed_closedHigh]))

theorem acceptOpen_inputsSound (n : Nat) {s : State} (h : s.InputsSound) : (s.whenRunning (State.acceptOpen n)).InputsSound := by
  refine onContact_inputsSound (record := fun x => { x with pin := x.pin.adopt (!x.config.closedHigh), state := .open' })
    (fun x u _ => contactOpened_frame n { x with pin := x.pin.adopt (!x.config.closedHigh) } u) (fun x hx ho => ?_) h
  simp only [ContactInput.momentary, Bool.and_eq_true, decide_eq_true_eq] at ho
  exact ContactInput.legal_of_momentary hx.config (hx.config.adopt_disagree _ _) hx.count ho.1 nofun
    (iff_of_true rfl (x.config.isClosed_not_closedHigh))

/-- A Momentary input that is Closed or Held has the closed position (R117). -/
theorem ContactInput.Legal.shut {x : ContactInput} (h : x.Legal) (hk : x.config.kind = .momentary) (hs : x.state ≠ .open') :
    x.config.isClosed x.pin.level ≠ false := by
  obtain ⟨-, -, -, -, -, hmomentary⟩ := x.legal_iff.1 h
  exact fun ho => hs ((hmomentary hk).2.2 ho)

theorem reachHold_inputsSound (n : Nat) {s : State} (h : s.InputsSound) : (s.whenRunning (State.reachHold n)).InputsSound := by
  refine onContact_inputsSound (record := fun x => { x with state := .held, closedCount := x.config.holdTime })
    (fun x u _ => contactHeld_frame n { x with closedCount := x.config.holdTime } u) (fun x hx ho => ?_) h
  simp only [ContactInput.momentary, Bool.and_eq_true, decide_eq_true_eq] at ho
  obtain ⟨-, -, -, hhold, -⟩ := hx.config
  exact ContactInput.legal_of_momentary hx.config hx.disagree (hhold.trans (by decide)) ho.1 nofun
    (iff_of_false nofun (hx.shut ho.1 (by rw [ho.2]; exact nofun)))

theorem InputState.down_iff (x : InputState) : x.down = true ↔ x = .closed ∨ x = .held := by cases x <;> simp [InputState.down]

theorem reachStuck_inputsSound (n : Nat) {s : State} (h : s.InputsSound) : (s.whenRunning (State.reachStuck n)).InputsSound := by
  refine onContact_inputsSound (record := fun x => { x with state := .stuck, closedCount := x.config.stuckTime * 1000 })
    (fun x u _ => contactStuck_frame n { x with closedCount := x.config.stuckTime * 1000 } u) (fun x hx ho => ?_) h
  simp only [ContactInput.momentary, Bool.and_eq_true, decide_eq_true_eq, InputState.down_iff] at ho
  obtain ⟨⟨hk, hdown⟩, -⟩ := ho
  obtain ⟨-, -, -, -, -, hstuck⟩ := hx.config
  exact ContactInput.legal_of_momentary hx.config hx.disagree (show x.config.stuckTime * 1000 ≤ 600000 by omega) hk nofun
    (iff_of_false nofun (hx.shut hk (by rcases hdown with hs | hs <;> rw [hs] <;> exact nofun)))

theorem turnMaintained_inputsSound (n : Nat) (closed : Bool) {s : State} (h : s.InputsSound) :
    (s.whenRunning (State.turnMaintained n closed)).InputsSound := by
  refine onContact_inputsSound (record := fun x => { x with
      pin := x.pin.adopt (if closed then x.config.closedHigh else !x.config.closedHigh)
      state := if x.config.isClosed (if closed then x.config.closedHigh else !x.config.closedHigh) then .closed else .open' })
    (fun x u _ => contactTurned_frame n { x with pin := x.pin.adopt _ } u) (fun x hx ho => ?_) h
  simp only [Bool.and_eq_true, decide_eq_true_eq] at ho
  exact (ContactInput.legal_iff _).2 ⟨hx.config, hx.config.adopt_disagree _ _, hx.count, fun hu => (nomatch ho.1.symm.trans hu), fun _ => rfl,
    fun hm => (nomatch ho.1.symm.trans hm)⟩

/-! ### Rack link, store, supply and start-up -/

/-- What SAVE copies is within the ranges of R115 (R157). -/
theorem save_inputsSound {s : State} (h : s.InputsSound) : s.save.state.InputsSound := by
  obtain ⟨hconfigs, -, hstore⟩ := id h
  refine h.withStore ?_ ?_ (save_all hstore hconfigs) <;> unfold State.save <;> split <;> rfl

theorem eraseStore_inputsSound {s : State} (h : s.InputsSound) : s.eraseStore.state.InputsSound := by
  obtain ⟨-, -, hstore⟩ := id h
  refine h.withStore ?_ ?_ (eraseStore_all hstore) <;> unfold State.eraseStore <;> split <;> rfl

theorem endSave_inputsSound (verified : Bool) {s : State} (h : s.InputsSound) : (s.endSave verified).InputsSound := by
  obtain ⟨-, -, hstore⟩ := id h
  refine h.withStore ?_ ?_ (endSave_all hstore verified)
  all_goals
    unfold State.endSave
    repeat' split
    all_goals rfl

theorem endErase_inputsSound {s : State} (h : s.InputsSound) : s.endErase.InputsSound := by
  obtain ⟨-, -, hstore⟩ := id h
  refine h.withStore ?_ ?_ (endErase_all hstore) <;> unfold State.endErase <;> split <;> rfl

/-- A part that is stopped keeps the configurations, and no record of it is judged (log 39). -/
theorem stop_inputsSound {p : Phase} (hp : p ≠ .running) {s : State} (h : s.InputsSound) : (s.stop p).InputsSound := by
  obtain ⟨hconfigs, -, hstore⟩ := h
  refine ⟨?_, fun hrun => absurd ?_ hp, stop_all hstore p⟩
  · rw [stop_eq]
    exact hconfigs
  · rw [stop_eq] at hrun
    exact hrun

theorem legalInputs_blank : LegalInputs Stored.blank.inputs :=
  ⟨List.length_replicate, fun _ hc => List.eq_of_mem_replicate (n := Config.contacts) hc ▸ InputConfig.blank_legal⟩

/-- A start-up loads configurations in range (R160 step 2). -/
theorem startUp_inputsSound (cause : StartCause) {s : State} (h : s.InputsSound) : (s.startUp cause).InputsSound := by
  obtain ⟨-, -, hstore⟩ := h
  have hloaded := getD_of (p := fun t : Stored => LegalInputs t.inputs) hstore.1 legalInputs_blank
  refine ⟨?_, fun hrun => ?_, startUp_all hstore cause⟩
  · rw [startUp_eq cause s _ rfl, List.map_map]
    exact (List.map_id _).symm ▸ hloaded
  · rw [startUp_eq cause s _ rfl] at hrun
    cases hrun

/-- At the end of settling every record is adopted within its laws (R122). -/
theorem endSettling_inputsSound {s : State} (h : s.InputsSound) : s.endSettling.InputsSound := by
  obtain ⟨⟨hlength, hlegal⟩, -, hstore⟩ := h
  rw [List.length_map] at hlength
  have hinputs : s.endSettling.inputs = s.inputs.map ContactInput.settled := by rw [endSettling_eq, adoptInputs_eq]; rfl
  have hkept : s.endSettling.store = s.store := by rw [endSettling_eq, adoptInputs_eq]
  have hadopted : ∀ x ∈ s.endSettling.inputs, x.Legal := by
    rw [hinputs]
    exact List.forall_mem_map.2 fun x hx =>
      ContactInput.adopt_legal (x := { x with pin := x.pin.settledAt }) (hlegal x.config (List.mem_map_of_mem hx)) rfl (.inr rfl)
  exact ⟨⟨by rw [hinputs, List.length_map, List.length_map]; exact hlength, List.forall_mem_map.2 fun x hx => (hadopted x hx).config⟩,
    fun _ => hadopted, hkept ▸ hstore⟩

/-- The mode options are not the inputs' (R94). -/
theorem setModeOptions_inputsSound (f : OptionFields) {s : State} (h : s.InputsSound) : (s.setModeOptions f).state.InputsSound := by
  unfold State.setModeOptions
  split <;> exact h

theorem setLinkConfig_inputsSound (period : Nat) {s : State} (h : s.InputsSound) : (s.setLinkConfig period).state.InputsSound := by
  unfold State.setLinkConfig
  split <;> exact h

theorem reachNextStart_inputsSound {s : State} (h : s.InputsSound) : s.reachNextStart.InputsSound := by
  unfold State.reachNextStart
  repeat' split
  all_goals exact h

theorem endFrame_inputsSound {s : State} (h : s.InputsSound) : s.endFrame.InputsSound := by
  unfold State.endFrame
  repeat' split
  all_goals exact h

/-! ### Every command -/

theorem whenRunning_inputsSound {f : State → State} (hf : ∀ s, s.InputsSound → (f s).InputsSound) {s : State} (h : s.InputsSound) :
    (s.whenRunning f).InputsSound := by
  unfold State.whenRunning
  split
  · exact hf s h
  · exact h

theorem complete_inputsSound {i : Instr} {owner : State → Carried} (howner : ∀ s, s.InputsSound → (owner s).state.InputsSound) {s : State}
    (h : s.InputsSound) : (s.complete i owner).InputsSound := complete_keeps (fun _ p hs => hs.withPort p) howner h

/-- A write of a stored table, refused while the store is busy (R157). -/
theorem write_inputsSound {i : Instr} {owner : State → Carried} (howner : ∀ s, s.InputsSound → (owner s).state.InputsSound) {s : State}
    (h : s.InputsSound) : (s.complete i (State.storedWrite owner)).InputsSound :=
  complete_inputsSound (fun u hu => by
    unfold State.storedWrite
    split
    · exact hu
    · exact howner u hu) h

/-- The commands that write the phase, the mode options, the rack link or the store. -/
theorem exec_inputsSound_of_writes {i : Instr} {s t : State} (he : exec i s = .next t) (hw : writesSetup i = true) (h : s.InputsSound) :
    t.InputsSound := by
  cases i <;> cases hw <;> cases he
  case powerOn =>
    split
    · exact stop_inputsSound (p := .held) nofun h
    · exact startUp_inputsSound .powerOn (h.same rfl rfl rfl)
  case resetPinLow =>
    split
    · exact h.same rfl rfl rfl
    · exact (stop_inputsSound (p := .held) nofun h).same rfl rfl rfl
  case resetPinRelease =>
    split
    · exact h.same rfl rfl rfl
    · exact (startUp_inputsSound .pin (s := s.withSpi none) (h.same rfl rfl rfl)).same rfl rfl rfl
  case inputSettlingEnd =>
    split
    · exact endSettling_inputsSound h
    · exact h
  case supplyLost => exact stop_inputsSound (p := .unpowered) nofun h
  case restart =>
    refine requestStep_keeps (fun _ p hs => hs.withPort p) (fun u hu => ?_) h
    split
    · exact hu.withPort _
    · exact startUp_inputsSound .restart hu
  case setModeOptions f => exact write_inputsSound (fun _ => setModeOptions_inputsSound f) h
  case setLinkConfig period => exact write_inputsSound (fun _ => setLinkConfig_inputsSound period) h
  case save => exact complete_inputsSound (fun _ => save_inputsSound) h
  case eraseStore => exact complete_inputsSound (fun _ => eraseStore_inputsSound) h
  case saveOperationEnd verified => exact whenRunning_inputsSound (fun _ => endSave_inputsSound verified) h
  case eraseOperationEnd => exact whenRunning_inputsSound (fun _ => endErase_inputsSound) h
  case frameStart => exact whenRunning_inputsSound (fun _ => reachNextStart_inputsSound) h
  case frameEnd => exact whenRunning_inputsSound (fun _ => endFrame_inputsSound) h

/-- The commands that sample, write or change the contact inputs. -/
theorem exec_inputsSound_of_works {i : Instr} {s t : State} (he : exec i s = .next t) (hi : worksInputs i = true) (h : s.InputsSound) :
    t.InputsSound := by
  cases i <;> cases hi <;> cases he
  case contactSample pins order => exact contactSample_inputsSound pins order h
  case setInputConfig n f => exact write_inputsSound (fun _ => setInputConfig_inputsSound n f) h
  case acceptedClose n => exact acceptClose_inputsSound n h
  case holdTimeReached n => exact reachHold_inputsSound n h
  case stuckTimeReached n => exact reachStuck_inputsSound n h
  case acceptedOpen n => exact acceptOpen_inputsSound n h
  case maintainedChange n closed => exact turnMaintained_inputsSound n closed h

/-- Every command keeps the laws of the contact inputs: the others leave what these look at. -/
theorem exec_inputsSound {i : Instr} {s t : State} (he : exec i s = .next t) (h : s.InputsSound) : t.InputsSound := by
  cases hi : worksInputs i with
  | true => exact exec_inputsSound_of_works he hi h
  | false =>
    cases hw : writesSetup i with
    | true => exact exec_inputsSound_of_writes he hw h
    | false =>
      have hsetup := exec_setup he hw
      exact h.same (congrArg Setup.phase hsetup) (exec_inputs he hi hw) (congrArg Setup.store hsetup)

/-- Settles O10: a sample, a write and each arrival leave a record within its laws, start-up adopts every record within them, and the other
commands leave phase, records and store. -/
theorem everyStepKeepsInputsSound : Obligations.EveryStepKeepsInputsSound := by
  intro s t hs h
  unfold step at h
  split at h
  · cases h; exact hs
  · exact exec_inputsSound h (hs.same rfl rfl rfl)

end Sys2Proof.Machine

namespace Sys2Proof.Machine

/-! ## SET INPUT CONFIG (R120) -/

@[simp] theorem edgeOf_edgeCode (e : Edge) : edgeOf (edgeCode e) = some e := by cases e <;> rfl

/-- Only the cue lines 27 and 28 have an edge (R127, R165). -/
theorem cueOf_eq_none {n : Nat} (h27 : n ≠ 27) (h28 : n ≠ 28) : cueOf n = none := by
  unfold cueOf
  split <;> simp_all

theorem anyContactField_eq_false {f : InputFields} : anyContactField f = false ↔
    f.kind = none ∧ f.pullUp = none ∧ f.polarity = none ∧ f.debounce = none ∧ f.holdTime = none ∧ f.stuckTime = none := by
  simp [anyContactField, and_assoc]

/-- Fields of a cue line are in range where the edge is (R120). -/
theorem inputFieldsInRange_edge {f : InputFields} (h : anyContactField f = false) {e : Edge} (he : f.edge = some (edgeCode e)) :
    inputFieldsInRange f = true := by
  obtain ⟨hkind, hpull, hpolarity, hdebounce, hhold, hstuck⟩ := anyContactField_eq_false.1 h
  rw [inputFieldsInRange_iff, hkind, hpull, hpolarity, hdebounce, hhold, hstuck, he]
  simp

/-- What number names no contact input (R115). -/
theorem contact_eq_none {s : State} {n : Nat} (h : n < 1 ∨ s.inputs.length < n) : s.contact n = none := by
  rw [Option.eq_none_iff_forall_ne_some]
  intro x hx
  obtain ⟨hpos, hle⟩ := contact_range hx
  omega

section
variable {n : Nat} {f : InputFields} {s : State}

/-! ### A contact input -/

theorem setInputConfig_contact {x : ContactInput} (hn : cueOf n = none) (hx : s.contact n = some x) : s.setInputConfig n f =
    if f.edge.isSome then s.refuse .mismatch
    else if inputFieldsInRange f then (s.withContact n (x.configure f)).done [] else s.refuse .range := by
  simp only [State.setInputConfig, hn, hx]

theorem setInputConfig_contact_mismatch {x : ContactInput} (hn : cueOf n = none) (hx : s.contact n = some x) (he : f.edge ≠ none) :
    s.setInputConfig n f = s.refuse .mismatch := by
  rw [setInputConfig_contact hn hx, if_pos (Option.isSome_iff_ne_none.2 he)]

theorem setInputConfig_contact_ok {x : ContactInput} (hn : cueOf n = none) (hx : s.contact n = some x) (he : f.edge = none)
    (hf : inputFieldsInRange f = true) : s.setInputConfig n f = (s.withContact n (x.configure f)).done [] := by
  rw [setInputConfig_contact hn hx, if_neg (by simp [he]), if_pos hf]

theorem setInputConfig_contact_range {x : ContactInput} (hn : cueOf n = none) (hx : s.contact n = some x) (he : f.edge = none)
    (hf : inputFieldsInRange f = false) : s.setInputConfig n f = s.refuse .range := by
  rw [setInputConfig_contact hn hx, if_neg (by simp [he]), if_neg (by simp [hf])]

/-- A number of a safety input or of no input is RANGE. -/
theorem setInputConfig_none (hn : cueOf n = none) (hx : s.contact n = none) : s.setInputConfig n f = s.refuse .range := by
  simp only [State.setInputConfig, hn, hx]

/-! ### A cue line -/

theorem setInputConfig_cue {c : CueLine} (hn : cueOf n = some c) : s.setInputConfig n f =
    if anyContactField f then s.refuse .mismatch
    else if inputFieldsInRange f then (s.withCue c { s.cue c with edge := (f.edge.bind edgeOf).getD (s.cue c).edge }).done []
    else s.refuse .range := by
  simp only [State.setInputConfig, hn]

theorem setInputConfig_cue_mismatch {c : CueLine} (hn : cueOf n = some c) (ha : anyContactField f = true) :
    s.setInputConfig n f = s.refuse .mismatch := by
  rw [setInputConfig_cue hn, if_pos ha]

theorem setInputConfig_cue_ok {c : CueLine} (hn : cueOf n = some c) (ha : anyContactField f = false) {e : Edge}
    (he : f.edge = some (edgeCode e)) : s.setInputConfig n f = (s.withCue c { s.cue c with edge := e }).done [] := by
  rw [setInputConfig_cue hn, if_neg (by simp [ha]), if_pos (inputFieldsInRange_edge ha he), he, Option.bind_some, edgeOf_edgeCode,
    Option.getD_some]

theorem setInputConfig_cue_range {c : CueLine} (hn : cueOf n = some c) (ha : anyContactField f = false) (hf : inputFieldsInRange f = false) :
    s.setInputConfig n f = s.refuse .range := by
  rw [setInputConfig_cue hn, if_neg (by simp [ha]), if_neg (by simp [hf])]

end

theorem withContact_frame (n : Nat) (y : ContactInput) (s : State) :
    s.withContact n y = { s with inputs := (s.withContact n y).inputs } := by
  unfold State.withContact
  split <;> rfl

/-- The state a configured input adopts, for its kind and accepted level (R120). -/
theorem ContactInput.configure_state (f : InputFields) (x : ContactInput) : (x.configure f).state =
    match (x.config.withFields f).kind with
    | .unused => .unused
    | _ => if (x.config.withFields f).isClosed x.pin.level then .closed else .open' := by
  simp only [ContactInput.configure, ContactInput.adopt]
  cases (x.config.withFields f).kind <;> rfl

/-- Settles O52: each branch of the write under its own case, where a contact input takes `ContactInput.configure`. -/
theorem inputsAreConfiguredWithoutEvents : Obligations.InputsAreConfiguredWithoutEvents := by
  refine ⟨fun n f s hserves hready => ⟨fun x hn hx => ?_, fun c hc => ⟨fun ha => ?_, fun e ha he => ?_⟩⟩,
    fun n f s hserves hready hlength => ⟨fun hn => ?_, fun hpos hn he hf => ?_, fun hn ha hf => ?_⟩⟩
  · have hcue : cueOf n = none := cueOf_eq_none (by omega) (by omega)
    have hacc : (s.accept (.setInputConfig n f)).contact n = some x := hx
    refine ⟨fun he => write_refuses hserves hready rfl (setInputConfig_contact_mismatch hcue hacc he), fun he hf => ?_⟩
    refine ⟨_, x.configure f, write_completes hserves hready rfl (setInputConfig_contact_ok hcue hacc he hf) ?_, ?_,
      contact_withContact_self hacc (x.configure f), fun m hm => contact_withContact_of_ne hm (x.configure f) (s.accept _), rfl, rfl, rfl, rfl,
      x.configure_state f⟩
    · rw [withContact_frame]
    · rw [withContact_frame]; rfl
  · exact write_refuses hserves hready rfl (setInputConfig_cue_mismatch hc ha)
  · refine ⟨_, write_completes hserves hready rfl (setInputConfig_cue_ok (s := s.accept _) hc ha he) ?_, ?_⟩ <;> cases c <;> rfl
  · have hcue : cueOf n = none := cueOf_eq_none (by omega) (by omega)
    exact write_refuses hserves hready rfl (setInputConfig_none hcue (contact_eq_none (by rw [accept_inputs]; omega)))
  · have hcue : cueOf n = none := cueOf_eq_none (by omega) (by omega)
    obtain ⟨x, hx⟩ : ∃ x, s.inputs[n - 1]? = some x := ⟨_, List.getElem?_eq_getElem (by omega)⟩
    have hacc : (s.accept (.setInputConfig n f)).contact n = some x := contact_eq_some_iff.2 ⟨by omega, hx⟩
    exact write_refuses hserves hready rfl (setInputConfig_contact_range hcue hacc he hf)
  · obtain ⟨c, hc⟩ : ∃ c, cueOf n = some c := by rcases hn with rfl | rfl <;> exact ⟨_, rfl⟩
    exact write_refuses hserves hready rfl (setInputConfig_cue_range hc ha hf)

end Sys2Proof.Machine

namespace Sys2Proof.Machine

/-! ## The arrivals at a contact input (R117 to R119; log 7) -/

section
variable {n : Nat} {x : ContactInput} {s : State}

/-- An arrival that finds its occasion at a running part. -/
theorem exec_of_occasion {i : Instr} {occasion : ContactInput → Bool} {f : ContactInput → State → State}
    (he : exec i s = .next (s.whenRunning (State.onContact n occasion f))) (hrun : s.phase = .running) (hx : s.contact n = some x)
    (ho : occasion x = true) {t : State} (ht : f x s = t) : exec i s = .next t := by
  rw [he, whenRunning_running hrun, ← ht]
  simp only [State.onContact, hx, ho, if_true]

/-- An accepted close (R117). -/
theorem exec_acceptedClose (hrun : s.phase = .running) (hx : s.contact n = some x) (hk : x.config.kind = .momentary) (hs : x.state = .open') :
    exec (.acceptedClose n) s = .next (s.contactClosed n { x with pin := x.pin.adopt x.config.closedHigh }) :=
  exec_of_occasion rfl hrun hx (by simp [ContactInput.momentary, hk, hs]) rfl

/-- The hold time is reached (R117). -/
theorem exec_holdTimeReached (hrun : s.phase = .running) (hx : s.contact n = some x) (hk : x.config.kind = .momentary)
    (hs : x.state = .closed) : exec (.holdTimeReached n) s = .next (s.contactHeld n { x with closedCount := x.config.holdTime }) :=
  exec_of_occasion rfl hrun hx (by simp [ContactInput.momentary, hk, hs]) rfl

/-- The stuck time is reached (R118). -/
theorem exec_stuckTimeReached (hrun : s.phase = .running) (hx : s.contact n = some x) (hk : x.config.kind = .momentary)
    (hs : x.state = .closed ∨ x.state = .held) (ht : x.config.stuckTime ≠ 0) :
    exec (.stuckTimeReached n) s = .next (s.contactStuck n { x with closedCount := x.config.stuckTime * 1000 }) :=
  exec_of_occasion rfl hrun hx (by simpa [ContactInput.momentary, hk, ht] using (InputState.down_iff _).2 hs) rfl

/-- An accepted open (R118). -/
theorem exec_acceptedOpen (hrun : s.phase = .running) (hx : s.contact n = some x) (hk : x.config.kind = .momentary)
    (hs : x.state = .closed ∨ x.state = .held ∨ x.state = .stuck) :
    exec (.acceptedOpen n) s = .next (s.contactOpened n { x with pin := x.pin.adopt (!x.config.closedHigh) }) :=
  exec_of_occasion rfl hrun hx (by simpa [ContactInput.momentary, hk, InputState.down_iff, or_assoc] using hs) rfl

/-- An accepted change of a Maintained input (R119). -/
theorem exec_maintainedChange {closed : Bool} (hrun : s.phase = .running) (hx : s.contact n = some x) (hk : x.config.kind = .maintained)
    (hc : x.config.isClosed x.pin.level ≠ closed) : exec (.maintainedChange n closed) s
      = .next (s.contactTurned n { x with pin := x.pin.adopt (if closed then x.config.closedHigh else !x.config.closedHigh) }) :=
  exec_of_occasion rfl hrun hx (by simp [hk, hc]) rfl

/-! ### What each brings -/

theorem contactClosed_open (h : x.state = .open') :
    s.contactClosed n x = (s.withContact n { x with state := .closed, closedCount := 0 }).resolve (.contact n) .press := if_pos h

theorem contactOpened_down (h : x.state = .closed ∨ x.state = .held) :
    s.contactOpened n x = (s.withContact n { x with state := .open' }).resolve (.contact n) .release :=
  if_pos ((InputState.down_iff _).2 h)

theorem contactOpened_stuck (h : x.state = .stuck) : s.contactOpened n x = s.withContact n { x with state := .open' } :=
  if_neg (by rw [h]; exact nofun)

theorem contactTurned_closed (h : x.config.isClosed x.pin.level = true) :
    s.contactTurned n x = (s.withContact n { x with state := .closed }).resolve (.contact n) .close := if_pos h

theorem contactTurned_open (h : x.config.isClosed x.pin.level = false) :
    s.contactTurned n x = (s.withContact n { x with state := .open' }).resolve (.contact n) .open' := if_neg (by simp [h])

/-- A Stuck input ends the movement that its own presses started (R118). -/
theorem contactStuck_eq (n : Nat) (x : ContactInput) (s : State) : s.contactStuck n x = { s.withContact n { x with state := .stuck } with
    circuits := s.circuits.map (Circuit.endMovement (pickKey (.contact n))), port := s.port.raise .inputStuck } := by
  rw [State.contactStuck, withContact_frame]
  rfl

end

/-- Settles O53: the equation of each arrival, then that of what its change of state brings. -/
theorem contactArrivalsBringTheirEvents : Obligations.ContactArrivalsBringTheirEvents := by
  intro n x s hrun hx
  refine ⟨fun hk => ⟨fun hs => ⟨_, exec_acceptedClose hrun hx hk hs, contactClosed_open hs⟩,
    fun hs => ⟨_, exec_holdTimeReached hrun hx hk hs, rfl⟩,
    fun hs ht => ⟨_, exec_stuckTimeReached hrun hx hk hs ht, contactStuck_eq n _ s⟩,
    fun hs => ⟨_, exec_acceptedOpen hrun hx hk (hs.imp_right .inl), contactOpened_down hs⟩,
    fun hs => ⟨_, exec_acceptedOpen hrun hx hk (.inr (.inr hs)), contactOpened_stuck hs⟩⟩,
    fun hk => ⟨fun hc => ⟨_, exec_maintainedChange hrun hx hk (by simp [hc]), ?_⟩,
      fun hc => ⟨_, exec_maintainedChange hrun hx hk (by simp [hc]), ?_⟩⟩⟩
  · exact contactTurned_closed x.config.isClosed_closedHigh
  · exact contactTurned_open x.config.isClosed_not_closedHigh

end Sys2Proof.Machine

namespace Sys2Proof.Machine

/-! ## The order of a sample (R116; log 6) -/

/-- The inputs an order names, each once, behind those already taken. -/
def namedInputs (taken order : List Nat) : List Nat := order.foldl (fun l n => if n ∈ allInputs ∧ n ∉ l then l ++ [n] else l) taken

theorem sampleOrder_eq (order : List Nat) :
    sampleOrder order = namedInputs [] order ++ allInputs.filter fun n => decide (n ∉ namedInputs [] order) := rfl

theorem namedInputs_nodup (order : List Nat) : (namedInputs [] order).Nodup ∧ ∀ n ∈ namedInputs [] order, n ∈ allInputs := by
  refine List.foldlRecOn (motive := fun l : List Nat => l.Nodup ∧ ∀ n ∈ l, n ∈ allInputs) order _ ⟨.nil, nofun⟩
    fun l ⟨hl, hall⟩ n _ => ?_
  split
  · next h =>
    obtain ⟨hn, hnew⟩ := h
    exact ⟨List.nodup_append.2 ⟨hl, List.nodup_singleton n, by simpa using fun m hm (he : m = n) => hnew (he ▸ hm)⟩,
      by simpa [or_imp, forall_and] using ⟨hall, hn⟩⟩
  · exact ⟨hl, hall⟩

/-- An order of inputs without a repetition is named as it stands. -/
theorem namedInputs_eq {taken order : List Nat} (hnodup : (taken ++ order).Nodup) (hall : ∀ n ∈ order, n ∈ allInputs) :
    namedInputs taken order = taken ++ order := by
  induction order generalizing taken with
  | nil => simp [namedInputs]
  | cons n order ih =>
    have hnew : n ∉ taken := fun hn => (List.nodup_append.1 hnodup).2.2 n hn n List.mem_cons_self rfl
    have hstep : namedInputs taken (n :: order) = namedInputs (taken ++ [n]) order := by
      rw [namedInputs, List.foldl_cons, if_pos ⟨hall n List.mem_cons_self, hnew⟩]
      rfl
    rw [hstep, ih (by simpa using hnodup) fun m hm => hall m (List.mem_cons_of_mem n hm), List.append_assoc]
    rfl

theorem allInputs_nodup : allInputs.Nodup := List.nodup_range'

/-- Every input takes one turn (R116). -/
theorem sampleOrder_perm (order : List Nat) : (sampleOrder order).Perm allInputs := by
  obtain ⟨hnodup, hall⟩ := namedInputs_nodup order
  have hrest : (allInputs.filter fun n => decide (n ∉ namedInputs [] order)).Nodup := allInputs_nodup.filter _
  rw [sampleOrder_eq]
  refine (List.perm_ext_iff_of_nodup (List.nodup_append.2 ⟨hnodup, hrest, ?_⟩) allInputs_nodup).2 fun n => ?_
  · rintro n hn m hm rfl
    exact of_decide_eq_true (List.mem_filter.1 hm).2 hn
  · simp only [List.mem_append, List.mem_filter, decide_eq_true_eq]
    refine ⟨fun h => h.elim (hall n) And.left, fun hn => ?_⟩
    by_cases hnamed : n ∈ namedInputs [] order
    · exact .inl hnamed
    · exact .inr ⟨hn, hnamed⟩

theorem mem_allInputs {n : Nat} : n ∈ allInputs ↔ 1 ≤ n ∧ n ≤ 28 := by
  simp [allInputs, Config.inputs, List.mem_range'_1]
  omega

theorem sampleOrder_prefix {order : List Nat} (hnodup : order.Nodup) (hall : ∀ n ∈ order, n ∈ allInputs) : order <+: sampleOrder order := by
  rw [sampleOrder_eq, namedInputs_eq (taken := []) hnodup hall]
  exact List.prefix_append _ _

/-! ## Each record under a sample (R116, R123, R127) -/

theorem EventFrame.safe1 {s t : State} (h : EventFrame s t) : t.safe1 = s.safe1 := by rw [h.state]
theorem EventFrame.safe2 {s t : State} (h : EventFrame s t) : t.safe2 = s.safe2 := by rw [h.state]
theorem EventFrame.cue1 {s t : State} (h : EventFrame s t) : t.cue1 = s.cue1 := by rw [h.state]
theorem EventFrame.cue2 {s t : State} (h : EventFrame s t) : t.cue2 = s.cue2 := by rw [h.state]

/-- A contact input's sample leaves the safety and cue pins. -/
theorem sampleContact_otherPins (n : Nat) (level : Bool) (s : State) : (s.sampleContact n level).safe1 = s.safe1
    ∧ (s.sampleContact n level).safe2 = s.safe2 ∧ (s.sampleContact n level).cue1 = s.cue1 ∧ (s.sampleContact n level).cue2 = s.cue2 := by
  cases hx : s.contact n with
  | none => simp only [State.sampleContact, hx, and_self]
  | some x =>
    have h := sampleContact_frame hx level
    rw [h.safe1, h.safe2, h.cue1, h.cue2, withContact_frame]
    exact ⟨rfl, rfl, rfl, rfl⟩

/-- A contact input's sample makes its own record and leaves the others (R116). -/
theorem sampleContact_contact (n m : Nat) (level : Bool) (s : State) :
    (s.sampleContact n level).contact m = if n = m then (s.contact m).map (ContactInput.sampled level) else s.contact m := by
  cases hx : s.contact n with
  | none =>
    have hnone : s.sampleContact n level = s := by simp only [State.sampleContact, hx]
    rw [hnone]
    split
    · next h => rw [← h, hx]; rfl
    · rfl
  | some x =>
    rw [(sampleContact_frame hx level).contact]
    split
    · next h => rw [← h, contact_withContact_self hx, hx]; rfl
    · next h => rw [contact_withContact_of_ne (Ne.symm h)]

/-- A safety input's sample makes its pin (R123); what else it does is to the circuits and the port. -/
theorem sampleSafe_frame (i : SafeInput) (level : Bool) (s : State) : s.sampleSafe i level =
    { s.withSafePin i ((s.safePin i).sample 20 level) with
      circuits := (s.sampleSafe i level).circuits, port := (s.sampleSafe i level).port } := by
  unfold State.sampleSafe
  split
  · next ht =>
    rw [Pin.sample_of_turns ((Pin.accepts_iff _ _ _).1 ht)]
    cases level <;> cases i <;> rfl
  · cases i <;> rfl

/-- A cue line's sample makes its pin (R127). -/
theorem sampleCue_frame (c : CueLine) (level : Bool) (s : State) :
    CueFrame (s.withCue c { s.cue c with pin := (s.cue c).pin.sample 5 level }) (s.sampleCue c level) := by
  unfold State.sampleCue
  dsimp only
  split
  · exact cueArrives_frame c _
  · rfl

section
variable (pins : BitVec 28)

theorem sampleInput_contact {n : Nat} (h : n ≤ 24) (s : State) : s.sampleInput pins n = s.sampleContact n (pins.getLsbD (n - 1)) := by
  rw [State.sampleInput, if_neg (by omega), if_neg (by omega), if_neg (by omega), if_neg (by omega)]

/-- A turn of the sample makes the record of the input whose turn it is: contact inputs. -/
theorem sampleInput_contact_eq {m : Nat} (hm : m ≤ 24) (s : State) (n : Nat) : (s.sampleInput pins n).contact m =
    if n = m then (s.contact m).map (ContactInput.sampled (pins.getLsbD (m - 1))) else s.contact m := by
  have hother (hn : 24 < n) (hinputs : (s.sampleInput pins n).inputs = s.inputs) : (s.sampleInput pins n).contact m =
      if n = m then (s.contact m).map (ContactInput.sampled (pins.getLsbD (m - 1))) else s.contact m := by
    rw [if_neg (by omega), State.contact, State.contact, hinputs]
  by_cases h25 : n = 25
  · exact hother (by omega) (by rw [h25]; exact sampleSafe_inputs .safe1 _ s)
  by_cases h26 : n = 26
  · exact hother (by omega) (by rw [h26]; exact sampleSafe_inputs .safe2 _ s)
  by_cases h27 : n = 27
  · exact hother (by omega) (by rw [h27]; exact sampleCue_inputs .cue1 _ s)
  by_cases h28 : n = 28
  · exact hother (by omega) (by rw [h28]; exact sampleCue_inputs .cue2 _ s)
  · rw [State.sampleInput, if_neg h25, if_neg h26, if_neg h27, if_neg h28, sampleContact_contact]
    split
    · next h => rw [h]
    · rfl

/-- A turn of the sample makes the record of the input whose turn it is: safety inputs and cue lines. -/
theorem sampleInput_pins (s : State) (n : Nat) :
    (s.sampleInput pins n).safe1 = (if n = 25 then s.safe1.sample 20 (pins.getLsbD 24) else s.safe1)
    ∧ (s.sampleInput pins n).safe2 = (if n = 26 then s.safe2.sample 20 (pins.getLsbD 25) else s.safe2)
    ∧ (s.sampleInput pins n).cue1 = (if n = 27 then { s.cue1 with pin := s.cue1.pin.sample 5 (pins.getLsbD 26) } else s.cue1)
    ∧ (s.sampleInput pins n).cue2 = (if n = 28 then { s.cue2 with pin := s.cue2.pin.sample 5 (pins.getLsbD 27) } else s.cue2) := by
  by_cases h25 : n = 25
  · rw [h25, show s.sampleInput pins 25 = s.sampleSafe .safe1 (pins.getLsbD 24) from rfl, sampleSafe_frame]
    exact ⟨rfl, rfl, rfl, rfl⟩
  by_cases h26 : n = 26
  · rw [h26, show s.sampleInput pins 26 = s.sampleSafe .safe2 (pins.getLsbD 25) from rfl, sampleSafe_frame]
    exact ⟨rfl, rfl, rfl, rfl⟩
  by_cases h27 : n = 27
  · rw [h27, show s.sampleInput pins 27 = s.sampleCue .cue1 (pins.getLsbD 26) from rfl, sampleCue_frame]
    exact ⟨rfl, rfl, rfl, rfl⟩
  by_cases h28 : n = 28
  · rw [h28, show s.sampleInput pins 28 = s.sampleCue .cue2 (pins.getLsbD 27) from rfl, sampleCue_frame]
    exact ⟨rfl, rfl, rfl, rfl⟩
  · rw [State.sampleInput]
    simp only [if_neg h25, if_neg h26, if_neg h27, if_neg h28]
    exact sampleContact_otherPins n _ s

end

/-- What one member of a list without repetitions does to a part of the state that the others leave. -/
theorem foldl_view_once {σ β : Type} {f : σ → Nat → σ} {view : σ → β} {g : β → β} {m : Nat}
    (h : ∀ s n, view (f s n) = if n = m then g (view s) else view s) {l : List Nat} (hl : l.Nodup) (hm : m ∈ l) (s : σ) :
    view (l.foldl f s) = g (view s) := by
  have hother (k : List Nat) (hk : m ∉ k) (t : σ) : view (k.foldl f t) = view t := by
    induction k generalizing t with
    | nil => rfl
    | cons n k ih =>
      rw [List.mem_cons, not_or] at hk
      rw [List.foldl_cons, ih hk.2, h, if_neg (Ne.symm hk.1)]
  induction l generalizing s with
  | nil => cases hm
  | cons n l ih =>
    obtain ⟨hn, hl⟩ := List.nodup_cons.1 hl
    rw [List.foldl_cons]
    by_cases he : n = m
    · subst he
      rw [hother l hn, h, if_pos rfl]
    · rw [ih hl ((List.mem_cons.1 hm).resolve_left (Ne.symm he)), h, if_neg he]

/-! ## A sample of the running part (R116) -/

/-- The view of one input after all have taken their turn, where a turn works on that view alone. -/
theorem sampleAll_view {β : Type} {view : State → β} {g : β → β} {pins : BitVec 28} {m : Nat} (hpos : 1 ≤ m) (hle : m ≤ 28)
    (h : ∀ (s : State) n, view (s.sampleInput pins n) = if n = m then g (view s) else view s) (order : List Nat) (s : State) :
    view (s.sampleAll pins order) = g (view s) :=
  foldl_view_once h ((sampleOrder_perm order).nodup_iff.2 allInputs_nodup) ((sampleOrder_perm order).mem_iff.2 (mem_allInputs.2 ⟨hpos, hle⟩)) s

section
variable (pins : BitVec 28) (order : List Nat) (s : State)

theorem sampleAll_contact {m : Nat} (hpos : 1 ≤ m) (hle : m ≤ 24) :
    (s.sampleAll pins order).contact m = (s.contact m).map (ContactInput.sampled (pins.getLsbD (m - 1))) :=
  sampleAll_view (view := fun s => s.contact m) hpos (by omega) (fun s n => sampleInput_contact_eq pins hle s n) order s

theorem sampleAll_safe1 : (s.sampleAll pins order).safe1 = s.safe1.sample 20 (pins.getLsbD 24) :=
  sampleAll_view (view := State.safe1) (g := fun p => p.sample 20 (pins.getLsbD 24)) (m := 25) (by decide) (by decide)
    (fun s n => have ⟨h, _⟩ := sampleInput_pins pins s n; h) order s

theorem sampleAll_safe2 : (s.sampleAll pins order).safe2 = s.safe2.sample 20 (pins.getLsbD 25) :=
  sampleAll_view (view := State.safe2) (g := fun p => p.sample 20 (pins.getLsbD 25)) (m := 26) (by decide) (by decide)
    (fun s n => have ⟨_, h, _⟩ := sampleInput_pins pins s n; h) order s

theorem sampleAll_cue1 : (s.sampleAll pins order).cue1 = { s.cue1 with pin := s.cue1.pin.sample 5 (pins.getLsbD 26) } :=
  sampleAll_view (view := State.cue1) (g := fun c => { c with pin := c.pin.sample 5 (pins.getLsbD 26) }) (m := 27) (by decide) (by decide)
    (fun s n => have ⟨_, _, h, _⟩ := sampleInput_pins pins s n; h) order s

theorem sampleAll_cue2 : (s.sampleAll pins order).cue2 = { s.cue2 with pin := s.cue2.pin.sample 5 (pins.getLsbD 27) } :=
  sampleAll_view (view := State.cue2) (g := fun c => { c with pin := c.pin.sample 5 (pins.getLsbD 27) }) (m := 28) (by decide) (by decide)
    (fun s n => have ⟨_, _, _, h⟩ := sampleInput_pins pins s n; h) order s

end

/-! ## A sample while the inputs settle (R122) -/

theorem Pin.settle_settlesTo (p : Pin) (count : Nat) (level : Bool) : p.SettlesTo count level (p.settle count level) := by
  refine ⟨fun h => if_pos h, fun h => ?_⟩
  rw [Pin.settle, if_neg (by simp [h])]
  exact ⟨rfl, rfl, rfl, decide_eq_true_iff⟩

/-- The record of contact input `n` after a sample of step 4 of start-up. -/
theorem settleContacts_contact {s t : State} {pins : BitVec 28} (ht : t.inputs = settleContacts pins 1 s.inputs) {n : Nat} {x : ContactInput}
    (hx : s.contact n = some x) : t.contact n = some { x with pin := x.pin.settle x.config.debounce (pins.getLsbD (n - 1)) } := by
  obtain ⟨hn, hx⟩ := contact_eq_some_iff.1 hx
  rw [contact_eq_some_iff, ht, settleContacts_getElem?, hx, Nat.add_sub_cancel_left]
  exact ⟨hn, rfl⟩

/-! ## What the turn of a contact input brings (R117 to R119) -/

theorem InputConfig.isClosed_eq_true {c : InputConfig} {level : Bool} : c.isClosed level = true ↔ level = c.closedHigh := by
  simp [InputConfig.isClosed]

theorem InputConfig.isClosed_eq_false {c : InputConfig} {level : Bool} : c.isClosed level = false ↔ level = !c.closedHigh := by
  cases level <;> simp [InputConfig.isClosed]

section
variable {n : Nat} {x : ContactInput} {s : State}

theorem contactHeld_withContact (y : ContactInput) : (s.withContact n y).contactHeld n x = s.contactHeld n x := by
  rw [State.contactHeld, withContact_withContact, State.contactHeld]

theorem contactStuck_withContact (y : ContactInput) : (s.withContact n y).contactStuck n x = s.contactStuck n x := by
  rw [State.contactStuck, withContact_withContact, State.contactStuck]

/-- The sample that brings the closed count to the hold time (R117). -/
theorem contactCounted_holds (hs : x.state = .closed) (hcount : x.closedCount + 1 = x.config.holdTime) (hle : x.config.holdTime ≤ 3000) :
    s.contactCounted n x = s.contactHeld n { x with closedCount := x.config.holdTime } := by
  have hmin : min (x.closedCount + 1) Config.closedMax = x.config.holdTime := by
    rw [hcount]; exact Nat.min_eq_left (hle.trans (by decide))
  simp only [State.contactCounted, hs, InputState.down, hmin, le_refl, and_self, if_true]

/-- The sample that brings the closed count of a Held input to the stuck time (R118). -/
theorem contactCounted_sticks (hs : x.state = .held) (hcount : x.closedCount + 1 = x.config.stuckTime * 1000) (hle : x.config.stuckTime ≤ 600) :
    s.contactCounted n x = s.contactStuck n { x with closedCount := x.config.stuckTime * 1000 } := by
  have hmin : min (x.closedCount + 1) Config.closedMax = x.config.stuckTime * 1000 := by
    rw [hcount]; exact Nat.min_eq_left (show _ ≤ 600000 by omega)
  have hne : x.config.stuckTime ≠ 0 := by omega
  simp only [State.contactCounted, hs, InputState.down, hmin, le_refl, hne, ne_eq, not_false_eq_true, and_self, if_true, reduceCtorEq,
    false_and, if_false]

/-- A sample on which neither time is reached writes the record and no more (R117, R118). -/
theorem contactCounted_rests (hhold : x.state = .closed → x.closedCount + 1 < x.config.holdTime ∧ x.config.holdTime ≤ 3000)
    (hstuck : x.state = .closed ∨ x.state = .held →
      x.config.stuckTime = 0 ∨ min (x.closedCount + 1) 600000 < x.config.stuckTime * 1000) :
    s.contactCounted n x = s.withContact n x.counted := by
  unfold State.contactCounted ContactInput.counted
  by_cases hdown : x.state.down
  · have hshort : ¬(x.state = .closed ∧ x.config.holdTime ≤ min (x.closedCount + 1) Config.closedMax) := fun ⟨hc, hle⟩ =>
      absurd (hle.trans (Nat.min_le_left _ _)) (Nat.not_le.2 (hhold hc).1)
    have hfree : ¬(x.config.stuckTime ≠ 0 ∧ x.config.stuckTime * 1000 ≤ min (x.closedCount + 1) Config.closedMax) := fun ⟨hne, hle⟩ =>
      (hstuck ((InputState.down_iff _).1 hdown)).elim hne hle.not_gt
    simp only [if_pos hdown, if_neg hshort, if_neg hfree]
  · simp only [if_neg hdown]

variable {pins : BitVec 28}

/-- The turn that accepts a close is an accepted close (R117). -/
theorem acceptedClose_eq_sampleInput (hrun : s.phase = .running) (hx : s.contact n = some x) (hn : n ≤ 24) (hk : x.config.kind = .momentary)
    (ht : x.pin.Turns x.config.debounce (pins.getLsbD (n - 1))) (hc : x.config.isClosed (pins.getLsbD (n - 1)) = true)
    (hs : x.state = .open') : exec (.acceptedClose n) s = .next (s.sampleInput pins n) := by
  rw [sampleInput_contact pins hn, sampleContact_closes hx hk ht hc, exec_acceptedClose hrun hx hk hs, InputConfig.isClosed_eq_true.1 hc]

/-- The turn that accepts an open is an accepted open (R118). -/
theorem acceptedOpen_eq_sampleInput (hrun : s.phase = .running) (hx : s.contact n = some x) (hn : n ≤ 24) (hk : x.config.kind = .momentary)
    (ht : x.pin.Turns x.config.debounce (pins.getLsbD (n - 1))) (hc : x.config.isClosed (pins.getLsbD (n - 1)) = false)
    (hs : x.state = .closed ∨ x.state = .held ∨ x.state = .stuck) : exec (.acceptedOpen n) s = .next (s.sampleInput pins n) := by
  rw [sampleInput_contact pins hn, sampleContact_opens hx hk ht hc, exec_acceptedOpen hrun hx hk hs, InputConfig.isClosed_eq_false.1 hc]

/-- The turn on which the hold time is reached (R117). -/
theorem holdTimeReached_eq_sampleInput {q : Pin} (hrun : s.phase = .running) (hx : s.contact n = some x) (hn : n ≤ 24)
    (hk : x.config.kind = .momentary) (ht : ¬x.pin.Turns x.config.debounce (pins.getLsbD (n - 1)))
    (hq : x.pin.SamplesTo x.config.debounce (pins.getLsbD (n - 1)) q) (hs : x.state = .closed)
    (hcount : x.closedCount + 1 = x.config.holdTime) (hle : x.config.holdTime ≤ 3000) :
    exec (.holdTimeReached n) (s.withContact n { x with pin := q }) = .next (s.sampleInput pins n) := by
  have hrun' (y : ContactInput) : (s.withContact n y).phase = .running := by rw [withContact_frame]; exact hrun
  rw [sampleInput_contact pins hn, sampleContact_counts hx hk ht, ← hq.eq_sample,
    contactCounted_holds (x := { x with pin := q }) hs hcount hle,
    exec_holdTimeReached (x := { x with pin := q }) (hrun' _) (contact_withContact_self hx _) hk hs, contactHeld_withContact]

/-- The turn on which the stuck time of a Held input is reached (R118). -/
theorem stuckTimeReached_eq_sampleInput {q : Pin} (hrun : s.phase = .running) (hx : s.contact n = some x) (hn : n ≤ 24)
    (hk : x.config.kind = .momentary) (ht : ¬x.pin.Turns x.config.debounce (pins.getLsbD (n - 1)))
    (hq : x.pin.SamplesTo x.config.debounce (pins.getLsbD (n - 1)) q) (hs : x.state = .held)
    (hcount : x.closedCount + 1 = x.config.stuckTime * 1000) (hle : x.config.stuckTime ≤ 600) :
    exec (.stuckTimeReached n) (s.withContact n { x with pin := q }) = .next (s.sampleInput pins n) := by
  have hrun' (y : ContactInput) : (s.withContact n y).phase = .running := by rw [withContact_frame]; exact hrun
  have hne : x.config.stuckTime ≠ 0 := by omega
  rw [sampleInput_contact pins hn, sampleContact_counts hx hk ht, ← hq.eq_sample,
    contactCounted_sticks (x := { x with pin := q }) hs hcount hle,
    exec_stuckTimeReached (x := { x with pin := q }) (hrun' _) (contact_withContact_self hx _) hk (.inr hs) hne, contactStuck_withContact]

/-- The turn that accepts a change of a Maintained input is that change (R119). -/
theorem maintainedChange_eq_sampleInput (hrun : s.phase = .running) (hx : s.contact n = some x) (hn : n ≤ 24)
    (hk : x.config.kind = .maintained) (ht : x.pin.Turns x.config.debounce (pins.getLsbD (n - 1))) :
    exec (.maintainedChange n (x.config.isClosed (pins.getLsbD (n - 1)))) s = .next (s.sampleInput pins n) := by
  have hchanges : x.config.isClosed x.pin.level ≠ x.config.isClosed (pins.getLsbD (n - 1)) := by
    rw [InputConfig.isClosed_of_ne ht.1]
    cases x.config.isClosed x.pin.level <;> simp
  have hlevel : (if x.config.isClosed (pins.getLsbD (n - 1)) then x.config.closedHigh else !x.config.closedHigh) = pins.getLsbD (n - 1) := by
    split
    · next hc => exact (InputConfig.isClosed_eq_true.1 hc).symm
    · next hc => exact (InputConfig.isClosed_eq_false.1 (by simpa using hc)).symm
  rw [sampleInput_contact pins hn, sampleContact_maintained_turns hx hk ht, exec_maintainedChange hrun hx hk hchanges, hlevel]

/-- A turn that brings nothing writes the record (R116 to R119). -/
theorem sampleInput_rests (hx : s.contact n = some x) (hn : n ≤ 24)
    (hk : x.config.kind = .unused ∨ ¬x.pin.Turns x.config.debounce (pins.getLsbD (n - 1)))
    (hhold : x.config.kind = .momentary → x.state = .closed → x.closedCount + 1 < x.config.holdTime ∧ x.config.holdTime ≤ 3000)
    (hstuck : x.config.kind = .momentary → x.state = .closed ∨ x.state = .held →
      x.config.stuckTime = 0 ∨ min (x.closedCount + 1) 600000 < x.config.stuckTime * 1000) :
    s.sampleInput pins n = s.withContact n (x.sampled (pins.getLsbD (n - 1))) := by
  rw [sampleInput_contact pins hn]
  cases hkind : x.config.kind with
  | unused =>
    rw [sampleContact_unused hx hkind]
    simp [ContactInput.sampled, hkind]
  | maintained =>
    have ht := hk.resolve_left (by simp [hkind])
    rw [sampleContact_maintained_stays hx hkind ht, ContactInput.sampled_of_stays ht, hkind, if_neg nofun]
  | momentary =>
    have ht := hk.resolve_left (by simp [hkind])
    rw [sampleContact_counts hx hkind ht, ContactInput.sampled_of_stays ht, hkind, if_pos rfl]
    exact contactCounted_rests (x := { x with pin := x.pin.sample x.config.debounce (pins.getLsbD (n - 1)) }) (hhold hkind) (hstuck hkind)

end

/-! ## What the turn of a safety input or a cue line brings (R123, R127) -/

theorem asserted_has (s : State) (i : SafeInput) : s.asserted.has i = (s.safePin i).level := by cases i <;> rfl

/-- An accepted change to open (R124; log 7). -/
theorem exec_safeAssert {i : SafeInput} {s : State} (hrun : s.phase = .running) (h : s.asserted.has i = false) :
    exec (.safeAssert i) s = .next (s.assertInput i) := by
  rw [show exec (.safeAssert i) s = .next (s.whenRunning fun t => if t.asserted.has i then t else t.assertInput i) from rfl,
    whenRunning_running hrun, if_neg (by simp [h])]

/-- An accepted change to closed (R125; log 7). -/
theorem exec_safeDeassert {i : SafeInput} {s : State} (hrun : s.phase = .running) (h : s.asserted.has i = true) :
    exec (.safeDeassert i) s = .next (s.deassertInput i) := by
  rw [show exec (.safeDeassert i) s = .next (s.whenRunning fun t => if t.asserted.has i then t.deassertInput i else t) from rfl,
    whenRunning_running hrun, if_pos h]

/-- A cue event (R127, R134; log 7). -/
theorem exec_cueEvent {c : CueLine} {s : State} (hrun : s.phase = .running) : exec (.cueEvent c) s
    = .next ((s.withCue c { s.cue c with pin := (s.cue c).pin.adopt (s.cue c).edge.level }).cueArrives c) := by
  rw [show exec (.cueEvent c) s = .next (s.whenRunning (State.cueHappens c)) from rfl, whenRunning_running hrun, State.cueHappens]

section
variable {i : SafeInput} {c : CueLine} {level : Bool} {s : State}

theorem sampleSafe_turns (ht : (s.safePin i).Turns 20 level) :
    s.sampleSafe i level = if level then s.assertInput i else s.deassertInput i := if_pos ((Pin.accepts_iff _ _ _).2 ht)

theorem sampleSafe_stays (ht : ¬(s.safePin i).Turns 20 level) :
    s.sampleSafe i level = s.withSafePin i ((s.safePin i).sample 20 level) := if_neg ((Pin.accepts_iff _ _ _).not.2 ht)

theorem Edge.level_iff (e : Edge) : level = e.level ↔ (level = true ↔ e = .rising) := by
  cases e <;> cases level <;> simp [Edge.level]

theorem sampleCue_happens (ht : (s.cue c).pin.Turns 5 level) (he : level = (s.cue c).edge.level) : s.sampleCue c level
    = (s.withCue c { s.cue c with pin := (s.cue c).pin.adopt (s.cue c).edge.level }).cueArrives c := by
  have hp := Pin.sample_of_turns ht
  simp only [he] at ht hp
  simp only [State.sampleCue, Config.cueDebounce, he, hp, (Pin.accepts_iff _ _ _).2 ht, decide_true, Bool.and_self, if_true]

theorem sampleCue_rests (h : ¬((s.cue c).pin.Turns 5 level ∧ level = (s.cue c).edge.level)) :
    s.sampleCue c level = s.withCue c { s.cue c with pin := (s.cue c).pin.sample 5 level } :=
  if_neg (by rw [Bool.and_eq_true, decide_eq_true_iff, Pin.accepts_iff]; exact h)

end

/-- Settles O54: a turn works on the record of its own input alone, so every input takes its sample once in any order; and each turn is the
arrival whose occasion it finds, or writes the record and no more. -/
theorem everyPinTakesItsSample : Obligations.EveryPinTakesItsSample := by
  refine ⟨fun pins order s hlength => ⟨fun hrun => ?_, fun hsettling hopen hfew => ?_, fun hsettling hover => ?_⟩,
    fun pins n level x s hrun hx hn hlevel => ?_, fun pins i n level s hrun hi hlevel => ?_, fun pins c n level s hrun hc hlevel => ?_⟩
  · have hexec : exec (.contactSample pins order) s = .next (s.sampleAll pins order) := by
      show Host.Outcome.next (s.contactSample pins order) = _
      rw [State.contactSample, hrun]
    refine ⟨_, hexec, rfl, sampleOrder_perm order, fun hnodup hall => sampleOrder_prefix hnodup fun n hn => mem_allInputs.2 (hall n hn),
      fun n x hx => ?_, ?_, ?_, ?_⟩
    · obtain ⟨hpos, hle⟩ := contact_range hx
      refine ⟨x.sampled (pins.getLsbD (n - 1)), ?_, x.sampled_samplesTo _⟩
      rw [sampleAll_contact pins order s hpos (by omega), hx, Option.map_some]
    · rw [sampleAll_safe1]
      exact s.safe1.sample_samplesTo _ _
    · rw [sampleAll_safe2]
      exact s.safe2.sample_samplesTo _ _
    · rw [sampleAll_cue1, sampleAll_cue2]
      exact ⟨rfl, s.cue1.pin.sample_samplesTo _ _, rfl, s.cue2.pin.sample_samplesTo _ _⟩
  · have hexec : exec (.contactSample pins order) s = .next (s.settleSample pins) := by
      show Host.Outcome.next (s.contactSample pins order) = _
      rw [State.contactSample, hsettling]
    rw [settleSample_eq hopen hfew] at hexec
    exact ⟨_, hexec, rfl, rfl, fun n x hx => ⟨_, settleContacts_contact rfl hx, rfl, rfl, rfl, x.pin.settle_settlesTo _ _⟩,
      s.safe1.settle_settlesTo _ _, s.safe2.settle_settlesTo _ _, rfl, s.cue1.pin.settle_settlesTo _ _, rfl, s.cue2.pin.settle_settlesTo _ _⟩
  · show Host.Outcome.next (s.contactSample pins order) = _
    rw [State.contactSample, hsettling]
    exact congrArg Host.Outcome.next (settleSample_over hover)
  · subst hlevel
    exact ⟨fun hk ht hc hs => acceptedClose_eq_sampleInput hrun hx hn hk ht hc hs,
      fun hk ht hc hs => acceptedOpen_eq_sampleInput hrun hx hn hk ht hc hs,
      fun q hk ht hq => ⟨fun hs hcount hle => holdTimeReached_eq_sampleInput hrun hx hn hk ht hq hs hcount hle,
        fun hs hcount hle => stuckTimeReached_eq_sampleInput hrun hx hn hk ht hq hs hcount hle⟩,
      fun hk ht => maintainedChange_eq_sampleInput hrun hx hn hk ht,
      fun hk hhold hstuck => ⟨_, x.sampled_samplesTo _, sampleInput_rests hx hn hk hhold hstuck⟩⟩
  · have hturn : s.sampleInput pins n = s.sampleSafe i level := by
      rw [hlevel]; rcases hi with ⟨rfl, rfl⟩ | ⟨rfl, rfl⟩ <;> rfl
    rw [hturn]
    refine ⟨fun ht hopen => ?_, fun ht hclosed => ?_, fun ht => ⟨_, Pin.sample_samplesTo _ _ _, sampleSafe_stays ht⟩⟩
    · have hwas : s.asserted.has i = false := by simpa [asserted_has, hopen] using ht.1
      rw [exec_safeAssert hrun hwas, sampleSafe_turns ht, if_pos hopen]
    · have hwas : s.asserted.has i = true := by simpa [asserted_has, hclosed] using ht.1
      rw [exec_safeDeassert hrun hwas, sampleSafe_turns ht, if_neg (by simp [hclosed])]
  · have hturn : s.sampleInput pins n = s.sampleCue c level := by
      rw [hlevel]; rcases hc with ⟨rfl, rfl⟩ | ⟨rfl, rfl⟩ <;> rfl
    rw [hturn, ← Edge.level_iff]
    exact ⟨fun ht he => by rw [exec_cueEvent hrun, sampleCue_happens ht he],
      fun hrests => ⟨_, Pin.sample_samplesTo _ _ _, sampleCue_rests hrests⟩⟩

end Sys2Proof.Machine

namespace Sys2Proof.Machine

/-! ## The Safe layer under one safety input (R123 to R125) -/

/-- No layer is above Safe (1.2). -/
@[simp] theorem Circuit.decides_safe (c : Circuit) : c.decides .safe = true :=
  (c.decides_iff .safe).2 fun k hk => by cases k <;> exact absurd hk (by decide)

/-- A Safe claim starts from what the circuit shows (R10). -/
@[simp] theorem Circuit.startLevel_safe (c : Circuit) : c.startLevel .safe = c.raw := if_pos c.decides_safe

/-- A Safe claim decides, so it removes a handover (R10). -/
theorem Circuit.safeClaim_handover (m : SafeSet) (v fade : Nat) (c : Circuit) : (c.safeClaim m v fade).handover = none :=
  (c.place_handover (.safe m) _).trans (if_pos c.decides_safe)

/-- A Safe claim made at once is what the circuit shows (R10, R124). -/
theorem Circuit.safeClaim_raw (m : SafeSet) (v : Nat) (c : Circuit) : (c.safeClaim m v 0).raw = v := by
  obtain ⟨hraw, -⟩ := c.safeClaim_settled m v 0
  have hdeciding : (c.safeClaim m v 0).deciding = some .safe := Circuit.place_deciding (w := .safe m) c.decides_safe _
  have hform : (c.safeClaim m v 0).form? .safe = some (.steady v) := c.place_form (.safe m) _
  rw [hraw, Circuit.rawOf_of_no_handover (c.safeClaim_handover m v 0), Circuit.decidingValue, hdeciding]
  simp only [hform]
  rfl

section
variable {asserted : SafeSet} {c : Circuit} {i : SafeInput}

/-- A circuit without a level for the input is not touched when it asserts (R124). -/
theorem Circuit.assertSafe_none (h : c.cfg.safeLevel i = none) : c.assertSafe i = c := by simp only [Circuit.assertSafe, h]

/-- An asserting input takes a circuit that has a level for it, at the largest level asked for (R124). -/
theorem Circuit.SafeAgrees.assertSafe_eq (h : c.SafeAgrees asserted) (hlevel : c.cfg.safeLevel i ≠ none) :
    c.assertSafe i = c.safeClaim (c.cfg.wantedSet (asserted.insert i)) (c.cfg.wantedLevel (asserted.insert i)) 0 := by
  obtain ⟨v, hv⟩ := Option.ne_none_iff_exists'.1 hlevel
  rw [CircuitConfig.wantedSet_insert asserted hv, CircuitConfig.wantedLevel_insert asserted hv]
  rcases h.cases with ⟨hs, hw⟩ | ⟨cl, hs, -, howner, htarget⟩
  · simp only [Circuit.assertSafe, hv, hs, CircuitConfig.wantedLevel_of_isEmpty hw, SafeSet.eq_of_isEmpty hw, Nat.zero_max]
  · simp only [Circuit.assertSafe, hv, hs, howner, htarget, Option.getD_some]

/-- A circuit without a level for the input is not touched when it deasserts (R125). -/
theorem Circuit.SafeAgrees.deassertSafe_none (h : c.SafeAgrees asserted) (hlevel : c.cfg.safeLevel i = none) (fade : Nat) :
    c.deassertSafe i fade = c := by
  rcases h.cases with ⟨hs, -⟩ | ⟨cl, hs, -, howner, -⟩
  · simp only [Circuit.deassertSafe, hs]
  · have hout : cl.owner.has i = false := by simp [howner, hlevel]
    simp only [Circuit.deassertSafe, hs, hout, Bool.false_eq_true, if_false]

/-- A deasserting input lets a circuit go that has a level for it: where no other is wanted the layer is released, else the claim is remade for
those (R125). -/
theorem Circuit.SafeAgrees.deassertSafe_eq (h : c.SafeAgrees asserted) (hi : asserted.has i = true) (hlevel : c.cfg.safeLevel i ≠ none)
    (fade : Nat) : c.deassertSafe i fade = if (c.cfg.wantedSet (asserted.erase i)).isEmpty then c.release .safe fade
      else c.safeClaim (c.cfg.wantedSet (asserted.erase i)) (c.cfg.wantedLevel (asserted.erase i)) fade := by
  have hwanted : (c.cfg.wantedSet asserted).has i = true := by
    rw [CircuitConfig.wantedSet_has, hi, Option.isSome_iff_ne_none.2 hlevel]; rfl
  rcases h.cases with ⟨-, hw⟩ | ⟨cl, hs, -, howner, -⟩
  · rw [SafeSet.eq_of_isEmpty hw] at hwanted
    cases i <;> cases hwanted
  · rw [← c.cfg.wantedLevel_wantedSet (asserted.erase i), CircuitConfig.wantedSet_erase]
    simp only [Circuit.deassertSafe, hs, howner, hwanted, if_true]

end

/-! ## A safety input turns -/

theorem assertInput_eq (i : SafeInput) (s : State) : s.assertInput i = { s.withSafePin i ((s.safePin i).adopt true) with
    circuits := s.circuits.map (Circuit.assertSafe i), port := s.port.raise .safeChange } := by cases i <;> rfl

theorem deassertInput_eq (i : SafeInput) (s : State) : s.deassertInput i = { s.withSafePin i ((s.safePin i).adopt false) with
    circuits := s.circuits.map (Circuit.deassertSafe i s.options.safeReleaseFade), port := s.port.raise .safeChange } := by cases i <;> rfl

theorem assertInput_asserted (i : SafeInput) (s : State) : (s.assertInput i).asserted = s.asserted.insert i := withSafePin_asserted i _ s

theorem deassertInput_asserted (i : SafeInput) (s : State) : (s.deassertInput i).asserted = s.asserted.erase i := withSafePin_asserted i _ s

/-- Settles O55: where the Safe layer agrees with the asserted inputs, a turning input makes the claim that is then called for, or releases the
layer. -/
theorem safetyInputsTakeAndLetGoCircuits : Obligations.SafetyInputsTakeAndLetGoCircuits := by
  intro i s hrun hsafe
  refine ⟨fun hwas => ⟨_, exec_safeAssert hrun hwas, by rw [assertInput_eq]; rfl, by rw [assertInput_eq, List.length_map], fun n x hx => ?_⟩,
    fun hwas => ⟨_, exec_safeDeassert hrun hwas, by rw [deassertInput_eq]; rfl, by rw [deassertInput_eq, List.length_map],
      fun n x hx => ?_⟩⟩
  all_goals have hagrees := hsafe hrun x (circuitAt_mem hx)
  · refine ⟨x.assertSafe i, by rw [assertInput_eq, circuitAt_map, hx]; rfl, Circuit.assertSafe_none, fun hlevel => ?_⟩
    rw [assertInput_asserted, hagrees.assertSafe_eq hlevel]
    exact ⟨x.safeClaim_sameBut _ _ _, x.safeClaim_handover _ _ _, x.safeClaim_raw _ _, x.safeClaim_settled _ _ _, x.safeClaim_safe _ _ _⟩
  · refine ⟨x.deassertSafe i s.options.safeReleaseFade, by rw [deassertInput_eq, circuitAt_map, hx]; rfl,
      fun hlevel => hagrees.deassertSafe_none hlevel _, fun hlevel hnone => ?_, fun hlevel hsome => ?_⟩
    all_goals rw [deassertInput_asserted] at *
    · rw [hagrees.deassertSafe_eq hwas hlevel, if_pos hnone]
    · rw [hagrees.deassertSafe_eq hwas hlevel, if_neg (by simp [hsome])]
      exact ⟨x.safeClaim_sameBut _ _ _, x.safeClaim_handover _ _ _, x.safeClaim_settled _ _ _, by rw [x.safeClaim_safe, x.startLevel_safe]⟩

end Sys2Proof.Machine

namespace Sys2Proof.Machine

/-! ## The entries of a stage (R135) -/

/-- The circuits after the entries of a stage have acted, for its maker (R135). -/
def actAll (m : Maker) (entries : List (Nat × StageForm)) (l : List Circuit) : List Circuit :=
  entries.foldl (fun l e => updateAt e.1 (actEntry m e.2) l) l

@[simp] theorem actAll_length (m : Maker) (entries : List (Nat × StageForm)) (l : List Circuit) : (actAll m entries l).length = l.length :=
  foldl_updateAt_length Prod.fst (fun e => actEntry m e.2) entries l

/-- The entry of a circuit acts on it once, and a circuit without one is left. -/
theorem circuitAt_actAll (m : Maker) {entries : List (Nat × StageForm)} (hnodup : (entries.map (·.1)).Nodup) {l : List Circuit} {c : Nat}
    {x : Circuit} (hx : circuitAt l c = some x) : ∃ y, circuitAt (actAll m entries l) c = some y
      ∧ ((∀ e, (c, e) ∉ entries) → y = x) ∧ ∀ e, (c, e) ∈ entries → y = actEntry m e x := by
  have hon (e : StageForm) (he : (c, e) ∈ entries) : circuitAt (actAll m entries l) c = some (actEntry m e x) := by
    have h := circuitAt_foldl_on Prod.fst (fun e => actEntry m e.2) entries l hnodup (c, e) he
    rw [hx] at h
    exact h
  by_cases hany : ∃ e, (c, e) ∈ entries
  · obtain ⟨e, he⟩ := hany
    exact ⟨_, hon e he, fun hnone => absurd he (hnone e), fun f hf => Option.some.inj ((hon e he).symm.trans (hon f hf))⟩
  · refine ⟨x, ?_, fun _ => rfl, fun e he => absurd ⟨e, he⟩ hany⟩
    rw [actAll, circuitAt_foldl_off Prod.fst (fun e => actEntry m e.2) entries l c fun e he hc => hany ⟨e.2, hc ▸ he⟩, hx]

/-- A stage's entries name each circuit once (R129). -/
theorem Stage.Legal.entries_nodup {x : Stage} (h : x.Legal) : (x.entries.map (·.1)).Nodup := by
  obtain ⟨⟨hascending, -⟩, -⟩ := h
  exact hascending.imp fun hlt => Nat.ne_of_lt hlt

theorem State.StagesSound.entries_nodup {s : State} (h : s.StagesSound) (i : StageId) : ((s.stage i).entries.map (·.1)).Nodup := by
  obtain ⟨hone, htwo, -⟩ := h
  cases i with
  | one => exact hone.entries_nodup
  | two => exact htwo.entries_nodup

/-- An entry works on its circuit's Show layer (R135). -/
theorem actEntry_sameBut (m : Maker) (e : StageForm) (x : Circuit) : x.SameBut (actEntry m e x) .show' := by
  cases e with
  | claim v fade => exact x.claim_sameBut (.show' m) v fade
  | release fade => exact x.release_sameBut .show' fade

/-! ## A transfer (R135, R136) -/

theorem Stage.linked_iff (x : Stage) : x.linked = decide (x.state = .standby ∧ x.trigger = .linked) := rfl

/-- A transfer of a stage that the other does not follow. -/
theorem transfer_alone {i : StageId} {s : State} (h : (s.stage i.other).linked = false) : s.transfer i =
    { s.withStage i (s.stage i).emptied with circuits := actAll i.maker (s.stage i).entries s.circuits } := by
  have hstage : (s.transferOne i).stage i.other = s.stage i.other := by cases i <;> rfl
  rw [State.transfer, hstage, if_neg (by simp [h])]
  cases i <;> rfl

/-- A transfer of a stage that the other follows, being linked (R136). -/
theorem transfer_linked {i : StageId} {s : State} (h : (s.stage i.other).linked = true) : s.transfer i =
    { (s.withStage i (s.stage i).emptied).withStage i.other (s.stage i.other).emptied with
      circuits := actAll i.other.maker (s.stage i.other).entries (actAll i.maker (s.stage i).entries s.circuits) } := by
  have hstage : (s.transferOne i).stage i.other = s.stage i.other := by cases i <;> rfl
  rw [State.transfer, hstage, if_pos h]
  cases i <;> rfl

/-- A transfer does not look at the port. -/
theorem transfer_withPort (i : StageId) (p : Port) (s : State) : (s.withPort p).transfer i = (s.transfer i).withPort p := by
  have hstage : (s.withPort p).stage i.other = s.stage i.other := by cases i <;> rfl
  cases h : (s.stage i.other).linked with
  | false =>
    rw [transfer_alone (hstage ▸ h), transfer_alone h]
    cases i <;> rfl
  | true =>
    rw [transfer_linked (hstage ▸ h), transfer_linked h]
    cases i <;> rfl

theorem transfer_port (i : StageId) (s : State) : (s.transfer i).port = s.port := by
  rw [show s.transfer i = (s.withPort s.port).transfer i from rfl, transfer_withPort]
  rfl

/-! ## GO (R133) -/

section
variable {n : Nat} {i : StageId} {s : State}

theorem go_notReady (hi : stageIdOf n = some i) (h : (s.stage i).state ≠ .standby) : s.go n = s.refuse .notReady := by
  simp only [State.go, hi, if_neg h]

theorem go_ok (hi : stageIdOf n = some i) (h : (s.stage i).state = .standby) :
    s.go n = (s.transfer i).done ((s.transferred i).flatMap fun e => be1 e.1.number ++ be2 e.2) := by
  simp only [State.go, hi, if_pos h]

/-- GO's reply names each stage transferred, with its count of entries (log 34). -/
theorem transferred_bytes (hi : stageIdOf n = some i) (s : State) : ((s.transferred i).flatMap fun e => be1 e.1.number ++ be2 e.2) =
    be1 n ++ be2 (s.stage i).entries.length ++ if (s.stage i.other).state = .standby ∧ (s.stage i.other).trigger = .linked then
      be1 (3 - n) ++ be2 (s.stage i.other).entries.length else [] := by
  have hnumber : i.number = n ∧ i.other.number = 3 - n := by
    unfold stageIdOf at hi
    split at hi <;> cases hi <;> exact ⟨rfl, rfl⟩
  obtain ⟨hown, hother⟩ := hnumber
  rw [State.transferred, Stage.linked_iff]
  simp only [decide_eq_true_eq, List.flatMap_cons, hown]
  split
  · rw [List.flatMap_singleton, hother]
  · rfl

end

/-! ## A cue event (R127, R134) -/

section
variable {c : CueLine} {u : State}

theorem cueArrives_both (h1 : u.stage1.matchesCue c = true) (h2 : u.stage2.matchesCue c = true) :
    u.cueArrives c = (u.transfer .one).transfer .two := by
  simp only [State.cueArrives, h1, h2, Bool.or_self, if_true]

theorem cueArrives_one (h1 : u.stage1.matchesCue c = true) (h2 : u.stage2.matchesCue c = false) : u.cueArrives c = u.transfer .one := by
  simp only [State.cueArrives, h1, h2, Bool.or_false, Bool.false_eq_true, if_true, if_false]

theorem cueArrives_two (h1 : u.stage1.matchesCue c = false) (h2 : u.stage2.matchesCue c = true) : u.cueArrives c = u.transfer .two := by
  simp only [State.cueArrives, h1, h2, Bool.or_true, Bool.false_eq_true, if_true, if_false]

/-- A cue that no stage awaits is counted (R134). -/
theorem cueArrives_none (h1 : u.stage1.matchesCue c = false) (h2 : u.stage2.matchesCue c = false) : u.cueArrives c = { u with
    ignored1 := if c = .cue1 then min (u.ignored1 + 1) 255 else u.ignored1
    ignored2 := if c = .cue2 then min (u.ignored2 + 1) 255 else u.ignored2
    port := u.port.raise .cueIgnored } := by
  simp only [State.cueArrives, h1, h2, Bool.or_self, Bool.false_eq_true, if_false]
  cases c <;> rfl

end

theorem Edge.level_eq (e : Edge) : e.level = decide (e = .rising) := by cases e <;> rfl

/-- Settles O57: a transfer is the entries of its stage, each acting once, and then those of the stage linked to it; GO and a cue event choose
the stages. -/
theorem goAndCuesTransferTheirStages : Obligations.GoAndCuesTransferTheirStages := by
  refine ⟨fun i follows s t hsound ht hfollows => ?_, fun m e x => ⟨actEntry_sameBut m e x, ?_, ?_⟩,
    fun n i s hi hserves => ⟨fun h => ?_, fun h => ?_⟩, fun c s u hrun hu => ?_⟩
  · rw [← Stage.linked_iff] at hfollows
    subst ht
    cases follows with
    | false =>
      rw [transfer_alone hfollows.symm]
      refine ⟨by cases i <;> rfl, actAll_length _ _ _, fun c x hx => ?_⟩
      obtain ⟨y, hy, hoff, hon⟩ := circuitAt_actAll i.maker (hsound.entries_nodup i) hx
      exact ⟨y, y, hy, hoff, hon, fun _ => rfl, nofun⟩
    | true =>
      rw [transfer_linked hfollows.symm]
      refine ⟨by cases i <;> rfl, by simp, fun c x hx => ?_⟩
      obtain ⟨y, hy, hoff, hon⟩ := circuitAt_actAll i.maker (hsound.entries_nodup i) hx
      obtain ⟨z, hz, hoff', hon'⟩ := circuitAt_actAll i.other.maker (hsound.entries_nodup i.other) hy
      exact ⟨y, z, hz, hoff, hon, fun hnone => hoff' (hnone.resolve_left nofun), fun _ => hon'⟩
  · rintro v fade rfl
    exact x.place_show m _
  · rintro fade rfl
    rfl
  · have hstage : ((s.accept (.go n)).stage i).state ≠ .standby := by cases i <;> exact h
    exact refuses_of_owner hserves rfl (go_notReady hi hstage)
  · have hstage (j : StageId) : (s.accept (.go n)).stage j = s.stage j := by cases j <;> rfl
    have hown := go_ok hi ((congrArg Stage.state (hstage i)).trans h)
    rw [transferred_bytes hi, hstage, hstage] at hown
    refine ⟨_, completes_done hserves rfl hown (transfer_port i _), ?_⟩
    rw [show s.accept (.go n) = s.withPort (s.accept (.go n)).port from rfl, transfer_withPort]
    rfl
  · have hexec : exec (.cueEvent c) s = .next (u.cueArrives c) := by rw [hu, exec_cueEvent hrun, Edge.level_eq]; rfl
    have hstage1 : u.stage1 = s.stage .one := by rw [hu]; cases c <;> rfl
    have hstage2 : u.stage2 = s.stage .two := by rw [hu]; cases c <;> rfl
    have hawaits (x : Stage) (h : x.state = .standby ∧ x.trigger = cueTrigger c) : x.matchesCue c = true := decide_eq_true h
    have hpasses (x : Stage) (h : ¬(x.state = .standby ∧ x.trigger = cueTrigger c)) : x.matchesCue c = false := decide_eq_false h
    refine ⟨fun i hpass hawait => ⟨_, hexec, ?_⟩, fun hawait => ⟨_, hexec, ?_⟩, fun hpass => ⟨_, hexec, ?_⟩⟩
    · cases i with
      | one => exact cueArrives_two (hstage1 ▸ hpasses _ hpass) (hstage2 ▸ hawaits _ hawait)
      | two => exact cueArrives_one (hstage1 ▸ hawaits _ hawait) (hstage2 ▸ hpasses _ hpass)
    · exact cueArrives_both (hstage1 ▸ hawaits _ (hawait .one)) (hstage2 ▸ hawaits _ (hawait .two))
    · rw [cueArrives_none (hstage1 ▸ hpasses _ (hpass .one)) (hstage2 ▸ hpasses _ (hpass .two)), hu]
      cases c <;> rfl

end Sys2Proof.Machine

namespace Sys2Proof.Machine

/-! ## A stage is written (R128 to R132) -/

@[simp] theorem accept_stage (s : State) (r : Instr) (i : StageId) : (s.accept r).stage i = s.stage i := by cases i <;> rfl

theorem withStage_self (s : State) (i : StageId) : s.withStage i (s.stage i) = s := by cases i <;> rfl

theorem withStage_port (s : State) (i : StageId) (x : Stage) : (s.withStage i x).port = s.port := by cases i <;> rfl

theorem State.StagesSound.stage {s : State} (h : s.StagesSound) (i : StageId) : (s.stage i).Legal := by
  obtain ⟨hone, htwo, -⟩ := h
  cases i with
  | one => exact hone
  | two => exact htwo

/-- A request carried out by writing the record of one stage changes that record and the port. -/
theorem completes_withStage {r : Instr} {i : StageId} {s : State} {owner : State → Carried} {x : Stage} {p : List Byte} (hserves : s.Serves r)
    (he : exec r s = .next (s.complete r owner)) (ho : owner (s.accept r) = ((s.accept r).withStage i x).done p) :
    ∃ t, s.Completes t r .ok p ∧ t = { s.withStage i x with port := t.port } :=
  ⟨_, completes_done hserves he ho (withStage_port _ i x), by cases i <;> rfl⟩

/-- A request that one state of its stage refuses, and that writes the stage's record in every other (R129 to R132). -/
theorem withStage_unless {r : Instr} {i : StageId} {s : State} {owner : State → Carried} {barred : StageState} {code : ResultCode} {x : Stage}
    {p : List Byte} (hserves : s.Serves r) (he : exec r s = .next (s.complete r owner))
    (ho : owner (s.accept r) =
      if (s.stage i).state = barred then (s.accept r).refuse code else ((s.accept r).withStage i x).done p) :
    ((s.stage i).state = barred → s.Refuses r code)
      ∧ ((s.stage i).state ≠ barred → ∃ t, s.Completes t r .ok p ∧ t = { s.withStage i x with port := t.port }) :=
  ⟨fun hbarred => refuses_of_owner hserves he (ho.trans (if_pos hbarred)),
    fun hfree => completes_withStage hserves he (ho.trans (if_neg hfree))⟩

/-! ## The requests on a stage (R129 to R132) -/

theorem stageIdOf_eq_none {n : Nat} (h : n < 1 ∨ 2 < n) : stageIdOf n = none := by
  unfold stageIdOf
  split
  · omega
  · omega
  · rfl

section
variable {n : Nat} {i : StageId}

theorem stageEntry_eq (hi : stageIdOf n = some i) {c : Nat} {e : StageForm} (hc : 1 ≤ c ∧ c ≤ 384) (he : entryInRange e = true) (s : State) :
    s.stageEntry n c e = if (s.stage i).state = .standby then s.refuse .stageArmed
      else (s.withStage i ((s.stage i).enter c e)).done (be2 ((s.stage i).enter c e).entries.length) := by
  have hrange : within 1 Config.circuits c = true := (within_iff _ _ _).2 hc
  simp only [State.stageEntry, hi, hrange, he, Bool.and_self, Bool.not_true, Bool.false_eq_true, if_false]

theorem stageClear_eq (hi : stageIdOf n = some i) (s : State) : s.stageClear n =
    if (s.stage i).state = .standby then s.refuse .stageArmed else (s.withStage i (s.stage i).emptied).done [] := by
  simp only [State.stageClear, hi]

theorem setStageTrigger_eq (hi : stageIdOf n = some i) {code : Nat} {g : Trigger} (hg : triggerOf code = some g) (s : State) :
    s.setStageTrigger n code =
      if (s.stage i).state = .standby then s.refuse .stageArmed else (s.withStage i { s.stage i with trigger := g }).done [] := by
  simp only [State.setStageTrigger, hi, hg]

theorem standby_eq (hi : stageIdOf n = some i) (s : State) : s.standby n =
    if (s.stage i).state = .empty then s.refuse .stageEmpty else (s.withStage i { s.stage i with state := .standby }).done [] := by
  simp only [State.standby, hi]

/-- UNSTANDBY never refuses a stage that is there: outside Standby it leaves the stage as it is (R132). -/
theorem unstandby_eq (hi : stageIdOf n = some i) (s : State) : s.unstandby n = (s.withStage i { s.stage i with
    state := if (s.stage i).state = .standby then .loading else (s.stage i).state }).done [] := by
  simp only [State.unstandby, hi]
  split
  · rfl
  · exact congrArg (State.done · []) (withStage_self s i).symm

end

/-! ## The entries after STAGE ENTRY (R129) -/

theorem Stage.Legal.enter_ascending {x : Stage} (h : x.Legal) (c : Nat) (e : StageForm) :
    ((x.enter c e).entries.map (·.1)).Pairwise (· < ·) := by
  obtain ⟨⟨hascending, -⟩, -⟩ := h
  exact putEntry_circuits c e x.entries ▸ insertAscending_ascending c _ hascending

/-- An entry stands for its circuit alone; those of the other circuits are left. -/
theorem Stage.Legal.mem_enter {x : Stage} (h : x.Legal) (c : Nat) (e : StageForm) (d : Nat) (f : StageForm) :
    (d, f) ∈ (x.enter c e).entries ↔ d = c ∧ f = e ∨ d ≠ c ∧ (d, f) ∈ x.entries := by
  obtain ⟨⟨hascending, -⟩, -⟩ := h
  have hput := mem_putEntry c e x.entries hascending (d, f)
  rw [Prod.mk.injEq] at hput
  exact hput.trans (or_congr Iff.rfl and_comm)

/-- Settles O56: each request by the state of its stage, with the one record it writes. -/
theorem stagesAreLoadedAndStoodBy : Obligations.StagesAreLoadedAndStoodBy := by
  refine ⟨fun n s hn => ?_, fun n i s hi hsound => ⟨fun c e hserves hc1 hc2 he => ?_, fun hserves => ?_, fun code g hserves hg => ?_,
    fun hserves => ?_, fun hserves => ?_⟩⟩
  · have habsent := stageIdOf_eq_none hn
    refine ⟨fun c e h => refuses_of_owner h rfl ?_, fun h => refuses_of_owner h rfl ?_, fun code h => refuses_of_owner h rfl ?_,
      fun h => refuses_of_owner h rfl ?_, fun h => refuses_of_owner h rfl ?_⟩
    · simp only [State.stageEntry, habsent]
    · simp only [State.stageClear, habsent]
    · simp only [State.setStageTrigger, habsent]
    · simp only [State.standby, habsent]
    · simp only [State.unstandby, habsent]
  · have howner := stageEntry_eq hi ⟨hc1, hc2⟩ he (s.accept (.stageEntry n c e))
    rw [accept_stage] at howner
    obtain ⟨harmed, hloaded⟩ := withStage_unless hserves rfl howner
    refine ⟨harmed, fun hfree => ?_⟩
    obtain ⟨t, hdone, ht⟩ := hloaded hfree
    have hstage : t.stage i = (s.stage i).enter c e := by
      rw [ht]
      cases i <;> rfl
    have hlegal := hsound.stage i
    refine ⟨t, ?_⟩
    rw [hstage]
    exact ⟨hdone, ht, hlegal.enter_ascending c e, hlegal.mem_enter c e⟩
  · have howner := stageClear_eq hi (s.accept (.stageClear n))
    rw [accept_stage] at howner
    exact withStage_unless hserves rfl howner
  · have howner := setStageTrigger_eq hi hg (s.accept (.setStageTrigger n code))
    rw [accept_stage] at howner
    exact withStage_unless hserves rfl howner
  · have howner := standby_eq hi (s.accept (.standby n))
    rw [accept_stage] at howner
    exact withStage_unless hserves rfl howner
  · have howner := unstandby_eq hi (s.accept (.unstandby n))
    rw [accept_stage] at howner
    exact completes_withStage hserves rfl howner

end Sys2Proof.Machine

namespace Sys2Proof.Machine

/-! ## The drive of a circuit (R142) -/

/-- No level is driven beyond 255 (R142). -/
theorem driveOf_le {output : Nat} (h : output ≤ 1000) (kind : CircuitKind) : driveOf kind output ≤ 255 := by
  cases kind
  · show (output * 255 + 500) / 1000 ≤ 255
    omega
  · show (if output = 1000 then 255 else 0) ≤ 255
    split <;> omega

/-- The byte sent is the drive itself, or its difference to 255 where the circuit is inverted (R142). -/
theorem driveByte_toNat {x : Circuit} (h : x.output ≤ 1000) :
    (driveByte x).toNat = if x.cfg.inverted then 255 - driveOf x.cfg.kind x.output else driveOf x.cfg.kind x.output := by
  have hle := driveOf_le h x.cfg.kind
  rw [driveByte, BitVec.toNat_ofNat]
  refine Nat.mod_eq_of_lt ?_
  split <;> omega

/-- A dimmed drive rises by at most one part for each level of the output (R142). -/
theorem driveOf_dimmed_succ (output : Nat) :
    driveOf .dimmed (output + 1) ≤ driveOf .dimmed output + 1 ∧ driveOf .dimmed output ≤ driveOf .dimmed (output + 1) := by
  simp only [driveOf]
  omega

/-! ## The characters of a frame (R140) -/

/-- The start character and the drive bytes of a frame, which its check covers (R140). -/
def rackBody (circuits : List Circuit) : List Byte := 0x5A :: circuits.map driveByte

theorem rackFrame_eq (circuits : List Circuit) :
    rackFrame circuits = rackBody circuits ++ be2 (crc16 (rackBody circuits)).toNat := rfl

@[simp] theorem rackBody_length (circuits : List Circuit) : (rackBody circuits).length = circuits.length + 1 := by
  simp [rackBody]

/-- The drive byte of circuit `n` is character `n` of the frame, after the start character (R140). -/
theorem rackFrame_circuit {circuits : List Circuit} {n : Nat} {x : Circuit} (h : circuitAt circuits n = some x) :
    (rackFrame circuits)[n]? = some (driveByte x) := by
  cases n with
  | zero => cases h
  | succ n =>
    have hx : circuits[n]? = some x := by rwa [circuitAt_of_pos n.succ_ne_zero] at h
    have hn : n < circuits.length := (List.getElem?_eq_some_iff.1 hx).1
    rw [rackFrame_eq, List.getElem?_append_left (by rw [rackBody_length]; omega), rackBody, List.getElem?_cons_succ, List.getElem?_map, hx]
    rfl

/-- A 2-byte item holds a number below 2^16 whole, high byte first (R165). -/
theorem be2_word {n : Nat} (h : n < 65536) : ∃ hi lo : Byte, be2 n = [hi, lo] ∧ hi.toNat * 256 + lo.toNat = n := by
  refine ⟨_, _, rfl, ?_⟩
  simp only [BitVec.toNat_ofNat]
  omega

/-! ## Frames start, end and are owed (R139, R143) -/

theorem exec_frameStart {s : State} (h : s.phase = .running) : exec .frameStart s = .next s.reachNextStart :=
  congrArg Host.Outcome.next (whenRunning_running h State.reachNextStart)

theorem exec_frameEnd {s : State} (h : s.phase = .running) : exec .frameEnd s = .next s.endFrame :=
  congrArg Host.Outcome.next (whenRunning_running h State.endFrame)

/-- A next-start time reached between frames starts a frame (R143). -/
theorem reachNextStart_between {s : State} (hsending : s.link.sending = true) (hframe : s.link.frame = none) :
    s.reachNextStart = s.startFrame := by
  simp [State.reachNextStart, hsending, hframe]

/-- A next-start time reached while a frame is in flight is owed (R143). -/
theorem reachNextStart_inFlight {s : State} (hsending : s.link.sending = true) (hframe : s.link.frame ≠ none) :
    s.reachNextStart = { s with link := { s.link with owed := true, nextStart := none } } := by
  simp [State.reachNextStart, hsending, hframe, State.withLink]

/-- A frame that ends with no start owed leaves none in flight (R143). -/
theorem endFrame_notOwed {s : State} (hframe : s.link.frame ≠ none) (howed : s.link.owed = false) :
    s.endFrame = { s with link := { s.link with frame := none } } := by
  simp [State.endFrame, hframe, howed, State.withLink]

/-- A frame that ends with a start owed starts the next one at once, counted late (R143). -/
theorem endFrame_owed {s : State} (hframe : s.link.frame ≠ none) (howed : s.link.owed = true) :
    s.endFrame = (s.withLink { s.link with late := bump s.link.late }).startFrame := by
  simp [State.endFrame, hframe, howed]

/-! ## RTX bit by bit (R140) -/

/-- A character on the rack link has the bits of a station line's character whose mark bit is at the mark level: no parity bit stands before
the second stop bit (R140, R162). -/
theorem rackCharBits_eq (b : Byte) : rackCharBits b = TxChar.bits ⟨true, b⟩ := rfl

/-- The bits of a character: one start bit, the data bits least significant first, two stop bits (R140). -/
theorem rackCharBits_spec (b : Byte) : (rackCharBits b).length = 11 ∧ (rackCharBits b)[0]? = some false
    ∧ (∀ i, i < 8 → (rackCharBits b)[i + 1]? = some (b.getLsbD i)) ∧ (rackCharBits b)[9]? = some true ∧ (rackCharBits b)[10]? = some true := by
  rw [rackCharBits_eq]
  exact TxChar.bits_spec _

theorem rackCharBits_length (b : Byte) : (rackCharBits b).length = 11 := (rackCharBits_spec b).1

/-- Characters follow one another without a gap, 11 bits each (R140). -/
theorem rackChars_length (chars : List Byte) : (chars.flatMap rackCharBits).length = 11 * chars.length := by
  induction chars with
  | nil => rfl
  | cons c chars ih => rw [List.flatMap_cons, List.length_append, rackCharBits_length, ih, List.length_cons]; omega

theorem rackChars_bit {chars : List Byte} {k : Nat} {b : Byte} (h : chars[k]? = some b) {j : Nat} (hj : j < 11) :
    (chars.flatMap rackCharBits)[11 * k + j]? = (rackCharBits b)[j]? := by
  induction chars generalizing k with
  | nil => cases h
  | cons c chars ih =>
    have hlength := rackCharBits_length c
    rw [List.flatMap_cons]
    cases k with
    | zero =>
      cases h
      rw [Nat.mul_zero, Nat.zero_add, List.getElem?_append_left (by omega)]
    | succ k =>
      rw [List.getElem?_append_right (by omega), ← ih h]
      congr 1
      omega

theorem rackSignal_length (chars : List Byte) : (rackSignal chars).length = 33 + 11 * chars.length := by
  rw [rackSignal, List.length_append, rackChars_length]
  rfl

/-- A frame begins with a break of 120 µs (R140). -/
theorem rackSignal_break (chars : List Byte) {i : Nat} (h : i < 30) : (rackSignal chars)[i]? = some false := by
  rw [rackSignal, List.append_assoc, List.getElem?_append_left (by simpa [lineAt] using h), lineAt, List.getElem?_replicate_of_lt h]

/-- A mark of 12 µs follows the break (R140). -/
theorem rackSignal_mark (chars : List Byte) {i : Nat} (h30 : 30 ≤ i) (h33 : i < 33) : (rackSignal chars)[i]? = some true := by
  rw [rackSignal, List.append_assoc, List.getElem?_append_right (by simpa [lineAt] using h30), List.getElem?_append_left (by simp [lineAt]; omega),
    lineAt, List.getElem?_replicate_of_lt (by simp [lineAt]; omega)]

/-- Bit `j` of character `k`, counted from the break on (R140). -/
theorem rackSignal_char {chars : List Byte} {k : Nat} {b : Byte} (h : chars[k]? = some b) {j : Nat} (hj : j < 11) :
    (rackSignal chars)[33 + 11 * k + j]? = (rackCharBits b)[j]? := by
  have hhead : (lineAt false 30 ++ lineAt true 3).length = 33 := rfl
  rw [rackSignal, List.getElem?_append_right (by omega), ← rackChars_bit h hj]
  congr 1
  omega

theorem rtx_inFlight {s : State} {f : List Byte} (h : s.link.frame = some f) : s.rtx = rackSignal f := by
  simp [State.rtx, h]

/-- RTX is at the mark level where the frame in flight, if there is one, has no bit (R139, R140). -/
theorem rtxLevel_noBit {s : State} {i : Nat} (h : s.rtx.length ≤ i) : s.rtxLevel i = true := by
  simp [State.rtxLevel, List.getElem?_eq_none h]

/-- Settles O59: the drive byte by kind and polarity, and its place in a frame. -/
theorem drivesFollowTheOutput : Obligations.DrivesFollowTheOutput := by
  refine ⟨fun x hx => ?_, fun s hrun hsending hframe => ?_⟩
  · have hbyte := driveByte_toNat hx
    refine ⟨fun hkind hinv => ?_, fun hkind hinv => ?_, fun hkind hinv => ?_, fun hkind hinv => ?_, driveOf_le hx .dimmed,
      fun y _ _ hy _ => hy ▸ driveOf_dimmed_succ x.output⟩
    · simpa [hkind, hinv, driveOf] using hbyte
    · simpa [hkind, hinv, driveOf] using hbyte
    · simpa [hkind, hinv, driveOf] using hbyte
    · rw [hbyte, hkind, hinv, if_pos rfl, driveOf]
      split <;> rfl
  · refine ⟨s.startFrame, _, ?_, rfl, fun n x => rackFrame_circuit⟩
    rw [exec_frameStart hrun, reachNextStart_between hsending hframe]

/-- Settles O58: the link by its frame in flight and its owed start, the characters of a frame, and RTX bit by bit. -/
theorem framesStartEndAndAreOwed : Obligations.FramesStartEndAndAreOwed := by
  intro s hrun hsending
  have hlength := rackBody_length s.circuits
  obtain ⟨hi, lo, hcheck, hword⟩ := be2_word (crc16 (rackBody s.circuits)).isLt
  refine ⟨fun hframe => ?_, fun hframe => ?_, fun hframe howed => ?_, fun hframe howed => ?_, ?_, ?_, fun u => rtx_between,
    fun u f hf => ?_, fun u i level hon hbit => ?_, fun u i hquiet => ?_, fun u f i hf hi => ?_, hi, lo, ?_, hword⟩
  · exact ⟨s.startFrame, by rw [exec_frameStart hrun, reachNextStart_between hsending hframe], rfl⟩
  · exact ⟨_, exec_frameStart hrun, reachNextStart_inFlight hsending hframe⟩
  · exact ⟨_, exec_frameEnd hrun, endFrame_notOwed hframe howed⟩
  · exact ⟨_, exec_frameEnd hrun, endFrame_owed hframe howed⟩
  · rw [rackFrame_eq, List.length_append, rackBody_length, be2_length]
  · rw [rackFrame_eq, List.take_left' hlength]
    rfl
  · rw [rtx_inFlight hf]
    refine ⟨rackSignal_length f, fun i => rackSignal_break f, fun i => rackSignal_mark f, fun k b hb => ?_⟩
    obtain ⟨-, hstart, hdata, hstop1, hstop2⟩ := rackCharBits_spec b
    have hchar {j : Nat} (hj : j < 11) := rackSignal_char hb hj
    refine ⟨(hchar (j := 0) (by decide)).trans hstart, fun i hi => ?_, ?_, ?_⟩
    · rw [← hdata i hi, ← hchar (by omega)]
      congr 1; omega
    · rw [← hstop1, ← hchar (by decide)]
      congr 1; omega
    · rw [← hstop2, ← hchar (by decide)]
      congr 1; omega
  · rw [rtxLevel_sending hon, hbit, Option.getD_some]
  · rcases hquiet with hoff | hnone
    · exact rtxLevel_off hoff i
    · exact rtxLevel_noBit (by rw [rtx_between hnone]; exact Nat.zero_le i)
  · exact rtxLevel_noBit (by rw [rtx_inFlight hf, rackSignal_length]; exact hi)
  · rw [rackFrame_eq, List.drop_left' hlength, hcheck]

end Sys2Proof.Machine

namespace Sys2Proof.Machine

/-! ## The part stops (R139, R146, R152, R159, R160) -/

/-- What stops the part: the supply lost, the RESET pin pulled low, and the supply rising while the pin is low (R159, R160). -/
theorem exec_stop {c : Instr} {p : Phase} {low : Bool} {s : State}
    (h : (c = .supplyLost ∧ p = .unpowered ∧ low = s.resetLow) ∨ (c = .resetPinLow ∧ p = .held ∧ low = true ∧ s.phase ≠ .unpowered)
      ∨ (c = .powerOn ∧ p = .held ∧ low = true ∧ s.resetLow = true)) :
    p ≠ .running ∧ exec c s = .next ((s.stop p).withResetLow low) := by
  have hkept (q : Phase) : s.stop q = (s.stop q).withResetLow s.resetLow := by rw [stop_eq]; rfl
  rcases h with ⟨rfl, rfl, rfl⟩ | ⟨rfl, rfl, rfl, hpowered⟩ | ⟨rfl, rfl, rfl, hlow⟩
  · exact ⟨nofun, congrArg Host.Outcome.next (hkept .unpowered)⟩
  · refine ⟨nofun, ?_⟩
    show Host.Outcome.next _ = _
    rw [if_neg hpowered]
  · refine ⟨nofun, ?_⟩
    show Host.Outcome.next _ = _
    rw [if_pos hlow]
    exact congrArg Host.Outcome.next ((hkept .held).trans (by rw [hlow]))

/-- Each line of a stopped part is quiet (R98, R160). -/
theorem stop_line (p : Phase) (s : State) (l : Line) : (s.stop p).line l = (s.line l).quiet := by
  rw [stop_eq]
  cases l <;> rfl

/-- The stored tables outlast a stop (log 39). -/
theorem stop_stored (p : Phase) (s : State) : (s.stop p).stored = s.stored := by
  rw [stop_eq]
  simp [State.stored, LineCtl.stored, LineCtl.quiet, Circuit.bare, Function.comp_def]

/-- With no flag set there is no attention pending, whatever the mask (R152). -/
theorem Port.attention_noFlag {p : Port} (h : p.flags = 0) : p.attention = false := by
  simp [Port.attention, h]

/-- Settles O15: each of the three is one stop, in which the pins follow from what is cleared. -/
theorem supplyLossAndResetStopThePart : Obligations.SupplyLossAndResetStopThePart := by
  refine ⟨fun c p low s h => ?_, fun s hphase => ⟨⟨_, rfl, ?_⟩, ⟨_, rfl, ?_⟩⟩⟩
  · obtain ⟨hphase, hexec⟩ := exec_stop h
    have hline := stop_line p s
    have hstored := stop_stored p s
    rw [stop_eq] at hexec hline hstored
    refine ⟨_, hexec, rfl, rfl, rfl, rfl, rfl, rfl, ?_, rfl, rfl, rfl, rfl, rfl, rfl, rtxLevel_off rfl, fun l => ?_, hstored, rfl, rfl, rfl,
      fun hsound hbusy => ?_⟩
    · rw [State.attnLow, Port.attention_noFlag rfl, Bool.false_and]
    · have hdisabled {u : State} (hu : u.phase = p) : u.driverEnabled l = false := driverEnabled_other (hu ▸ hphase) l
      exact ⟨congrArg LineCtl.state (hline l), congrArg LineCtl.exchange (hline l), hdisabled rfl, tx_disabled (hdisabled rfl)⟩
    · obtain ⟨-, hnone, -⟩ := hsound
      exact (image_of_memory rfl).trans (hnone hbusy)
  · rw [if_pos hphase]; rfl
  · rw [if_pos hphase]; rfl

end Sys2Proof.Machine

namespace Sys2Proof.Machine

/-! ## Requests and events, by what carries them out (R148, R149, R157, R161) -/

/-- Every request is a request row: only what it carries out is its own (R148, R149). -/
theorem exec_requestRow {i : Instr} (h : (requestCode i).isSome = true) :
    ∃ carry : State → State, ∀ s, exec i s = .next (s.requestStep i carry) := by
  cases i <;> first | (cases h; done) | exact ⟨_, fun _ => rfl⟩

/-- Every event but those of supply, reset, start-up, port and pins is an arrival that only a running part takes (R161). -/
theorem exec_arrival {i : Instr} (h : requestCode i = none) (hi : takenInAnyPhase i = false) :
    ∃ f : State → State, ∀ s, exec i s = .next (s.whenRunning f) := by
  cases i <;> first | (cases h; done) | (cases hi; done) | exact ⟨_, fun _ => rfl⟩

/-- A request that reaches a part which does not run (R148, R161). -/
theorem requestStep_notRunning {s : State} (h : s.phase ≠ .running) (i : Instr) (carry : State → State) :
    s.requestStep i carry = if s.phase = .settling ∧ s.spi = none then s.answer (requestEcho i) .starting [] else s := by
  unfold State.requestStep State.whenSelFree
  cases hp : s.phase with
  | running => exact absurd hp h
  | settling => cases s.spi <;> simp
  | held | unpowered => simp

/-- Settles O16: every other command is a request row or an arrival that only a running part takes. -/
theorem nothingIsCarriedOutOutsideRunning : Obligations.NothingIsCarriedOutOutsideRunning := by
  intro c s hc hphase
  cases hcode : requestCode c with
  | none =>
    obtain ⟨f, hexec⟩ := exec_arrival hcode hc
    rw [hexec, whenRunning_other hphase]
    rfl
  | some code =>
    obtain ⟨carry, hexec⟩ := exec_requestRow (by rw [hcode]; rfl)
    rw [hexec, requestStep_notRunning hphase]
    simp

/-! ## The status byte and ATTN (R151, R152, R164) -/

/-- The status byte's number, item by item, read back bit by bit (R164). -/
theorem statusBits (p : PortState) (overrun attention busy safe : Bool) :
    let b := BitVec.ofNat 8 (p.code + 4 * overrun.toNat + 8 * attention.toNat + 16 * busy.toNat + 32 * safe.toNat)
    b.toNat % 4 = p.code ∧ b.getLsbD 2 = overrun ∧ b.getLsbD 3 = attention ∧ b.getLsbD 4 = busy ∧ b.getLsbD 5 = safe
      ∧ b.getLsbD 6 = false ∧ b.getLsbD 7 = false := by
  cases p <;> revert overrun attention busy safe <;> decide

/-- Each of the thirteen bits is that of a flag (R164). -/
theorem exists_flag_of_bit {n : Nat} (h : n < 13) : ∃ f : Flag, f.bit = n := by
  have hbits : ∀ k : Fin 13, ∃ f ∈ allFlags, f.bit = k := by decide
  obtain ⟨f, -, hf⟩ := hbits ⟨n, h⟩
  exact ⟨f, hf⟩

theorem Flag.bit_lt (f : Flag) : f.bit < 13 := by cases f <;> decide

/-- Attention is pending where a flag is set whose bit of the mask is 0 (R152; log 18). -/
theorem Port.attention_iff (p : Port) : p.attention = true ↔ ∃ f : Flag, p.isSet f = true ∧ p.mask.getLsbD f.bit = false := by
  have hbit (f : Flag) : (p.flags &&& ~~~p.mask).getLsbD f.bit = (p.isSet f && !p.mask.getLsbD f.bit) := by
    simp [Port.isSet, f.bit_lt]
  simp only [Port.attention, decide_eq_true_eq]
  constructor
  · intro hne
    by_contra hno
    refine hne (BitVec.eq_of_getLsbD_eq fun n hn => ?_)
    obtain ⟨f, rfl⟩ := exists_flag_of_bit hn
    refine (hbit f).trans (.trans ?_ BitVec.getLsbD_zero.symm)
    simpa using fun hset => by simpa [hset] using not_exists.1 hno f
  · rintro ⟨f, hset, hmask⟩ hzero
    have hb := hbit f
    simp [hzero, hset, hmask] at hb

/-- Settles O21: by the bits of its number, and the flags one by one. -/
theorem theStatusByteReportsItsItems : Obligations.TheStatusByteReportsItsItems := by
  intro s
  obtain ⟨hstate, hoverrun, hattention, hbusy, hsafe, h6, h7⟩ :=
    statusBits s.port.state s.port.overrun s.port.attention s.storeBusy s.safeActive
  refine ⟨fun hff => ?_, hstate, hoverrun, ?_, ?_, fun hrun => hsafe.trans ?_, h6, h7, ?_⟩
  · have h : s.statusByte.getLsbD 7 = false := h7
    rw [hff] at h
    cases h
  · exact hattention ▸ decide_eq_true_iff
  · refine hbusy ▸ ?_
    cases h : s.store.state <;> simp [State.storeBusy, h]
  · simp [State.safeActive, State.asserted, SafeSet.isEmpty, hrun, Bool.not_and]
  · rw [State.attnLow, Bool.and_eq_true, Port.attention_iff, decide_eq_true_eq, and_comm]

/-! ## CLEAR ATTENTION and SET ATTENTION MASK (R153) -/

theorem clearAttention_inRange {n : Nat} (h : n < 2 ^ 13) (s : State) :
    s.clearAttention n = (s.withPort { s.port with flags := s.port.flags &&& ~~~(BitVec.ofNat 13 n) }).done [] := if_pos h

theorem setAttentionMask_inRange {n : Nat} (h : n < 2 ^ 13) (s : State) :
    s.setAttentionMask n = (s.withPort { s.port with mask := BitVec.ofNat 13 n }).done [] := if_pos h

/-- A bit of a two-byte set, as that of its flag (R164). -/
theorem getLsbD_ofNat_bit (n : Nat) (f : Flag) : (BitVec.ofNat 13 n).getLsbD f.bit = n.testBit f.bit := by
  rw [BitVec.getLsbD_ofNat, decide_eq_true f.bit_lt, Bool.true_and]

/-- Settles O22: either request is one change of the port, judged by its range first. -/
theorem attentionRequestsClearAndMask : Obligations.AttentionRequestsClearAndMask := by
  refine fun n s => ⟨fun hserves => ⟨fun hn => ?_, fun hn => ?_⟩, fun hserves hready => ⟨fun hn => ?_, fun hn => ?_⟩⟩
  · have hexec : exec (.clearAttention n) s = _ := congrArg Host.Outcome.next (complete_of_serves hserves (State.clearAttention n))
    rw [clearAttention_inRange hn] at hexec
    refine ⟨_, hexec, rfl, rfl, fun f => ?_⟩
    show (s.port.flags &&& ~~~BitVec.ofNat 13 n).getLsbD f.bit = _
    rw [BitVec.getLsbD_and, BitVec.getLsbD_not, getLsbD_ofNat_bit, decide_eq_true f.bit_lt, Bool.true_and]
    rfl
  · exact refuses_of_owner hserves rfl (if_neg (not_lt.2 hn))
  · have hexec : exec (.setAttentionMask n) s = _ :=
      congrArg Host.Outcome.next (complete_of_serves hserves (State.storedWrite (State.setAttentionMask n)))
    rw [storedWrite_ready (s := s.accept _) hready, setAttentionMask_inRange hn] at hexec
    exact ⟨_, hexec, rfl, rfl, getLsbD_ofNat_bit n⟩
  · exact write_refuses hserves hready rfl (if_neg (not_lt.2 hn))

/-! ## Writes while the store is busy (R155, R157, R158) -/

/-- Every request of the column STORE_BUSY is refused by a busy store before any other check (R157, R158). -/
theorem exec_write_busy {i : Instr} (h : writesImage i = true) :
    ∃ owner : State → Carried, (∀ s, exec i s = .next (s.complete i owner)) ∧ ∀ s, s.store.state ≠ .ready → owner s = s.refuse .storeBusy := by
  cases i <;> first
    | (cases h; done)
    | exact ⟨_, fun _ => rfl, fun _ hbusy => storedWrite_busy hbusy _⟩
    | exact ⟨_, fun _ => rfl, fun _ hbusy => if_pos (decide_eq_true hbusy)⟩ -- SAVE and ERASE STORE

/-- Settles O23: the accepted request finds the store as busy as it was. -/
theorem writesAreRefusedWhileTheStoreIsBusy : Obligations.WritesAreRefusedWhileTheStoreIsBusy := by
  refine fun i s hserves hbusy => ⟨fun hwrites => ?_, fun hi => ?_⟩
  · obtain ⟨owner, hexec, howner⟩ := exec_write_busy hwrites
    exact refuses_of_owner hserves (hexec s) (howner _ hbusy)
  · subst hi
    have hstep := requestStep_of_serves hserves fun t =>
      if t.storeBusy then t.answer (requestEcho .restart) .occupied [] else t.startUp .restart
    rw [if_pos (show (s.accept .restart).storeBusy = true from decide_eq_true hbusy)] at hstep
    exact ⟨_, ⟨congrArg Host.Outcome.next hstep, rfl⟩, rfl⟩

/-! ## Request frames (R147) -/

theorem judgeFrame_long {code len : Byte} (h : 250 < len.toNat) (rest : List Byte) : judgeFrame (code :: len :: rest) = .short code :=
  if_pos (.inl h)

theorem judgeFrame_short {code len : Byte} {rest : List Byte} (h : rest.length ≤ len.toNat) :
    judgeFrame (code :: len :: rest) = .short code := if_pos (.inr h)

/-- A frame that reaches its check byte; what follows that byte is ignored (R146, R147). -/
theorem judgeFrame_whole {code len check : Byte} {payload extra : List Byte} (hlen : len.toNat ≤ 250) (hpayload : payload.length = len.toNat) :
    judgeFrame (code :: len :: (payload ++ check :: extra))
      = if check = crc8 (code :: len :: payload) then .complete code payload else .wrongCheck code := by
  have hlong : ¬(250 < len.toNat ∨ (payload ++ check :: extra).length ≤ len.toNat) := by simp; omega
  have htake : (payload ++ check :: extra).take len.toNat = payload := by rw [← hpayload, List.take_left]
  have hcheck : (payload ++ check :: extra)[len.toNat]? = some check := by simp [← hpayload]
  simp only [judgeFrame, if_neg hlong, htake, hcheck, Option.some.injEq]

/-- Settles O18. -/
theorem requestFramesAreJudged : Obligations.RequestFramesAreJudged :=
  ⟨rfl, fun _ => rfl, fun _ _ rest h => judgeFrame_long h rest, fun _ _ _ h => judgeFrame_short h,
    fun _ _ _ _ _ hlen hpayload => judgeFrame_whole hlen hpayload⟩

end Sys2Proof.Machine

namespace Sys2Proof.Machine

/-! ## What most commands leave: all that the laws of the port, the store and the RESET pin look at -/

/-- What those laws look at, but for the live tables. -/
structure Console where
  phase    : Phase
  resetLow : Bool
  state    : PortState
  slot     : Option Reply
  request  : Option Instr
  spi      : Option Transfer
  store    : Store

def State.console (s : State) : Console := ⟨s.phase, s.resetLow, s.port.state, s.port.slot, s.port.request, s.spi, s.store⟩

/-- All that those laws look at: the console, and the live tables that SAVE copies (R156, R157). -/
def State.desk (s : State) : Console × Stored := (s.console, s.stored)

theorem console_of_desk {s t : State} (h : t.desk = s.desk) : t.console = s.console := congrArg Prod.fst h

theorem stored_of_desk {s t : State} (h : t.desk = s.desk) : t.stored = s.stored := congrArg Prod.snd h

@[simp] theorem withMode_desk (s : State) (x : Mode) : (s.withMode x).desk = s.desk := rfl
@[simp] theorem withSafe1_desk (s : State) (x : Pin) : (s.withSafe1 x).desk = s.desk := rfl
@[simp] theorem withSafe2_desk (s : State) (x : Pin) : (s.withSafe2 x).desk = s.desk := rfl
@[simp] theorem withSettleSamples_desk (s : State) (x : Nat) : (s.withSettleSamples x).desk = s.desk := rfl
@[simp] theorem raise_desk (s : State) (f : Flag) : (s.raise f).desk = s.desk := rfl
@[simp] theorem discardRequest_desk (s : State) : s.discardRequest.desk = s.desk := rfl

@[simp] theorem withStage_desk (i : StageId) (x : Stage) (s : State) : (s.withStage i x).desk = s.desk := by cases i <;> rfl

@[simp] theorem withSafePin_desk (i : SafeInput) (p : Pin) (s : State) : (s.withSafePin i p).desk = s.desk := by cases i <;> rfl

@[simp] theorem countIgnored_desk (c : CueLine) (s : State) : (s.countIgnored c).desk = s.desk := by cases c <;> rfl

/-- A cue line that keeps its edge. -/
theorem withCue_desk (c : CueLine) {x : CueInput} {s : State} (h : x.edge = (s.cue c).edge) : (s.withCue c x).desk = s.desk := by
  cases c <;> simp only [State.desk, State.stored, State.withCue, withCue1_cue1, withCue2_cue2, h] <;> rfl

/-- Inputs that keep their configurations. -/
theorem withInputs_desk {s : State} {l : List ContactInput} (h : l.map (·.config) = s.inputs.map (·.config)) :
    (s.withInputs l).desk = s.desk := by
  simp only [State.desk, State.stored, withInputs_inputs, h]
  rfl

/-- A line that keeps its tables. -/
theorem withLine_desk {l : Line} {x : LineCtl} {s : State} (h : x.stored = (s.line l).stored) : (s.withLine l x).desk = s.desk := by
  cases l <;> simp only [State.desk, State.stored, State.withLine, withLineA_lineA, withLineB_lineB, h] <;> rfl

/-- An event changes no configuration and no reply (R54). -/
theorem EventFrame.desk {s t : State} (h : EventFrame s t) : t.desk = s.desk := by
  obtain ⟨hstate, hcfgs, hA, hB, hport⟩ := h
  have hA' : t.lineA.stored = s.lineA.stored := by rw [hA]; rfl
  have hB' : t.lineB.stored = s.lineB.stored := by rw [hB]; rfl
  rw [hstate]
  simp only [State.desk, State.console, State.stored, hcfgs, hA', hB']
  rw [hport]

@[simp] theorem resolve_desk (k : SourceKey) (e : EventKind) (s : State) : (s.resolve k e).desk = s.desk := (resolve_frame k e s).desk

@[simp] theorem changeMode_desk (m : Mode) (fade : Nat) (s : State) : (s.changeMode m fade).desk = s.desk := (changeMode_frame m fade s).desk

@[simp] theorem deliver_desk (l : Line) (a : Nat) (events : List (Nat × EventKind)) (s : State) : (s.deliver l a events).desk = s.desk :=
  (deliver_frame l a events s).desk

@[simp] theorem stateEndMovement_desk (p : LocalOwner → Bool) (s : State) : (s.endMovement p).desk = s.desk := (endMovement_frame p s).desk

/-- Circuits changed without their configurations. -/
theorem mapCircuits_desk {f : Circuit → Circuit} (hf : ∀ c, (f c).cfg = c.cfg) (s : State) : (s.mapCircuits f).desk = s.desk :=
  (mapCircuits_frame f hf s).desk

theorem onCircuit_desk (n : Nat) {f : Circuit → Circuit} (hf : ∀ c, (f c).cfg = c.cfg) (s : State) : (s.onCircuit n f).desk = s.desk :=
  (onCircuit_frame n f hf s).desk

/-! ### Contact and safety inputs, cues and stages (R116 to R136) -/

/-- The record of a contact input written with its configuration kept. -/
theorem withContact_desk {n : Nat} {x : ContactInput} {s : State} (h : (s.contact n).map (·.config) = some x.config) :
    (s.withContact n x).desk = s.desk := by
  unfold State.withContact
  split
  · rfl
  · next hn =>
    refine withInputs_desk ?_
    rw [State.contact, if_neg hn, ← List.getElem?_map] at h
    obtain ⟨hlt, hget⟩ := List.getElem?_eq_some_iff.1 h
    rw [List.map_set, ← hget, List.set_getElem_self]

section
variable {n : Nat} {x : ContactInput} {s : State} (h : (s.contact n).map (·.config) = some x.config)
include h

theorem contactClosed_desk : (s.contactClosed n x).desk = s.desk := by
  unfold State.contactClosed
  split
  · rw [resolve_desk]; exact withContact_desk h
  · exact withContact_desk h

theorem contactOpened_desk : (s.contactOpened n x).desk = s.desk := by
  unfold State.contactOpened
  dsimp only
  split
  · rw [resolve_desk]; exact withContact_desk h
  · exact withContact_desk h

theorem contactHeld_desk : (s.contactHeld n x).desk = s.desk := by
  rw [State.contactHeld, resolve_desk]; exact withContact_desk h

theorem contactStuck_desk : (s.contactStuck n x).desk = s.desk := by
  rw [State.contactStuck, raise_desk, stateEndMovement_desk]; exact withContact_desk h

theorem contactCounted_desk : (s.contactCounted n x).desk = s.desk := by
  unfold State.contactCounted
  dsimp only
  split
  · split
    · exact contactHeld_desk h
    · split
      · exact contactStuck_desk h
      · exact withContact_desk h
  · exact withContact_desk h

theorem contactTurned_desk : (s.contactTurned n x).desk = s.desk := by
  unfold State.contactTurned
  split
  all_goals
    rw [resolve_desk]
    exact withContact_desk h

end

theorem sampleContact_desk (n : Nat) (level : Bool) (s : State) : (s.sampleContact n level).desk = s.desk := by
  unfold State.sampleContact
  split
  · rfl
  · next x hx =>
    have h (p : Pin) : (s.contact n).map (·.config) = some { x with pin := p }.config := by rw [hx]; rfl
    dsimp only
    split
    · exact withContact_desk (h _)
    · split
      · exact contactTurned_desk (h _)
      · exact withContact_desk (h _)
    · split
      · split
        · exact contactClosed_desk (h _)
        · exact contactOpened_desk (h _)
      · exact contactCounted_desk (h _)

theorem onContact_desk (n : Nat) (occasion : ContactInput → Bool) {f : ContactInput → State → State} {s : State}
    (hf : ∀ x, (s.contact n).map (·.config) = some x.config → (f x s).desk = s.desk) : (s.onContact n occasion f).desk = s.desk := by
  unfold State.onContact
  split
  · rfl
  · next x hx =>
    split
    · exact hf x (by rw [hx]; rfl)
    · rfl

@[simp] theorem assertInput_desk (i : SafeInput) (s : State) : (s.assertInput i).desk = s.desk := by
  rw [State.assertInput, raise_desk, mapCircuits_desk (by simp), withSafePin_desk]

@[simp] theorem deassertInput_desk (i : SafeInput) (s : State) : (s.deassertInput i).desk = s.desk := by
  rw [State.deassertInput, raise_desk, mapCircuits_desk (by simp), withSafePin_desk]

theorem sampleSafe_desk (i : SafeInput) (level : Bool) (s : State) : (s.sampleSafe i level).desk = s.desk := by
  unfold State.sampleSafe
  repeat' split
  all_goals simp

theorem actEntry_cfg (m : Maker) (e : StageForm) (c : Circuit) : (actEntry m e c).cfg = c.cfg := by cases e <;> simp [actEntry]

@[simp] theorem transferOne_desk (i : StageId) (s : State) : (s.transferOne i).desk = s.desk := by
  rw [State.transferOne, withStage_desk]
  exact (foldCircuits_frame Prod.fst (fun e => actEntry i.maker e.2) (fun e => actEntry_cfg i.maker e.2) _ s).desk

@[simp] theorem transfer_desk (i : StageId) (s : State) : (s.transfer i).desk = s.desk := by
  unfold State.transfer; dsimp only; split <;> simp

@[simp] theorem cueArrives_desk (c : CueLine) (s : State) : (s.cueArrives c).desk = s.desk := by
  unfold State.cueArrives
  dsimp only
  repeat' split
  all_goals simp

theorem cueHappens_desk (c : CueLine) (s : State) : (s.cueHappens c).desk = s.desk := by
  rw [State.cueHappens, cueArrives_desk]; exact withCue_desk c rfl

theorem sampleCue_desk (c : CueLine) (level : Bool) (s : State) : (s.sampleCue c level).desk = s.desk := by
  unfold State.sampleCue
  dsimp only
  split
  · rw [cueArrives_desk]; exact withCue_desk c rfl
  · exact withCue_desk c rfl

theorem sampleInput_desk (pins : BitVec 28) (s : State) (n : Nat) : (State.sampleInput pins s n).desk = s.desk := by
  unfold State.sampleInput
  dsimp only
  split
  · exact sampleSafe_desk .safe1 _ s
  · split
    · exact sampleSafe_desk .safe2 _ s
    · split
      · exact sampleCue_desk .cue1 _ s
      · split
        · exact sampleCue_desk .cue2 _ s
        · exact sampleContact_desk n _ s

theorem settleContacts_config (pins : BitVec 28) (n : Nat) (l : List ContactInput) :
    (settleContacts pins n l).map (·.config) = l.map (·.config) := by
  induction l generalizing n with
  | nil => rfl
  | cons x l ih => simp [settleContacts, ih]

theorem settleSample_desk (pins : BitVec 28) (s : State) : (s.settleSample pins).desk = s.desk := by
  unfold State.settleSample
  split
  · rfl
  · dsimp only
    rw [withSettleSamples_desk]
    refine (withCue_desk .cue2 rfl).trans ((withCue_desk .cue1 rfl).trans ?_)
    rw [withSafe2_desk, withSafe1_desk]
    exact withInputs_desk (settleContacts_config pins 1 s.inputs)

/-- A sample of the pins (R116, R122). -/
theorem contactSample_desk (pins : BitVec 28) (order : List Nat) (s : State) : (s.contactSample pins order).desk = s.desk := by
  unfold State.contactSample
  split
  · exact settleSample_desk pins s
  · exact List.foldlRecOn (motive := fun t : State => t.desk = s.desk) _ _ rfl fun u hu n _ => (sampleInput_desk pins u n).trans hu
  · rfl
  · rfl

/-! ### Station lines (R97 to R113) -/

@[simp] theorem LineCtl.abandonCensus_stored (c : LineCtl) : c.abandonCensus.stored = c.stored := by rw [LineCtl.abandonCensus_eq]; rfl

@[simp] theorem LineCtl.becomeOff_stored (c : LineCtl) : c.becomeOff.stored = c.stored := by rw [LineCtl.becomeOff_eq]; rfl

@[simp] theorem LineCtl.enterFault_stored (c : LineCtl) : c.enterFault.stored = c.stored := by rw [LineCtl.enterFault_eq]; rfl

@[simp] theorem LineCtl.endExchange_stored (c : LineCtl) : c.endExchange.stored = c.stored := by
  unfold LineCtl.endExchange
  split
  · rw [LineCtl.becomeOff_stored]; rfl
  · rfl

@[simp] theorem LineCtl.allSent_stored (c : LineCtl) : c.allSent.stored = c.stored := by
  unfold LineCtl.allSent
  split
  · rfl
  · split
    · rfl
    · split
      · rw [LineCtl.endExchange_stored]; rfl
      · rfl

@[simp] theorem LineCtl.recover_stored (c : LineCtl) : c.recover.stored = c.stored := by
  simp [LineCtl.recover, LineCtl.stored, LineCtl.becomeRunning, Function.comp_def]

/-- A change of a station record that keeps what the image stores of it (R156). -/
theorem onStation_desk (l : Line) (a : Nat) {f : Station → Station} (hf : ∀ r, (f r).ident = r.ident) (s : State) :
    (s.onStation l a f).desk = s.desk := by
  refine withLine_desk ?_
  have hident (r : Station) : (if r.ident.address = a then f r else r).ident = r.ident := by split <;> simp [hf]
  simp [LineCtl.stored, mapStation, Function.comp_def, hident]

@[simp] theorem faultLine_desk (l : Line) (s : State) : (s.faultLine l).desk = s.desk := by
  rw [State.faultLine, raise_desk]; exact withLine_desk (by simp)

@[simp] theorem poll_desk (l : Line) (r : Station) (s : State) : (s.poll l r).desk = s.desk := withLine_desk rfl

@[simp] theorem endRound_desk (l : Line) (s : State) : (s.endRound l).desk = s.desk := by
  unfold State.endRound
  dsimp only
  split
  · split
    · exact withLine_desk rfl
    · rw [raise_desk]; exact withLine_desk rfl
  · exact withLine_desk rfl

@[simp] theorem walk_desk (l : Line) (s : State) : (s.walk l).desk = s.desk := by unfold State.walk; split <;> simp

theorem repeatOrWalk_desk (l : Line) (s : State) : (s.repeatOrWalk l).desk = s.desk := by
  unfold State.repeatOrWalk
  split
  · split
    · exact poll_desk l _ s
    · rw [walk_desk]; exact withLine_desk rfl
  · split
    · exact withLine_desk rfl
    · rw [walk_desk]; exact withLine_desk rfl
  · exact walk_desk l s

theorem chooseExchange_desk (l : Line) (s : State) : (s.chooseExchange l).desk = s.desk := by
  unfold State.chooseExchange
  split
  · rfl
  · split
    · exact withLine_desk rfl
    · split
      · rfl
      · exact repeatOrWalk_desk l s

theorem collide_desk (l : Line) (s : State) : (s.collide l).desk = s.desk := by
  unfold State.collide
  split
  · rfl
  · split
    · rfl
    · dsimp only
      split
      · rw [faultLine_desk]; exact withLine_desk rfl
      · exact withLine_desk (by rw [LineCtl.endExchange_stored]; rfl)

@[simp] theorem raiseIf_desk (cond : Bool) (f : Flag) (s : State) : (s.raiseIf cond f).desk = s.desk := by
  unfold State.raiseIf; split <;> simp

theorem validReply_desk (l : Line) (r : Station) (reply : StationReply) (s : State) : (s.validReply l r reply).desk = s.desk := by
  have hstation := onStation_desk l r.ident.address (f := Station.answered reply) (fun _ => rfl) s
  unfold State.validReply
  dsimp only
  split <;> simp [hstation]

theorem miss_desk (l : Line) (r : Station) (s : State) : (s.miss l r).desk = s.desk := by
  have hstation := onStation_desk l r.ident.address Station.missed_ident s
  unfold State.miss
  dsimp only
  split <;> simp [hstation]

theorem censusJudged_desk (l : Line) (a : Nat) (entry : Option StationIdent) (s : State) : (s.censusJudged l a entry).desk = s.desk := by
  unfold State.censusJudged
  dsimp only
  split
  · rw [raise_desk]; exact withLine_desk rfl
  · exact withLine_desk rfl

theorem judge_desk (l : Line) (x : Exchange) (chars : Option (List RxChar)) (s : State) : (s.judge l x chars).desk = s.desk := by
  unfold State.judge
  split
  · split
    · split
      · exact validReply_desk l _ _ s
      · exact miss_desk l _ s
    · rfl
  · exact censusJudged_desk l _ _ s
  · rfl

/-- The end of a reply window (R105). -/
theorem endReply_desk (l : Line) (chars : Option (List RxChar)) (s : State) : (s.endReply l chars).desk = s.desk := by
  unfold State.endReply
  split
  · rfl
  · split
    · rfl
    · exact (withLine_desk (LineCtl.endExchange_stored _)).trans (judge_desk l _ chars s)

theorem breakLine_desk (l : Line) (s : State) : (s.breakLine l).desk = s.desk := by unfold State.breakLine; split <;> simp

theorem recoverLine_desk (l : Line) (s : State) : (s.recoverLine l).desk = s.desk := by
  unfold State.recoverLine
  split
  · exact withLine_desk (LineCtl.recover_stored _)
  · rfl

theorem endWait_desk (l : Line) (s : State) : (s.endWait l).desk = s.desk := by
  unfold State.endWait
  split
  · exact withLine_desk rfl
  · rfl

/-! ### The rack link (R143) -/

theorem reachNextStart_desk (s : State) : s.reachNextStart.desk = s.desk := by
  unfold State.reachNextStart
  repeat' split
  all_goals rfl

theorem endFrame_desk (s : State) : s.endFrame.desk = s.desk := by
  unfold State.endFrame
  repeat' split
  all_goals rfl

/-! ### Every event -/

/-- The events that may write the console: those of supply, reset and start-up, of the port, and of the store. -/
def worksConsole : Instr → Bool
  | .powerOn | .resetPinLow | .resetPinRelease | .inputSettlingEnd | .supplyLost => true
  | .requestTransaction _ | .fetch _ | .saveOperationEnd _ | .eraseOperationEnd => true
  | _ => false

theorem whenRunning_desk {f : State → State} (hf : ∀ s, (f s).desk = s.desk) (s : State) : (s.whenRunning f).desk = s.desk := by
  unfold State.whenRunning
  split
  · exact hf s
  · rfl

/-- Every other event leaves the console and the live tables. -/
theorem exec_event_desk {i : Instr} {s t : State} (he : exec i s = .next t) (hi : worksConsole i = false) (hcode : requestCode i = none) :
    t.desk = s.desk := by
  cases i <;> first | (cases hi; done) | (cases hcode; done) | cases he
  case contactSample pins order => exact contactSample_desk pins order s
  case fadeTick => exact whenRunning_desk (mapCircuits_desk Circuit.tick_cfg) s
  case fadeComplete n l => exact whenRunning_desk (onCircuit_desk n (Circuit.finish_cfg l)) s
  case handoverEnd n => exact whenRunning_desk (onCircuit_desk n Circuit.endHandover_cfg) s
  case nextExchange l => exact whenRunning_desk (chooseExchange_desk l) s
  case exchangeSent l => exact whenRunning_desk (fun u => withLine_desk (LineCtl.allSent_stored _)) s
  case collision l => exact whenRunning_desk (collide_desk l) s
  case reply l chars => exact whenRunning_desk (endReply_desk l (some chars)) s
  case replyWindowEnd l => exact whenRunning_desk (endReply_desk l none) s
  case lineBreak l => exact whenRunning_desk (breakLine_desk l) s
  case faultRecovery l => exact whenRunning_desk (recoverLine_desk l) s
  case roundWaitEnd l => exact whenRunning_desk (endWait_desk l) s
  case acceptedClose n => exact whenRunning_desk (f := State.acceptClose n) (fun _ => onContact_desk n _ fun _ h => contactClosed_desk h) s
  case holdTimeReached n => exact whenRunning_desk (f := State.reachHold n) (fun _ => onContact_desk n _ fun _ h => contactHeld_desk h) s
  case stuckTimeReached n => exact whenRunning_desk (f := State.reachStuck n) (fun _ => onContact_desk n _ fun _ h => contactStuck_desk h) s
  case acceptedOpen n => exact whenRunning_desk (f := State.acceptOpen n) (fun _ => onContact_desk n _ fun _ h => contactOpened_desk h) s
  case maintainedChange n closed => exact whenRunning_desk (f := State.turnMaintained n closed) (fun _ => onContact_desk n _ fun _ h => contactTurned_desk h) s
  case safeAssert i => exact whenRunning_desk (fun u => by split <;> simp) s
  case safeDeassert i => exact whenRunning_desk (fun u => by split <;> simp) s
  case cueEvent c => exact whenRunning_desk (cueHappens_desk c) s
  case frameStart => exact whenRunning_desk reachNextStart_desk s
  case frameEnd => exact whenRunning_desk endFrame_desk s

end Sys2Proof.Machine

namespace Sys2Proof.Machine

/-! ### Every request but RESTART, SAVE and ERASE STORE -/

/-- What such a request does before its reply: it leaves the console, and, where the store is busy, the live tables (R157). -/
structure Served (s t : State) : Prop where
  console : t.console = s.console
  stored : s.store.state ≠ .ready → t.stored = s.stored

theorem Served.of_desk {s t : State} (h : t.desk = s.desk) : Served s t := ⟨console_of_desk h, fun _ => stored_of_desk h⟩

/-- A write of a stored table is refused while the store is busy (R157). -/
theorem storedWrite_served {owner : State → Carried} (howner : ∀ s, (owner s).state.console = s.console) (s : State) :
    Served s (State.storedWrite owner s).state := by
  by_cases hready : s.store.state = .ready
  · rw [storedWrite_ready hready]
    exact ⟨howner s, fun hbusy => absurd hready hbusy⟩
  · rw [storedWrite_busy hready]
    exact .of_desk rfl

theorem clearAttention_desk (flags : Nat) (s : State) : (s.clearAttention flags).state.desk = s.desk := by
  unfold State.clearAttention; split <;> rfl

theorem claimLevel_desk (n code v fade : Nat) (s : State) : (s.claimLevel n code v fade).state.desk = s.desk := by
  unfold State.claimLevel
  split
  · rfl
  · split
    · exact onCircuit_desk n (by simp) s
    · rfl

theorem releaseLayer_desk (n code fade : Nat) (s : State) : (s.releaseLayer n code fade).state.desk = s.desk := by
  unfold State.releaseLayer
  split
  · rfl
  · split
    · exact onCircuit_desk n (by simp) s
    · rfl

theorem injectEvent_desk (k : RawKey) (kind : Nat) (s : State) : (s.injectEvent k kind).state.desk = s.desk := by
  unfold State.injectEvent
  repeat' split
  all_goals simp

theorem setMode_desk (m : Nat) (fade : Option Nat) (s : State) : (s.setMode m fade).state.desk = s.desk := by
  unfold State.setMode
  repeat' split
  all_goals simp

theorem censusStart_desk (line : Nat) (s : State) : (s.censusStart line).state.desk = s.desk := by
  unfold State.censusStart
  split
  · rfl
  · split
    · rfl
    · split
      · rfl
      · exact withLine_desk rfl

theorem stageEntry_desk (stage circuit : Nat) (e : StageForm) (s : State) : (s.stageEntry stage circuit e).state.desk = s.desk := by
  unfold State.stageEntry
  repeat' split
  all_goals simp

theorem stageClear_desk (stage : Nat) (s : State) : (s.stageClear stage).state.desk = s.desk := by
  unfold State.stageClear
  repeat' split
  all_goals simp

theorem setStageTrigger_desk (stage trigger : Nat) (s : State) : (s.setStageTrigger stage trigger).state.desk = s.desk := by
  unfold State.setStageTrigger
  repeat' split
  all_goals simp

theorem standby_desk (stage : Nat) (s : State) : (s.standby stage).state.desk = s.desk := by
  unfold State.standby
  repeat' split
  all_goals simp

theorem unstandby_desk (stage : Nat) (s : State) : (s.unstandby stage).state.desk = s.desk := by
  unfold State.unstandby
  repeat' split
  all_goals simp

theorem go_desk (stage : Nat) (s : State) : (s.go stage).state.desk = s.desk := by
  unfold State.go
  repeat' split
  all_goals simp

/-! The writes of the stored tables leave the console. -/

theorem setAttentionMask_console (mask : Nat) (s : State) : (s.setAttentionMask mask).state.console = s.console := by
  unfold State.setAttentionMask; split <;> rfl

theorem setCircuitConfig_console (first last : Nat) (f : CircuitFields) (s : State) :
    (s.setCircuitConfig first last f).state.console = s.console := by
  unfold State.setCircuitConfig
  repeat' split
  all_goals rfl

theorem addBinding_console (r : RawBinding) (s : State) : (s.addBinding r).state.console = s.console := by
  unfold State.addBinding
  repeat' split
  all_goals rfl

theorem replaceBinding_console (n : Nat) (r : RawBinding) (s : State) : (s.replaceBinding n r).state.console = s.console := by
  unfold State.replaceBinding
  repeat' split
  all_goals rfl

theorem RetireFrame.console {s t : State} (h : RetireFrame s t) : t.console = s.console := by rw [h]; rfl

theorem retireBinding_console (n : Nat) (s : State) : (s.retireBinding n).state.console = s.console := by
  unfold State.retireBinding
  repeat' split
  · rfl
  · rfl
  · exact (retire_frame n s).console

theorem retireSource_console (k : RawKey) (s : State) : (s.retireSource k).state.console = s.console := by
  unfold State.retireSource
  split
  · rfl
  · exact (retireAll_frame _ s).console

theorem disable_console (n : Nat) (s : State) : (s.disable n).state.console = s.console := by
  unfold State.disable
  repeat' split
  all_goals rfl

theorem enable_console (n : Nat) (s : State) : (s.enable n).state.console = s.console := by
  unfold State.enable
  repeat' split
  all_goals rfl

theorem writeGroup_console (g : Nat) (ranges : List (Nat × Nat)) (s : State) : (s.writeGroup g ranges).state.console = s.console := by
  unfold State.writeGroup
  dsimp only
  repeat' split
  all_goals rfl

theorem deleteGroup_console (g : Nat) (s : State) : (s.deleteGroup g).state.console = s.console := by
  unfold State.deleteGroup
  repeat' split
  all_goals rfl

@[simp] theorem placeScene_console (n : Nat) (sc : Scene) (s : State) : (s.placeScene n sc).state.console = s.console := by
  unfold State.placeScene; split <;> rfl

theorem writeScene_console (n : Nat) (fade : Option Nat) (entries : List (Nat × Nat)) (s : State) :
    (s.writeScene n fade entries).state.console = s.console := by
  unfold State.writeScene
  repeat' split
  all_goals simp

theorem extendScene_console (n : Nat) (entries : List (Nat × Nat)) (s : State) : (s.extendScene n entries).state.console = s.console := by
  unfold State.extendScene
  repeat' split
  all_goals simp

theorem captureScene_console (n : Nat) (fade : Option Nat) (ranges : List (Nat × Nat)) (s : State) :
    (s.captureScene n fade ranges).state.console = s.console := by
  unfold State.captureScene
  repeat' split
  all_goals simp

theorem deleteScene_console (n : Nat) (s : State) : (s.deleteScene n).state.console = s.console := by
  unfold State.deleteScene
  repeat' split
  all_goals rfl

theorem setModeOptions_console (f : OptionFields) (s : State) : (s.setModeOptions f).state.console = s.console := by
  unfold State.setModeOptions; split <;> rfl

theorem setLinkConfig_console (period : Nat) (s : State) : (s.setLinkConfig period).state.console = s.console := by
  unfold State.setLinkConfig; split <;> rfl

@[simp] theorem withLine_console (l : Line) (x : LineCtl) (s : State) : (s.withLine l x).console = s.console := by cases l <;> rfl

theorem setLineConfig_console (line : Nat) (f : LineFields) (s : State) : (s.setLineConfig line f).state.console = s.console := by
  unfold State.setLineConfig
  repeat' split
  all_goals simp

theorem enrolStation_console (line a buttons indicators : Nat) (s : State) :
    (s.enrolStation line a buttons indicators).state.console = s.console := by
  unfold State.enrolStation
  repeat' split
  all_goals simp

theorem unenrolStation_console (line a : Nat) (s : State) : (s.unenrolStation line a).state.console = s.console := by
  have hmove (p : LocalOwner → Bool) : (s.endMovement p).console = s.console := rfl
  unfold State.unenrolStation
  dsimp only
  repeat' split
  all_goals simp [hmove]

theorem setInputConfig_console (n : Nat) (f : InputFields) (s : State) : (s.setInputConfig n f).state.console = s.console := by
  have hcue (c : CueLine) (x : CueInput) : (s.withCue c x).console = s.console := by cases c <;> rfl
  have hcontact (x : ContactInput) : (s.withContact n x).console = s.console := by unfold State.withContact; split <;> rfl
  unfold State.setInputConfig
  repeat' split
  all_goals simp [hcue, hcontact]

/-- A request whose owner does no more than that. -/
def IsServed (i : Instr) : Prop :=
  ∃ owner : State → Carried, (∀ s, exec i s = .next (s.complete i owner)) ∧ ∀ s, Served s (owner s).state

/-- A read. -/
theorem IsServed.read {i : Instr} {owner : State → Carried} (he : ∀ s, exec i s = .next (s.complete i owner))
    (ho : ∀ s, (owner s).state = s) : IsServed i := ⟨owner, he, fun s => .of_desk (by rw [ho])⟩

/-- A request that leaves the live tables. -/
theorem IsServed.action {i : Instr} {owner : State → Carried} (he : ∀ s, exec i s = .next (s.complete i owner))
    (ho : ∀ s, (owner s).state.desk = s.desk) : IsServed i := ⟨owner, he, fun s => .of_desk (ho s)⟩

/-- A write of a stored table. -/
theorem IsServed.write {i : Instr} {owner : State → Carried} (he : ∀ s, exec i s = .next (s.complete i (State.storedWrite owner)))
    (ho : ∀ s, (owner s).state.console = s.console) : IsServed i := ⟨_, he, storedWrite_served ho⟩

/-- Each of these requests is a read, an action that leaves the live tables, or a write that a busy store refuses. -/
theorem exec_request_served {i : Instr} (h : (requestCode i).isSome = true) (hr : i ≠ .restart) (hs : i ≠ .save) (he : i ≠ .eraseStore) :
    IsServed i := by
  cases i <;> try (cases h; done)
  case restart => exact absurd rfl hr
  case save => exact absurd rfl hs
  case eraseStore => exact absurd rfl he
  case readIdentity | readAttention | readMode | readRackLink | readStoreState => exact .read (fun _ => rfl) fun _ => rfl
  case readCircuitConfig first count => exact .read (fun _ => rfl) (readCircuitConfig_state first count)
  case readCircuitState first count => exact .read (fun _ => rfl) (readCircuitState_state first count)
  case readBinding n => exact .read (fun _ => rfl) (readBinding_state n)
  case findBindings k kind => exact .read (fun _ => rfl) (findBindings_state k kind)
  case readGroup g first count => exact .read (fun _ => rfl) (readGroup_state g first count)
  case readScene n first count => exact .read (fun _ => rfl) (readScene_state n first count)
  case readStation line a => exact .read (fun _ => rfl) (readStation_state line a)
  case readLine line => exact .read (fun _ => rfl) (readLine_state line)
  case censusRead line => exact .read (fun _ => rfl) (censusRead_state line)
  case readInput n => exact .read (fun _ => rfl) (readInput_state n)
  case readStage stage first count => exact .read (fun _ => rfl) (readStage_state stage first count)
  case clearAttention flags => exact .action (fun _ => rfl) (clearAttention_desk flags)
  case claimLevel n code v fade => exact .action (fun _ => rfl) (claimLevel_desk n code v fade)
  case releaseLayer n code fade => exact .action (fun _ => rfl) (releaseLayer_desk n code fade)
  case injectEvent k kind => exact .action (fun _ => rfl) (injectEvent_desk k kind)
  case setMode m fade => exact .action (fun _ => rfl) (setMode_desk m fade)
  case censusStart line => exact .action (fun _ => rfl) (censusStart_desk line)
  case stageEntry stage circuit e => exact .action (fun _ => rfl) (stageEntry_desk stage circuit e)
  case stageClear stage => exact .action (fun _ => rfl) (stageClear_desk stage)
  case setStageTrigger stage trigger => exact .action (fun _ => rfl) (setStageTrigger_desk stage trigger)
  case standby stage => exact .action (fun _ => rfl) (standby_desk stage)
  case unstandby stage => exact .action (fun _ => rfl) (unstandby_desk stage)
  case go stage => exact .action (fun _ => rfl) (go_desk stage)
  case setAttentionMask mask => exact .write (fun _ => rfl) (setAttentionMask_console mask)
  case setCircuitConfig first last f => exact .write (fun _ => rfl) (setCircuitConfig_console first last f)
  case addBinding r => exact .write (fun _ => rfl) (addBinding_console r)
  case replaceBinding n r => exact .write (fun _ => rfl) (replaceBinding_console n r)
  case retireBinding n => exact .write (fun _ => rfl) (retireBinding_console n)
  case retireSource k => exact .write (fun _ => rfl) (retireSource_console k)
  case disable n => exact .write (fun _ => rfl) (disable_console n)
  case enable n => exact .write (fun _ => rfl) (enable_console n)
  case writeGroup g ranges => exact .write (fun _ => rfl) (writeGroup_console g ranges)
  case deleteGroup g => exact .write (fun _ => rfl) (deleteGroup_console g)
  case writeScene n fade entries => exact .write (fun _ => rfl) (writeScene_console n fade entries)
  case extendScene n entries => exact .write (fun _ => rfl) (extendScene_console n entries)
  case captureScene n fade ranges => exact .write (fun _ => rfl) (captureScene_console n fade ranges)
  case deleteScene n => exact .write (fun _ => rfl) (deleteScene_console n)
  case setModeOptions f => exact .write (fun _ => rfl) (setModeOptions_console f)
  case setLinkConfig period => exact .write (fun _ => rfl) (setLinkConfig_console period)
  case setLineConfig line f => exact .write (fun _ => rfl) (setLineConfig_console line f)
  case enrolStation line a buttons indicators => exact .write (fun _ => rfl) (enrolStation_console line a buttons indicators)
  case unenrolStation line a => exact .write (fun _ => rfl) (unenrolStation_console line a)
  case setInputConfig n f => exact .write (fun _ => rfl) (setInputConfig_console n f)

end Sys2Proof.Machine

namespace Sys2Proof.Machine

/-! ## The laws of the port and of the settings store -/

/-- What R148 says of the port in a phase of the part. -/
structure Port.Fits (phase : Phase) (p : Port) : Prop where
  slot : p.state = .done ↔ p.slot.isSome = true
  request : p.state = .working ↔ p.request.isSome = true
  running : phase = .running → p.state ≠ .starting
  settling : phase = .settling → p.state = .starting ∨ p.state = .done
  off : phase = .held ∨ phase = .unpowered → p.state = .starting

/-- What R146 and R150 say of a transaction in progress. -/
structure Transfer.Fits (p : Port) (x : Transfer) : Prop where
  due : ∀ f, x.due = some f → p.state = .done ∧ ∃ r, p.slot = some r ∧ f = r.frame
  current : ∀ c, x.current = some c → c.bits.length < 8

/-- The law of the port, part by part. -/
structure State.PortFits (s : State) : Prop where
  port : s.port.Fits s.phase
  off : s.phase = .held ∨ s.phase = .unpowered → s.spi = none
  transfer : ∀ x, s.spi = some x → x.Fits s.port

theorem portSound_iff (s : State) : s.PortSound ↔ s.PortFits := by
  constructor
  · rintro ⟨hslot, hrequest, hrunning, hsettling, hoff, hdue, hcurrent⟩
    exact ⟨⟨hslot, hrequest, hrunning, hsettling, fun h => (hoff h).1⟩, fun h => (hoff h).2,
      fun x hx => ⟨fun f => hdue x f hx, fun c => hcurrent x c hx⟩⟩
  · rintro ⟨⟨hslot, hrequest, hrunning, hsettling, hstarting⟩, hoff, htransfer⟩
    exact ⟨hslot, hrequest, hrunning, hsettling, fun h => ⟨hstarting h, hoff h⟩, fun x f hx => (htransfer x hx).due f,
      fun x c hx => (htransfer x hx).current c⟩

/-- The laws of the port and of the store. -/
structure State.DeskSound (s : State) : Prop where
  port : s.PortFits
  store : s.StoreSound

/-- The law of the port does not look at the overrun flag, the attention flags and the mask. -/
theorem Port.Fits.congr {phase : Phase} {p q : Port} (h : p.Fits phase) (hstate : q.state = p.state) (hslot : q.slot = p.slot)
    (hrequest : q.request = p.request) : q.Fits phase := by
  obtain ⟨h1, h2, h3, h4, h5⟩ := h
  rw [← hstate] at h1 h2 h3 h4 h5
  exact ⟨hslot ▸ h1, hrequest ▸ h2, h3, h4, h5⟩

theorem Transfer.Fits.congr {p q : Port} {x : Transfer} (h : x.Fits p) (hstate : q.state = p.state) (hslot : q.slot = p.slot) : x.Fits q :=
  ⟨by rw [hstate, hslot]; exact h.due, h.current⟩

theorem State.PortFits.congr {s t : State} (h : s.PortFits) (hphase : t.phase = s.phase) (hstate : t.port.state = s.port.state)
    (hslot : t.port.slot = s.port.slot) (hrequest : t.port.request = s.port.request) (hspi : t.spi = s.spi) : t.PortFits :=
  ⟨hphase ▸ h.port.congr hstate hslot hrequest, by rw [hphase, hspi]; exact h.off,
    fun x hx => (h.transfer x (hspi ▸ hx)).congr hstate hslot⟩

theorem State.PortFits.of_console {s t : State} (h : s.PortFits) (ht : t.console = s.console) : t.PortFits := by
  simp only [State.console, Console.mk.injEq] at ht
  obtain ⟨hphase, -, hstate, hslot, hrequest, hspi, -⟩ := ht
  exact h.congr hphase hstate hslot hrequest hspi

/-- The store's law looks at the phase, the store, and, while it is Saving, the live tables (R157 to R159). -/
theorem State.StoreSound.of_store {s t : State} (h : s.StoreSound) (hphase : t.phase = s.phase) (hstore : t.store = s.store)
    (hstored : s.store.state = .saving → t.stored = s.stored) : t.StoreSound := by
  obtain ⟨hcopy, hbusy, hvalid, hready⟩ := h
  unfold State.StoreSound
  rw [hphase, hstore]
  exact ⟨fun hs => (hcopy hs).trans (congrArg some (hstored hs).symm), hbusy, hvalid, hready⟩

theorem Served.deskSound {s t : State} (h : Served s t) (hs : s.DeskSound) : t.DeskSound :=
  ⟨hs.port.of_console h.console, hs.store.of_store (congrArg Console.phase h.console) (congrArg Console.store h.console)
    fun hsaving => h.stored (by rw [hsaving]; exact nofun)⟩

theorem State.DeskSound.of_desk {s t : State} (h : s.DeskSound) (ht : t.desk = s.desk) : t.DeskSound := (Served.of_desk ht).deskSound h

theorem State.DeskSound.withResetLow {s : State} (h : s.DeskSound) (low : Bool) : (s.withResetLow low).DeskSound :=
  ⟨h.port.congr rfl rfl rfl rfl rfl, h.store.of_store rfl rfl fun _ => rfl⟩

/-- A change of the port alone, but for its mask. -/
theorem State.DeskSound.withPort {s : State} (h : s.DeskSound) {p : Port} (hmask : p.mask = s.port.mask) (hp : p.Fits s.phase)
    (hx : ∀ x, s.spi = some x → x.Fits p) : (s.withPort p).DeskSound :=
  ⟨⟨hp, h.port.off, hx⟩, h.store.of_store rfl rfl fun _ => by simp only [State.stored, withPort_port, hmask]; rfl⟩

/-! ### Requests (R148, R149) -/

/-- A reply placed while start-up settles, or in a running part. -/
theorem Port.fits_answered {phase : Phase} (h : phase = .settling ∨ phase = .running) (p : Port) (r : Reply) :
    Port.Fits phase { p with slot := some r, state := .done, request := none } :=
  ⟨iff_of_true rfl rfl, iff_of_false nofun nofun, fun _ => nofun, fun _ => .inr rfl, by rcases h with rfl | rfl <;> exact nofun⟩

/-- A request accepted by a running part. -/
theorem Port.fits_accepted (p : Port) (i : Instr) : Port.Fits .running { p with slot := none, state := .working, request := some i } :=
  ⟨iff_of_false nofun nofun, iff_of_true rfl rfl, fun _ => nofun, nofun, nofun⟩

/-- A transaction that has no reply to send does not look at the port (R150). -/
theorem Transfer.Fits.of_notDone {p q : Port} {x : Transfer} (h : x.Fits p) (hp : p.state ≠ .done) : x.Fits q :=
  ⟨fun f hf => absurd (h.due f hf).1 hp, h.current⟩

theorem answer_deskSound {s : State} (h : s.DeskSound) (hphase : s.phase = .settling ∨ s.phase = .running)
    (hfree : s.port.state = .working ∨ s.spi = none) (e : Byte) (r : ResultCode) (p : List Byte) : (s.answer e r p).DeskSound := by
  refine h.withPort rfl (Port.fits_answered hphase _ _) fun x hx => ?_
  rcases hfree with hw | hnone
  · exact (h.port.transfer x hx).of_notDone (by rw [hw]; exact nofun)
  · rw [hnone] at hx; cases hx

theorem accept_deskSound {s : State} (h : s.DeskSound) (hrun : s.phase = .running) (hfree : s.port.state = .working ∨ s.spi = none)
    (i : Instr) : (s.accept i).DeskSound := by
  refine h.withPort rfl (hrun ▸ Port.fits_accepted _ i) fun x hx => ?_
  rcases hfree with hw | hnone
  · exact (h.port.transfer x hx).of_notDone (by rw [hw]; exact nofun)
  · rw [hnone] at hx; cases hx

/-- What becomes of a request row (R148; log 4, log 31): nothing, a STARTING reply, a discard, or what the request carries out. -/
theorem requestStep_outcomes (i : Instr) (carry : State → State) (s : State) :
    s.requestStep i carry = s
    ∨ (s.phase = .settling ∧ s.spi = none ∧ s.requestStep i carry = s.answer (requestEcho i) .starting [])
    ∨ s.requestStep i carry = s.discardRequest
    ∨ (s.phase = .running ∧ (s.port.state = .working ∨ s.spi = none) ∧ s.requestStep i carry = carry (s.accept i)) := by
  unfold State.requestStep State.whenSelFree
  cases hphase : s.phase <;> cases hspi : s.spi <;> by_cases hw : s.port.state = .working <;> by_cases hi : s.port.request = some i <;>
    simp [hw, hi]

theorem requestStep_deskSound {i : Instr} {carry : State → State}
    (hcarry : ∀ u, u.phase = .running → u.port.state = .working → u.DeskSound → (carry u).DeskSound) {s : State} (h : s.DeskSound) :
    (s.requestStep i carry).DeskSound := by
  rcases requestStep_outcomes i carry s with he | ⟨hphase, hspi, he⟩ | he | ⟨hrun, hfree, he⟩ <;> rw [he]
  · exact h
  · exact answer_deskSound h (.inl hphase) (.inr hspi) _ _ _
  · exact h.of_desk rfl
  · exact hcarry _ hrun rfl (accept_deskSound h hrun hfree i)

/-- A request whose owner keeps the laws, and leaves the phase and the state of the port (R149). -/
theorem complete_deskSound {i : Instr} {owner : State → Carried} (hphase : ∀ u, (owner u).state.phase = u.phase)
    (hstate : ∀ u, (owner u).state.port.state = u.port.state)
    (howner : ∀ u, u.phase = .running → u.DeskSound → (owner u).state.DeskSound) {s : State} (h : s.DeskSound) :
    (s.complete i owner).DeskSound :=
  requestStep_deskSound (fun u hrun hw hu =>
    answer_deskSound (howner u hrun hu) (.inr ((hphase u).trans hrun)) (.inl ((hstate u).trans hw)) _ _ _) h

theorem IsServed.deskSound {i : Instr} (hi : IsServed i) {s t : State} (he : exec i s = .next t) (h : s.DeskSound) : t.DeskSound := by
  obtain ⟨owner, hexec, howner⟩ := hi
  rw [hexec] at he
  cases he
  exact complete_deskSound (fun u => congrArg Console.phase (howner u).console) (fun u => congrArg Console.state (howner u).console)
    (fun u _ hu => (howner u).deskSound hu) h

/-! ### The settings store (R157, R158) -/

/-- SAVE and ERASE STORE write the store alone. -/
theorem save_touches (s : State) : s.save.state = { s with store := s.save.state.store } := by unfold State.save; split <;> rfl

theorem eraseStore_touches (s : State) : s.eraseStore.state = { s with store := s.eraseStore.state.store } := by
  unfold State.eraseStore; split <;> rfl

theorem save_deskSound {s : State} (hrun : s.phase = .running) (h : s.DeskSound) : s.save.state.DeskSound := by
  unfold State.save
  split
  · exact h
  · exact ⟨h.port.congr rfl rfl rfl rfl rfl, fun _ => rfl, fun _ => rfl, iff_of_false nofun nofun, fun hn => absurd hrun hn⟩

theorem eraseStore_deskSound {s : State} (hrun : s.phase = .running) (h : s.DeskSound) : s.eraseStore.state.DeskSound := by
  unfold State.eraseStore
  split
  · exact h
  · exact ⟨h.port.congr rfl rfl rfl rfl rfl, nofun, fun _ => rfl, iff_of_false nofun nofun, fun hn => absurd hrun hn⟩

/-- A store that is Ready with no image (R157, R158). -/
theorem storeSound_empty {s : State} (h : s.store = ⟨.ready, false, [], none⟩) : s.StoreSound := by
  unfold State.StoreSound
  rw [h]
  exact ⟨nofun, fun hn => absurd rfl hn, iff_of_false nofun nofun, fun _ => rfl⟩

/-- A verified save leaves the image of the copy, which SAVE took of the live tables (R157). -/
theorem endSave_deskSound (verified : Bool) {s : State} (h : s.DeskSound) : (s.endSave verified).DeskSound := by
  unfold State.endSave
  split
  · exact h
  · next hsaving =>
    have hcopy := h.store.1 (not_not.1 hsaving)
    split
    · refine ⟨h.port.congr rfl rfl rfl rfl rfl, nofun, fun hn => absurd rfl hn, iff_of_true rfl ?_, fun _ => rfl⟩
      simp [hcopy]
    · exact ⟨h.port.congr rfl rfl rfl rfl rfl, storeSound_empty rfl⟩

theorem endErase_deskSound {s : State} (h : s.DeskSound) : s.endErase.DeskSound := by
  unfold State.endErase
  split
  · exact h
  · exact ⟨h.port.congr rfl rfl rfl rfl rfl, storeSound_empty rfl⟩

/-! ### Transactions (R146, R150) -/

/-- SEL has fallen. -/
theorem Transfer.fits_begin (p : Port) : Transfer.Fits p ⟨[], none, false, none⟩ := ⟨nofun, nofun⟩

/-- A byte that begins takes what it sends from the port as it stands (R150). -/
theorem begun_fits {s : State} {x : Transfer} (h : x.Fits s.port) : (s.begun x).Fits s.port := by
  unfold State.begun
  split
  · exact h
  · refine ⟨fun f hf => ?_, fun c hc => by cases hc; exact Nat.zero_lt_succ 7⟩
    dsimp only at hf
    split at hf
    · unfold State.replyDue at hf
      split at hf
      · next hdone =>
        obtain ⟨r, hr, rfl⟩ := Option.map_eq_some_iff.1 hf
        exact ⟨hdone, r, hr, rfl⟩
      · cases hf
    · exact h.due f hf

/-- The eighth bit completes a byte (R146). -/
theorem Transfer.Fits.sampled {p : Port} {x : Transfer} (h : x.Fits p) (sdi : Bool) : (x.sampled sdi).Fits p := by
  unfold Transfer.sampled
  split
  · exact h
  · dsimp only
    split
    · next hlt => exact ⟨h.due, fun c hc => by cases hc; exact hlt⟩
    · exact ⟨h.due, nofun⟩

/-- A transaction that goes on in a part that has its supply and is not held in reset. -/
theorem State.DeskSound.withTransfer {s : State} (h : s.DeskSound) (hphase : s.phase = .settling ∨ s.phase = .running) {x : Transfer}
    (hx : x.Fits s.port) (o : List Bool) : State.DeskSound { s with spi := some x, sdo := o } := by
  refine ⟨⟨h.port.port, fun hoff => ?_, fun y hy => by cases hy; exact hx⟩, h.store.of_store rfl rfl fun _ => rfl⟩
  replace hoff : s.phase = .held ∨ s.phase = .unpowered := hoff
  rcases hphase with hp | hp <;> simp [hp] at hoff

theorem fallSel_deskSound {s : State} (h : s.DeskSound) (hphase : s.phase = .settling ∨ s.phase = .running) : s.fallSel.DeskSound := by
  cases hx : s.spi with
  | none => rw [fallSel_of_none hx]; exact h.withTransfer hphase (Transfer.fits_begin _) _
  | some x => rw [fallSel_of_some hx]; exact h

theorem clockBit_deskSound {s : State} (h : s.DeskSound) (hphase : s.phase = .settling ∨ s.phase = .running) (b : Bool) :
    (s.clockBit b).DeskSound := by
  cases hx : s.spi with
  | none =>
    have he : s.clockBit b = s := by simp [State.clockBit, State.fallSck, State.riseSck, hx]
    rw [he]; exact h
  | some x => rw [clockBit_of_some hx]; exact h.withTransfer hphase ((begun_fits (h.port.transfer x hx)).sampled b) _

theorem clockBits_deskSound (l : List Bool) {s : State} (h : s.DeskSound) (hphase : s.phase = .settling ∨ s.phase = .running) :
    (s.clockBits l).DeskSound := by
  induction l generalizing s with
  | nil => exact h
  | cons b l ih =>
    refine ih (clockBit_deskSound h hphase b) ?_
    rw [show s.clockBit b = s.clockBits [b] from rfl, clockBits_touches]
    exact hphase

/-- What a judged frame makes of the port: a reply, a request, an overrun, or nothing; never another mask (R148). -/
theorem takeFrame_port_fits (j : Judged) {s : State} (h : s.port.Fits s.phase) :
    (s.takeFrame j).port.Fits s.phase ∧ (s.takeFrame j).port.mask = s.port.mask := by
  have hdiscard : s.discardRequest.port.Fits s.phase := h.congr rfl rfl rfl
  unfold State.takeFrame
  cases hphase : s.phase with
  | unpowered | held => rw [hphase] at h; exact ⟨h, rfl⟩
  | settling => cases j <;> exact ⟨Port.fits_answered (.inl rfl) _ _, rfl⟩
  | running =>
    rw [hphase] at hdiscard
    cases j with
    | short code | wrongCheck code =>
      dsimp only
      split
      · exact ⟨hdiscard, rfl⟩
      · exact ⟨Port.fits_answered (.inr rfl) _ _, rfl⟩
    | complete code payload =>
      dsimp only
      split
      · exact ⟨hdiscard, rfl⟩
      · unfold State.takeRequest
        split
        · exact ⟨Port.fits_answered (.inr rfl) _ _, rfl⟩
        · exact ⟨Port.fits_answered (.inr rfl) _ _, rfl⟩
        · exact ⟨Port.fits_accepted _ _, rfl⟩

/-- A reply taken away leaves the port Idle, or Starting while start-up runs (R150). -/
theorem Port.fits_taken {s : State} (h : s.port.Fits s.phase) (hphase : s.phase = .settling ∨ s.phase = .running)
    (hdone : s.port.state = .done) : Port.Fits s.phase { s.port with slot := none, state := s.idleState } := by
  have hrequest : s.port.request.isSome = false := by
    rw [Bool.eq_false_iff, Ne, ← h.request, hdone]
    exact nofun
  rcases hphase with hp | hp <;> rw [hp] <;> simp only [State.idleState, hp]
  · exact ⟨iff_of_false nofun nofun, iff_of_false nofun (Bool.eq_false_iff.1 hrequest), nofun, fun _ => .inl rfl, nofun⟩
  · exact ⟨iff_of_false nofun nofun, iff_of_false nofun (Bool.eq_false_iff.1 hrequest), fun _ => nofun, nofun, nofun⟩

theorem endFetch_port_fits (x : Transfer) {s : State} (h : s.port.Fits s.phase) (hphase : s.phase = .settling ∨ s.phase = .running) :
    (s.endFetch x).port.Fits s.phase ∧ (s.endFetch x).port.mask = s.port.mask := by
  have hoverrun {p : Port} (hp : p.Fits s.phase ∧ p.mask = s.port.mask) (cond : Prop) [Decidable cond] :
      Port.Fits s.phase (if cond then { p with overrun := false } else p)
        ∧ Port.mask (if cond then { p with overrun := false } else p) = s.port.mask := by
    split
    · exact ⟨hp.1.congr rfl rfl rfl, hp.2⟩
    · exact hp
  refine hoverrun ?_ _
  split
  · next hwhole => exact ⟨Port.fits_taken h hphase hwhole.2, rfl⟩
  · exact ⟨h, rfl⟩

theorem riseSel_deskSound {s : State} (h : s.DeskSound) (hphase : s.phase = .settling ∨ s.phase = .running) : s.riseSel.DeskSound := by
  have hend {p : Port} (hp : p.Fits s.phase ∧ p.mask = s.port.mask)  : State.DeskSound { s with port := p, spi := none } :=
    ⟨⟨hp.1, fun _ => rfl, nofun⟩, h.store.of_store rfl rfl fun _ => by simp only [State.stored, hp.2]⟩
  have hsame := hend ⟨h.port.port, rfl⟩
  cases hx : s.spi with
  | none => rw [show s.riseSel = s by simp [State.riseSel, hx]]; exact h
  | some x =>
    obtain ⟨received, due, showed, current⟩ := x
    cases received with
    | nil => rw [riseSel_empty hx]; exact hsame
    | cons first rest =>
      by_cases hr : first = requestSelector
      · subst hr; rw [riseSel_request hx]; exact hend (takeFrame_port_fits _ h.port.port)
      · by_cases hf : first = fetchSelector
        · subst hf; rw [riseSel_fetch hx]; exact hend (endFetch_port_fits _ h.port.port hphase)
        · rw [riseSel_ignored hx hr hf]; exact hsame

/-- A piece of a transaction (R146; log 31). -/
theorem shift_deskSound (bits : List Bool) (rises : Bool) {s : State} (h : s.DeskSound) (hphase : s.phase = .settling ∨ s.phase = .running) :
    (s.shift bits rises).DeskSound := by
  have hlow : (s.shift bits false).DeskSound := by
    refine clockBits_deskSound bits (fallSel_deskSound h hphase) ?_
    unfold State.fallSel
    split <;> exact hphase
  cases rises with
  | false => exact hlow
  | true =>
    have hsame : (s.shift bits false).phase = s.phase := by rw [shift_low_touches]
    exact riseSel_deskSound (s := s.shift bits false) hlow (by rw [hsame]; exact hphase)

/-- A piece of a fetch (R150). -/
theorem fetch_deskSound (bits : Nat) (rises : Bool) {s : State} (h : s.DeskSound) (hphase : s.phase = .settling ∨ s.phase = .running) :
    (s.fetch bits rises).DeskSound := by
  unfold State.fetch
  dsimp only
  repeat' split
  all_goals first | exact shift_deskSound _ _ h hphase | exact h

/-! ### Supply, reset and start-up (R159, R160) -/

/-- The part stopped, held or without supply: the port is Starting and no transaction is in progress. -/
theorem stop_deskSound {p : Phase} (hp : p = .held ∨ p = .unpowered) {s : State} (h : s.StoreSound) : (s.stop p).DeskSound := by
  rw [stop_eq]
  refine ⟨⟨⟨iff_of_false nofun nofun, iff_of_false nofun nofun, ?_, fun _ => .inl rfl, fun _ => rfl⟩, fun _ => rfl, nofun⟩,
    nofun, fun hn => absurd rfl hn, h.2.2.1, fun _ => rfl⟩
  rcases hp with rfl | rfl <;> exact nofun

/-- A start-up begins: the port is Starting, and what goes on is a transaction that has no reply to send (R148, R160; log 31). -/
theorem startUp_deskSound (cause : StartCause) {s : State} (hspi : ∀ x, s.spi = some x → x.due = none ∧ ∀ c, x.current = some c → c.bits.length < 8) :
    (s.startUp cause).DeskSound := by
  rw [startUp_eq cause s _ rfl]
  refine ⟨⟨⟨iff_of_false nofun nofun, iff_of_false nofun nofun, nofun, fun _ => .inl rfl, nofun⟩, nofun, fun x hx => ?_⟩,
    nofun, fun hn => absurd rfl hn, Iff.rfl, fun _ => rfl⟩
  obtain ⟨hdue, hcurrent⟩ := hspi x hx
  exact ⟨fun f hf => (by rw [hdue] at hf; cases hf), hcurrent⟩

/-- Start-up ends: Starting becomes Idle, and a STARTING reply stands (R148). -/
theorem Port.fits_beginRunning {p : Port} (h : p.Fits .settling) : p.beginRunning.Fits .running := by
  unfold Port.beginRunning
  rcases h.settling rfl with hs | hd
  · rw [if_pos hs]
    have hslot := h.slot
    have hrequest := h.request
    rw [hs] at hslot hrequest
    exact ⟨iff_of_false nofun fun hn => absurd (hslot.2 hn) nofun, iff_of_false nofun fun hn => absurd (hrequest.2 hn) nofun, fun _ => nofun, nofun, nofun⟩
  · rw [if_neg (by rw [hd]; exact nofun)]
    exact ⟨h.slot, h.request, fun _ => by rw [hd]; exact nofun, nofun, nofun⟩

theorem beginRunning_transfer {p : Port} {x : Transfer} (h : x.Fits p) : x.Fits p.beginRunning := by
  unfold Port.beginRunning
  split
  · next hs => exact h.of_notDone (by rw [hs]; exact nofun)
  · exact h

/-- The adoption of the inputs leaves the port's state and reply, and raises a flag at most (R122). -/
theorem adoptInputs_console (s : State) : s.adoptInputs.console = s.console := by
  rw [adoptInputs_eq]
  dsimp only [State.console]
  split <;> rfl

theorem endSettling_deskSound {s : State} (h : s.DeskSound) (hphase : s.phase = .settling) : s.endSettling.DeskSound := by
  have hconsole := adoptInputs_console s
  have hport := h.port.of_console hconsole
  have hready : s.adoptInputs.store = s.store ∧ s.store.state = .ready :=
    ⟨congrArg Console.store hconsole, h.store.2.2.2 (by rw [hphase]; exact nofun)⟩
  have hfits : s.adoptInputs.port.Fits .settling := ((congrArg Console.phase hconsole).trans hphase : s.adoptInputs.phase = _) ▸ hport.port
  rw [endSettling_eq]
  refine ⟨⟨(Port.fits_beginRunning hfits).congr rfl rfl rfl, nofun, fun x hx => (beginRunning_transfer (hport.transfer x hx)).congr rfl rfl⟩, ?_⟩
  unfold State.StoreSound
  dsimp only
  rw [hready.1, hready.2]
  exact ⟨nofun, fun hn => absurd rfl hn, h.store.2.2.1, fun hn => absurd rfl hn⟩

/-! ### Every command -/

theorem whenRunning_deskSound {f : State → State} (hf : ∀ s, s.phase = .running → s.DeskSound → (f s).DeskSound) {s : State} (h : s.DeskSound) :
    (s.whenRunning f).DeskSound := by
  unfold State.whenRunning
  split
  · next hrun => exact hf s hrun h
  · exact h

/-- RESTART finds no reply on its way: the port is Working on it (R155). -/
theorem restart_deskSound {s : State} (hrun : s.phase = .running) (hw : s.port.state = .working) (h : s.DeskSound) :
    State.DeskSound (if s.storeBusy then s.answer (requestEcho .restart) .occupied [] else s.startUp .restart) := by
  split
  · exact answer_deskSound h (.inr hrun) (.inl hw) _ _ _
  · refine startUp_deskSound .restart fun x hx => ⟨?_, (h.port.transfer x hx).current⟩
    by_contra hdue
    obtain ⟨f, hf⟩ := Option.ne_none_iff_exists'.1 hdue
    exact absurd (hw.symm.trans ((h.port.transfer x hx).due f hf).1) nofun

/-- The events that may write the console keep the laws. -/
theorem exec_event_deskSound {i : Instr} {s t : State} (he : exec i s = .next t) (hi : worksConsole i = true) (h : s.DeskSound) :
    t.DeskSound := by
  have hstart (cause : StartCause) : ((s.withSpi none).startUp cause).DeskSound := startUp_deskSound cause fun _ hx => nomatch hx
  cases i <;> first | (cases hi; done) | cases he
  case powerOn =>
    split
    · exact stop_deskSound (.inl rfl) h.store
    · exact hstart .powerOn
  case resetPinLow =>
    split
    · exact h.withResetLow true
    · exact (stop_deskSound (.inl rfl) h.store).withResetLow true
  case resetPinRelease =>
    split
    · exact h.withResetLow false
    · exact (hstart .pin).withResetLow false
  case inputSettlingEnd =>
    split
    · next hphase => exact endSettling_deskSound h hphase
    · exact h
  case supplyLost => exact stop_deskSound (.inr rfl) h.store
  case requestTransaction piece =>
    split
    · next hlives => exact shift_deskSound _ _ h (of_decide_eq_true hlives)
    · exact h
  case fetch piece =>
    split
    · next hlives => exact fetch_deskSound _ _ h (of_decide_eq_true hlives)
    · exact h
  case saveOperationEnd verified => exact whenRunning_deskSound (fun _ _ => endSave_deskSound verified) h
  case eraseOperationEnd => exact whenRunning_deskSound (fun _ _ => endErase_deskSound) h

/-- So does every request. -/
theorem exec_request_deskSound {i : Instr} {s t : State} (he : exec i s = .next t) (hi : (requestCode i).isSome = true) (h : s.DeskSound) :
    t.DeskSound := by
  by_cases hr : i = .restart
  · subst hr; cases he
    exact requestStep_deskSound (fun _ => restart_deskSound) h
  by_cases hs : i = .save
  · subst hs; cases he
    exact complete_deskSound (fun u => by rw [save_touches]) (fun u => by rw [save_touches]) (fun _ => save_deskSound) h
  by_cases hx : i = .eraseStore
  · subst hx; cases he
    exact complete_deskSound (fun u => by rw [eraseStore_touches]) (fun u => by rw [eraseStore_touches]) (fun _ => eraseStore_deskSound) h
  exact (exec_request_served hi hr hs hx).deskSound he h

theorem exec_deskSound {i : Instr} {s t : State} (he : exec i s = .next t) (h : s.DeskSound) : t.DeskSound := by
  cases hcode : requestCode i with
  | some code => exact exec_request_deskSound he (by rw [hcode]; rfl) h
  | none =>
    cases hi : worksConsole i with
    | true => exact exec_event_deskSound he hi h
    | false => exact h.of_desk (exec_event_desk he hi hcode)

/-! ### The RESET pin (R160) -/

theorem State.ResetPinSound.congr {s t : State} (h : s.ResetPinSound) (hphase : t.phase = s.phase) (hlow : t.resetLow = s.resetLow) :
    t.ResetPinSound := by
  unfold State.ResetPinSound
  rw [hphase, hlow]
  exact h

theorem State.ResetPinSound.of_console {s t : State} (h : s.ResetPinSound) (ht : t.console = s.console) : t.ResetPinSound :=
  h.congr (congrArg Console.phase ht) (congrArg Console.resetLow ht)

/-- A part that settles or runs has a RESET pin that is high. -/
theorem resetPinSound_live {s : State} (hphase : s.phase = .settling ∨ s.phase = .running) (hlow : s.resetLow = false) : s.ResetPinSound :=
  fun _ => iff_of_false (by rcases hphase with hp | hp <;> rw [hp] <;> exact nofun) (by rw [hlow]; exact nofun)

theorem State.ResetPinSound.low_of_live {s : State} (h : s.ResetPinSound) (hphase : s.phase = .settling ∨ s.phase = .running) :
    s.resetLow = false := by
  rcases hphase with hp | hp <;> simpa [hp] using h (by rw [hp]; exact nofun)

theorem startUp_resetPinSound (cause : StartCause) {s : State} (hlow : s.resetLow = false) : (s.startUp cause).ResetPinSound := by
  rw [startUp_eq cause s _ rfl]
  exact resetPinSound_live (.inl rfl) hlow

theorem exec_event_resetPinSound {i : Instr} {s t : State} (he : exec i s = .next t) (hi : worksConsole i = true) (h : s.ResetPinSound) :
    t.ResetPinSound := by
  have hbackground {u : State} (hu : u.background = s.background) : u.ResetPinSound :=
    h.congr (congrArg Background.phase hu) (congrArg Background.resetLow hu)
  have harrival {f : State → State} (hf : ∀ u, (f u).phase = u.phase ∧ (f u).resetLow = u.resetLow) : (s.whenRunning f).ResetPinSound := by
    unfold State.whenRunning
    split
    · exact h.congr (hf s).1 (hf s).2
    · exact h
  cases i <;> first | (cases hi; done) | cases he
  case powerOn =>
    split
    · next hlow => rw [stop_eq]; exact fun _ => iff_of_true rfl hlow
    · next hlow => exact startUp_resetPinSound .powerOn (Bool.eq_false_iff.2 hlow)
  case resetPinLow =>
    split
    · next hphase => exact fun hn => absurd hphase hn
    · exact fun _ => iff_of_true rfl rfl
  case resetPinRelease =>
    split
    · next hphase => exact fun hn => absurd hphase hn
    · exact resetPinSound_live (.inl rfl) rfl
  case inputSettlingEnd =>
    split
    · next hphase =>
      refine resetPinSound_live (.inr ?_) ?_
      · rw [endSettling_eq]
      · rw [endSettling_eq]
        exact (congrArg Console.resetLow (adoptInputs_console s)).trans (h.low_of_live (.inl hphase))
    · exact h
  case supplyLost => exact fun hn => absurd rfl hn
  case requestTransaction piece =>
    split
    · exact hbackground (shift_background _ _ s)
    · exact h
  case fetch piece =>
    split
    · exact hbackground (fetch_background _ _ s)
    · exact h
  case saveOperationEnd verified =>
    refine harrival fun u => ?_
    unfold State.endSave
    repeat' split
    all_goals exact ⟨rfl, rfl⟩
  case eraseOperationEnd => exact harrival fun u => by unfold State.endErase; split <;> exact ⟨rfl, rfl⟩

theorem exec_request_resetPinSound {i : Instr} {s t : State} (he : exec i s = .next t) (hi : (requestCode i).isSome = true)
    (h : s.ResetPinSound) : t.ResetPinSound := by
  by_cases hr : i = .restart
  · subst hr; cases he
    rcases requestStep_cases .restart _ s with ⟨p, hstep⟩ | ⟨hrun, hstep⟩ <;> rw [hstep]
    · exact h
    · split
      · exact h
      · exact startUp_resetPinSound .restart (h.low_of_live (.inr hrun))
  by_cases hs : i = .save
  · subst hs; cases he
    exact complete_keeps (fun _ _ hu => hu) (fun u hu => by rw [save_touches]; exact hu) h
  by_cases hx : i = .eraseStore
  · subst hx; cases he
    exact complete_keeps (fun _ _ hu => hu) (fun u hu => by rw [eraseStore_touches]; exact hu) h
  obtain ⟨owner, hexec, howner⟩ := exec_request_served hi hr hs hx
  rw [hexec] at he
  cases he
  exact complete_keeps (fun _ _ hu => hu) (fun u hu => hu.of_console (howner u).console) h

theorem exec_resetPinSound {i : Instr} {s t : State} (he : exec i s = .next t) (h : s.ResetPinSound) : t.ResetPinSound := by
  cases hcode : requestCode i with
  | some code => exact exec_request_resetPinSound he (by rw [hcode]; rfl) h
  | none =>
    cases hi : worksConsole i with
    | true => exact exec_event_resetPinSound he hi h
    | false => exact h.of_console (console_of_desk (exec_event_desk he hi hcode))

/-- Settles O12: most commands leave all that the laws look at, a request changes the port as R148 says and the live tables only where the store
is Ready, and the others keep the laws one by one. -/
theorem everyStepKeepsPortAndStoreSound : Obligations.EveryStepKeepsPortAndStoreSound := by
  refine ⟨fun s t hport hstore h => ?_, fun s t hpin h => ?_⟩
  · have hs : s.DeskSound := ⟨(portSound_iff s).1 hport, hstore⟩
    have ht : t.DeskSound := by
      unfold step at h
      split at h
      · cases h; exact hs
      · exact exec_deskSound h (hs.of_desk rfl)
    exact ⟨(portSound_iff t).2 ht.port, ht.store⟩
  · unfold step at h
    split at h
    · cases h; exact hpin
    · exact exec_resetPinSound h (hpin.congr rfl rfl)

end Sys2Proof.Machine

namespace Sys2Proof.Machine

/-! ## Payload items, read back as they are written (R165) -/

theorem byte_read {n : Nat} (h : fitsByte n = true) : (BitVec.ofNat 8 n).toNat = n := by
  rw [BitVec.toNat_ofNat]
  exact Nat.mod_eq_of_lt (of_decide_eq_true h)

theorem word_read {n : Nat} (h : fitsWord n = true) : word (BitVec.ofNat 8 (n / 256)) (BitVec.ofNat 8 n) = n := by
  have hn : n < 65536 := of_decide_eq_true h
  simp only [word, BitVec.toNat_ofNat]
  omega

/-- FFFFh says absent, and no value that is given reads as absent. -/
theorem optWord_read {o : Option Nat} (h : fitsOpt o = true) :
    optWord (BitVec.ofNat 8 (o.getD 0xFFFF / 256)) (BitVec.ofNat 8 (o.getD 0xFFFF)) = o := by
  cases o with
  | none => decide
  | some n =>
    have hn : n < 65535 := of_decide_eq_true h
    rw [optWord, Option.getD_some, word_read (decide_eq_true (by omega)), if_neg (by omega)]

@[simp] theorem opt2_length (o : Option Nat) : (opt2 o).length = 2 := rfl

@[simp] theorem pairBytes_length (l : List (Nat × Nat)) : (pairBytes l).length = 4 * l.length := by
  induction l with
  | nil => rfl
  | cons e l ih =>
    show ((be2 e.1 ++ be2 e.2) ++ pairBytes l).length = _
    rw [List.length_append, ih, List.length_cons]
    simp only [List.length_append, be2_length]
    omega

theorem readPairs_pairBytes {l : List (Nat × Nat)} (h : ∀ e ∈ l, fitsWord e.1 = true ∧ fitsWord e.2 = true) :
    readPairs (pairBytes l) = some l := by
  induction l with
  | nil => rfl
  | cons e l ih =>
    obtain ⟨⟨h1, h2⟩, hl⟩ := List.forall_mem_cons.1 h
    show (readPairs (pairBytes l)).map (fun t => (word _ _, word _ _) :: t) = _
    rw [ih hl, word_read h1, word_read h2]
    rfl

theorem fitsPairs_iff (most : Nat) (l : List (Nat × Nat)) :
    fitsPairs most l = true ↔ l.length ≤ most ∧ ∀ e ∈ l, fitsWord e.1 = true ∧ fitsWord e.2 = true := by
  simp [fitsPairs, fitsWord]

/-! ### Given fields (R165) -/

theorem read1_field1 {o : Option Nat} (h : o.all fitsByte = true) (rest : List Byte) : read1 o.isSome (field1 o ++ rest) = some (o, rest) := by
  cases o with
  | none => rfl
  | some n =>
    show some (some (BitVec.ofNat 8 n).toNat, rest) = _
    rw [byte_read h]

theorem read2_field2 {o : Option Nat} (h : o.all fitsWord = true) (rest : List Byte) : read2 o.isSome (field2 o ++ rest) = some (o, rest) := by
  cases o with
  | none => rfl
  | some n =>
    show some (some (word _ _), rest) = _
    rw [word_read h]

theorem readOpt2_fieldOpt2 {o : Option (Option Nat)} (h : o.all fitsOpt = true) (rest : List Byte) :
    readOpt2 o.isSome (fieldOpt2 o ++ rest) = some (o, rest) := by
  cases o with
  | none => rfl
  | some v =>
    show some (some (optWord _ _), rest) = _
    rw [optWord_read h]

theorem readBase_baseBytes {o : Option BaseLevels} (h : o.all BaseLevels.fits = true) (rest : List Byte) :
    readBase o.isSome ((o.map baseBytes).getD [] ++ rest) = some (o, rest) := by
  cases o with
  | none => rfl
  | some b =>
    simp only [Option.all_some, BaseLevels.fits, Bool.and_eq_true, and_assoc] at h
    obtain ⟨h1, h2, h3, h4, h5⟩ := h
    show some (some (BaseLevels.mk (word _ _) (word _ _) (word _ _) (word _ _) (word _ _)), rest) = _
    rw [word_read h1, word_read h2, word_read h3, word_read h4, word_read h5]

/-! ### Presence sets (R165) -/

/-- The number of a presence set, bit `i` for the field in place `i` of some. -/
def presence : List Bool → Nat
  | [] => 0
  | b :: l => b.toNat + 2 * presence l

/-- A bit of a presence set says whether its field is given. -/
theorem presence_testBit (l : List Bool) (i : Nat) : (presence l).testBit i = l.getD i false := by
  induction l generalizing i with
  | nil => simp [presence]
  | cons b l ih =>
    cases i with
    | zero => cases b <;> simp [presence, Nat.testBit_zero]
    | succ i =>
      have hhalf : (b.toNat + 2 * presence l) / 2 = presence l := by cases b <;> simp; omega
      rw [presence, Nat.testBit_succ, hhalf, ih]
      rfl

theorem presence_lt (l : List Bool) : presence l < 2 ^ l.length := by
  induction l with
  | nil => exact Nat.one_pos
  | cons b l ih =>
    have hb : b.toNat ≤ 1 := Bool.toNat_le b
    rw [presence, List.length_cons, pow_succ]
    omega

theorem present_eq {o : Type} (i : Nat) (f : Option o) : present i f = 2 ^ i * f.isSome.toNat := by
  cases f <;> simp [present]

/-! ### The fields of the four settings requests (R165) -/

/-- The presence set of SET CIRCUIT CONFIG. -/
def circuitPresence (f : CircuitFields) : List Bool :=
  [f.kind.isSome, f.floor.isSome, f.cap.isSome, f.threshold.isSome, f.inverted.isSome, f.base.isSome, f.safe1.isSome, f.safe2.isSome,
    f.localClear.isSome]

/-- The given fields of SET CIRCUIT CONFIG. -/
def circuitGiven (f : CircuitFields) : List Byte :=
  field1 f.kind ++ (field2 f.floor ++ (field2 f.cap ++ (field2 f.threshold ++ (field1 f.inverted
    ++ ((f.base.map baseBytes).getD [] ++ (fieldOpt2 f.safe1 ++ (fieldOpt2 f.safe2 ++ field1 f.localClear)))))))

theorem circuitFieldBytes_eq (f : CircuitFields) : circuitFieldBytes f = be2 (presence (circuitPresence f)) ++ circuitGiven f := by
  simp only [circuitFieldBytes, circuitGiven, circuitPresence, present_eq, presence]
  congr 2
  ring

theorem readCircuitFields_given {f : CircuitFields} (h : f.fits = true) :
    readCircuitFields (presence (circuitPresence f)) (circuitGiven f) = some f := by
  simp only [CircuitFields.fits, Bool.and_eq_true, and_assoc] at h
  obtain ⟨hkind, hfloor, hcap, hthreshold, hinverted, hbase, hsafe1, hsafe2, hclear⟩ := h
  rw [circuitGiven, ← List.append_nil (field1 f.localClear)]
  simp only [readCircuitFields, presence_testBit, circuitPresence, List.getD_cons_zero, List.getD_cons_succ, Option.bind_eq_bind,
    Option.bind_some, read1_field1 hkind, read2_field2 hfloor, read2_field2 hcap, read2_field2 hthreshold, read1_field1 hinverted,
    readBase_baseBytes hbase, readOpt2_fieldOpt2 hsafe1, readOpt2_fieldOpt2 hsafe2, read1_field1 hclear, if_pos]

/-- The presence set of SET MODE OPTIONS. -/
def optionPresence (f : OptionFields) : List Bool :=
  [f.modeFade.isSome, f.defaultFade.isSome, f.defaultRate.isSome, f.safeReleaseFade.isSome, f.startMode.isSome]

/-- The given fields of SET MODE OPTIONS. -/
def optionGiven (f : OptionFields) : List Byte :=
  field2 f.modeFade ++ (field2 f.defaultFade ++ (field2 f.defaultRate ++ (field2 f.safeReleaseFade ++ field1 f.startMode)))

theorem optionFieldBytes_eq (f : OptionFields) : optionFieldBytes f = be1 (presence (optionPresence f)) ++ optionGiven f := by
  simp only [optionFieldBytes, optionGiven, optionPresence, present_eq, presence]
  congr 2
  ring

theorem readOptionFields_given {f : OptionFields} (h : f.fits = true) :
    readOptionFields (presence (optionPresence f)) (optionGiven f) = some f := by
  simp only [OptionFields.fits, Bool.and_eq_true, and_assoc] at h
  obtain ⟨hmode, hfade, hrate, hrelease, hstart⟩ := h
  rw [optionGiven, ← List.append_nil (field1 f.startMode)]
  simp only [readOptionFields, presence_testBit, optionPresence, List.getD_cons_zero, List.getD_cons_succ, Option.bind_eq_bind,
    Option.bind_some, read2_field2 hmode, read2_field2 hfade, read2_field2 hrate, read2_field2 hrelease, read1_field1 hstart, if_pos]

/-- The presence set of SET LINE CONFIG. -/
def linePresence (f : LineFields) : List Bool := [f.enabled.isSome, f.divisor.isSome, f.window.isSome]

/-- The given fields of SET LINE CONFIG. -/
def lineGiven (f : LineFields) : List Byte := field1 f.enabled ++ (field1 f.divisor ++ field1 f.window)

theorem lineFieldBytes_eq (f : LineFields) : lineFieldBytes f = be1 (presence (linePresence f)) ++ lineGiven f := by
  simp only [lineFieldBytes, lineGiven, linePresence, present_eq, presence]
  congr 2
  ring

theorem readLineFields_given {f : LineFields} (h : f.fits = true) :
    readLineFields (presence (linePresence f)) (lineGiven f) = some f := by
  simp only [LineFields.fits, Bool.and_eq_true, and_assoc] at h
  obtain ⟨henabled, hdivisor, hwindow⟩ := h
  rw [lineGiven, ← List.append_nil (field1 f.window)]
  simp only [readLineFields, presence_testBit, linePresence, List.getD_cons_zero, List.getD_cons_succ, Option.bind_eq_bind,
    Option.bind_some, read1_field1 henabled, read1_field1 hdivisor, read1_field1 hwindow, if_pos]

/-- The presence set of SET INPUT CONFIG. -/
def inputPresence (f : InputFields) : List Bool :=
  [f.kind.isSome, f.pullUp.isSome, f.polarity.isSome, f.debounce.isSome, f.holdTime.isSome, f.stuckTime.isSome, f.edge.isSome]

/-- The given fields of SET INPUT CONFIG. -/
def inputGiven (f : InputFields) : List Byte :=
  field1 f.kind ++ (field1 f.pullUp ++ (field1 f.polarity ++ (field1 f.debounce ++ (field2 f.holdTime
    ++ (field2 f.stuckTime ++ field1 f.edge)))))

theorem inputFieldBytes_eq (f : InputFields) : inputFieldBytes f = be1 (presence (inputPresence f)) ++ inputGiven f := by
  simp only [inputFieldBytes, inputGiven, inputPresence, present_eq, presence]
  congr 2
  ring

theorem readInputFields_given {f : InputFields} (h : f.fits = true) :
    readInputFields (presence (inputPresence f)) (inputGiven f) = some f := by
  simp only [InputFields.fits, Bool.and_eq_true, and_assoc] at h
  obtain ⟨hkind, hpull, hpolarity, hdebounce, hhold, hstuck, hedge⟩ := h
  rw [inputGiven, ← List.append_nil (field1 f.edge)]
  simp only [readInputFields, presence_testBit, inputPresence, List.getD_cons_zero, List.getD_cons_succ, Option.bind_eq_bind,
    Option.bind_some, read1_field1 hkind, read1_field1 hpull, read1_field1 hpolarity, read1_field1 hdebounce, read2_field2 hhold,
    read2_field2 hstuck, read1_field1 hedge, if_pos]

/-! ### Source keys and binding records (R36, R165) -/

theorem readKey_fits {k : RawKey} (h : k.fits = true) :
    readKey (BitVec.ofNat 8 k.origin) (BitVec.ofNat 8 k.address) (BitVec.ofNat 8 k.number) = k := by
  simp only [RawKey.fits, Bool.and_eq_true, and_assoc] at h
  obtain ⟨horigin, haddress, hnumber⟩ := h
  rw [readKey, byte_read horigin, byte_read haddress, byte_read hnumber]

theorem readRecord_rawBindingBytes {r : RawBinding} (h : r.fits = true) : readRecord (rawBindingBytes r) = some r := by
  simp only [RawBinding.fits, Bool.and_eq_true, and_assoc] at h
  obtain ⟨hkey, hkind, hmask, haction, htargetKind, htarget, hlevel, hfade, hrate, hfeedback⟩ := h
  show some (RawBinding.mk (readKey _ _ _) _ _ _ _ (word _ _) (optWord _ _) (optWord _ _) (optWord _ _) _) = _
  rw [readKey_fits hkey, byte_read hkind, byte_read hmask, byte_read haction, byte_read htargetKind, word_read htarget,
    optWord_read hlevel, optWord_read hfade, optWord_read hrate, byte_read hfeedback]

/-! ### Payloads of fixed size -/

theorem fits1_byte (f : Nat → Instr) {n : Nat} (h : fitsByte n = true) : fits1 f (be1 n) = .request (f n) :=
  congrArg (Parsed.request ∘ f) (byte_read h)

theorem fits2_word (f : Nat → Instr) {n : Nat} (h : fitsWord n = true) : fits2 (fun a b => f (word a b)) (be2 n) = .request (f n) :=
  congrArg (Parsed.request ∘ f) (word_read h)

theorem fits2_bytes (f : Nat → Nat → Instr) {m n : Nat} (h : (fitsByte m && fitsByte n) = true) :
    fits2 (fun a b => f a.toNat b.toNat) (be1 m ++ be1 n) = .request (f m n) := by
  obtain ⟨hm, hn⟩ := Bool.and_eq_true_iff.1 h
  show Parsed.request (f _ _) = _
  rw [byte_read hm, byte_read hn]

/-- A window of records: the number of the first, and how many. -/
theorem fits3_window (f : Nat → Nat → Instr) {first count : Nat} (h : (fitsWord first && fitsByte count) = true) :
    fits3 (fun a b n => f (word a b) n.toNat) (be2 first ++ be1 count) = .request (f first count) := by
  obtain ⟨hfirst, hcount⟩ := Bool.and_eq_true_iff.1 h
  show Parsed.request (f _ _) = _
  rw [word_read hfirst, byte_read hcount]

theorem fits3_key (f : RawKey → Instr) {k : RawKey} (h : k.fits = true) :
    fits3 (fun a b c => f (readKey a b c)) (rawKeyBytes k) = .request (f k) :=
  congrArg (Parsed.request ∘ f) (readKey_fits h)

theorem fits3_fade (f : Nat → Option Nat → Instr) {n : Nat} {fade : Option Nat} (h : (fitsByte n && fitsOpt fade) = true) :
    fits3 (fun a f1 f0 => f a.toNat (optWord f1 f0)) (be1 n ++ opt2 fade) = .request (f n fade) := by
  obtain ⟨hn, hfade⟩ := Bool.and_eq_true_iff.1 h
  show Parsed.request (f _ (optWord _ _)) = _
  rw [byte_read hn, optWord_read hfade]

theorem fits4_key (f : RawKey → Nat → Instr) {k : RawKey} {e : Nat} (h : (k.fits && fitsByte e) = true) :
    fits4 (fun a b c e => f (readKey a b c) e.toNat) (rawKeyBytes k ++ be1 e) = .request (f k e) := by
  obtain ⟨hk, he⟩ := Bool.and_eq_true_iff.1 h
  show Parsed.request (f (readKey _ _ _) _) = _
  rw [readKey_fits hk, byte_read he]

/-- A window into the records of one numbered table. -/
theorem fits4_window (f : Nat → Nat → Nat → Instr) {t first count : Nat} (h : (fitsByte t && fitsWord first && fitsByte count) = true) :
    fits4 (fun g a b n => f g.toNat (word a b) n.toNat) (be1 t ++ be2 first ++ be1 count) = .request (f t first count) := by
  simp only [Bool.and_eq_true] at h
  obtain ⟨⟨ht, hfirst⟩, hcount⟩ := h
  show Parsed.request (f _ (word _ _) _) = _
  rw [byte_read ht, word_read hfirst, byte_read hcount]

theorem fits4_bytes (f : Nat → Nat → Nat → Nat → Instr) {k l m n : Nat}
    (h : (fitsByte k && fitsByte l && fitsByte m && fitsByte n) = true) :
    fits4 (fun a b c d => f a.toNat b.toNat c.toNat d.toNat) (be1 k ++ be1 l ++ be1 m ++ be1 n) = .request (f k l m n) := by
  simp only [Bool.and_eq_true] at h
  obtain ⟨⟨⟨hk, hl⟩, hm⟩, hn⟩ := h
  show Parsed.request (f _ _ _ _) = _
  rw [byte_read hk, byte_read hl, byte_read hm, byte_read hn]

end Sys2Proof.Machine

namespace Sys2Proof.Machine

/-! ## Reading back each request's payload (R149, R165) -/

theorem fitsWord_presence {l : List Bool} (h : l.length ≤ 16) : fitsWord (presence l) = true :=
  decide_eq_true (lt_of_lt_of_le (presence_lt l) (Nat.pow_le_pow_right (by decide : 0 < 2) h))

theorem fitsByte_presence {l : List Bool} (h : l.length ≤ 8) : fitsByte (presence l) = true :=
  decide_eq_true (lt_of_lt_of_le (presence_lt l) (Nat.pow_le_pow_right (by decide : 0 < 2) h))

/-- A list of pairs, read to the payload's end by the request `f` names. -/
theorem fitsRead_pairs (f : List (Nat × Nat) → Instr) {most : Nat} {l : List (Nat × Nat)} (h : fitsPairs most l = true) :
    fitsRead ((readPairs (pairBytes l)).map f) = .request (f l) := by
  rw [readPairs_pairBytes ((fitsPairs_iff most l).1 h).2]
  rfl

/-- A numbered table's list of pairs (WRITE GROUP, EXTEND SCENE). -/
theorem fitsRead_list (f : Nat → List (Nat × Nat) → Instr) {n most : Nat} {l : List (Nat × Nat)}
    (h : (fitsByte n && fitsPairs most l) = true) :
    fitsRead ((readPairs (pairBytes l)).map (f (BitVec.ofNat 8 n).toNat)) = .request (f n l) := by
  obtain ⟨hn, hl⟩ := Bool.and_eq_true_iff.1 h
  rw [byte_read hn, fitsRead_pairs _ hl]

/-- A scene's fade and list of pairs (WRITE SCENE, CAPTURE SCENE). -/
theorem fitsRead_scene (f : Nat → Option Nat → List (Nat × Nat) → Instr) {n most : Nat} {fade : Option Nat} {l : List (Nat × Nat)}
    (h : (fitsByte n && fitsOpt fade && fitsPairs most l) = true) :
    fitsRead ((readPairs (pairBytes l)).map
        (f (BitVec.ofNat 8 n).toNat (optWord (BitVec.ofNat 8 (fade.getD 0xFFFF / 256)) (BitVec.ofNat 8 (fade.getD 0xFFFF)))))
      = .request (f n fade l) := by
  simp only [Bool.and_eq_true] at h
  obtain ⟨⟨hn, hfade⟩, hl⟩ := h
  rw [byte_read hn, optWord_read hfade, fitsRead_pairs _ hl]

theorem parseRequest_setCircuitConfig {a b : Nat} {f : CircuitFields} (h : (Instr.setCircuitConfig a b f).wellFormed = true) :
    parseRequest 0x10 (payloadOf (.setCircuitConfig a b f)) = .request (.setCircuitConfig a b f) := by
  simp only [Instr.wellFormed, Bool.and_eq_true] at h
  obtain ⟨⟨ha, hb⟩, hf⟩ := h
  rw [payloadOf, circuitFieldBytes_eq]
  show fitsRead ((readCircuitFields (word _ _) (circuitGiven f)).map (.setCircuitConfig (word _ _) (word _ _))) = _
  rw [word_read (fitsWord_presence (by simp [circuitPresence])), word_read ha, word_read hb, readCircuitFields_given hf]
  rfl

theorem parseRequest_setModeOptions {f : OptionFields} (h : (Instr.setModeOptions f).wellFormed = true) :
    parseRequest 0x42 (payloadOf (.setModeOptions f)) = .request (.setModeOptions f) := by
  rw [payloadOf, optionFieldBytes_eq]
  show fitsRead ((readOptionFields (BitVec.toNat _) (optionGiven f)).map .setModeOptions) = _
  rw [byte_read (fitsByte_presence (by simp [optionPresence])), readOptionFields_given h]
  rfl

theorem parseRequest_setLineConfig {l : Nat} {f : LineFields} (h : (Instr.setLineConfig l f).wellFormed = true) :
    parseRequest 0x50 (payloadOf (.setLineConfig l f)) = .request (.setLineConfig l f) := by
  obtain ⟨hl, hf⟩ := Bool.and_eq_true_iff.1 h
  rw [payloadOf, lineFieldBytes_eq]
  show fitsRead ((readLineFields (BitVec.toNat _) (lineGiven f)).map (.setLineConfig (BitVec.toNat _))) = _
  rw [byte_read (fitsByte_presence (by simp [linePresence])), byte_read hl, readLineFields_given hf]
  rfl

theorem parseRequest_setInputConfig {n : Nat} {f : InputFields} (h : (Instr.setInputConfig n f).wellFormed = true) :
    parseRequest 0x60 (payloadOf (.setInputConfig n f)) = .request (.setInputConfig n f) := by
  obtain ⟨hn, hf⟩ := Bool.and_eq_true_iff.1 h
  rw [payloadOf, inputFieldBytes_eq]
  show fitsRead ((readInputFields (BitVec.toNat _) (inputGiven f)).map (.setInputConfig (BitVec.toNat _))) = _
  rw [byte_read (fitsByte_presence (by simp [inputPresence])), byte_read hn, readInputFields_given hf]
  rfl

theorem parseRequest_claimLevel {c l v f : Nat} (h : (Instr.claimLevel c l v f).wellFormed = true) :
    parseRequest 0x12 (payloadOf (.claimLevel c l v f)) = .request (.claimLevel c l v f) := by
  simp only [Instr.wellFormed, Bool.and_eq_true] at h
  obtain ⟨⟨⟨hcirc, hlayer⟩, hlevel⟩, hfade⟩ := h
  show Parsed.request (.claimLevel (word _ _) (BitVec.toNat _) (word _ _) (word _ _)) = _
  rw [word_read hcirc, byte_read hlayer, word_read hlevel, word_read hfade]

theorem parseRequest_releaseLayer {c l f : Nat} (h : (Instr.releaseLayer c l f).wellFormed = true) :
    parseRequest 0x13 (payloadOf (.releaseLayer c l f)) = .request (.releaseLayer c l f) := by
  simp only [Instr.wellFormed, Bool.and_eq_true] at h
  obtain ⟨⟨hcirc, hlayer⟩, hfade⟩ := h
  show Parsed.request (.releaseLayer (word _ _) (BitVec.toNat _) (word _ _)) = _
  rw [word_read hcirc, byte_read hlayer, word_read hfade]

theorem parseRequest_addBinding {r : RawBinding} (h : (Instr.addBinding r).wellFormed = true) :
    parseRequest 0x20 (payloadOf (.addBinding r)) = .request (.addBinding r) := by
  show fitsRead ((readRecord (rawBindingBytes r)).map .addBinding) = _
  rw [readRecord_rawBindingBytes h]
  rfl

theorem parseRequest_replaceBinding {n : Nat} {r : RawBinding} (h : (Instr.replaceBinding n r).wellFormed = true) :
    parseRequest 0x21 (payloadOf (.replaceBinding n r)) = .request (.replaceBinding n r) := by
  obtain ⟨hn, hr⟩ := Bool.and_eq_true_iff.1 h
  show fitsRead ((readRecord (rawBindingBytes r)).map (.replaceBinding (word _ _))) = _
  rw [word_read hn, readRecord_rawBindingBytes hr]
  rfl

theorem parseRequest_stageEntry {n c : Nat} {e : StageForm} (h : (Instr.stageEntry n c e).wellFormed = true) :
    parseRequest 0x70 (payloadOf (.stageEntry n c e)) = .request (.stageEntry n c e) := by
  simp only [Instr.wellFormed, Bool.and_eq_true] at h
  obtain ⟨⟨hn, hcirc⟩, he⟩ := h
  cases e with
  | claim level fade =>
    obtain ⟨hlevel, hfade⟩ := Bool.and_eq_true_iff.1 he
    show Parsed.request (.stageEntry (BitVec.toNat _) (word _ _) (.claim (word _ _) (word _ _))) = _
    rw [byte_read hn, word_read hcirc, word_read hlevel, word_read hfade]
  | release fade =>
    show Parsed.request (.stageEntry (BitVec.toNat _) (word _ _) (.release (word _ _))) = _
    rw [byte_read hn, word_read hcirc, word_read he]

theorem parseRequest_payloadOf {i : Instr} {code : Nat} (h : i.wellFormed = true) (hc : requestCode i = some code) :
    parseRequest code (payloadOf i) = .request i := by
  cases i
  case readIdentity | readAttention | restart | readMode | readRackLink | save | eraseStore | readStoreState => cases hc; rfl
  case deleteGroup | deleteScene | readLine | censusStart | censusRead | readInput | stageClear | standby | unstandby | go
    | setLinkConfig => cases hc; exact fits1_byte _ h
  case clearAttention | setAttentionMask | retireBinding | disable | enable | readBinding => cases hc; exact fits2_word _ h
  case unenrolStation | readStation | setStageTrigger => cases hc; exact fits2_bytes _ h
  case readCircuitConfig | readCircuitState => cases hc; exact fits3_window _ h
  case retireSource => cases hc; exact fits3_key _ h
  case setMode => cases hc; exact fits3_fade _ h
  case findBindings | injectEvent => cases hc; exact fits4_key _ h
  case readGroup | readScene | readStage => cases hc; exact fits4_window _ h
  case enrolStation => cases hc; exact fits4_bytes _ h
  case writeGroup | extendScene => cases hc; exact fitsRead_list _ h
  case writeScene | captureScene => cases hc; exact fitsRead_scene _ h
  case setCircuitConfig => cases hc; exact parseRequest_setCircuitConfig h
  case setModeOptions => cases hc; exact parseRequest_setModeOptions h
  case setLineConfig => cases hc; exact parseRequest_setLineConfig h
  case setInputConfig => cases hc; exact parseRequest_setInputConfig h
  case claimLevel => cases hc; exact parseRequest_claimLevel h
  case releaseLayer => cases hc; exact parseRequest_releaseLayer h
  case addBinding => cases hc; exact parseRequest_addBinding h
  case replaceBinding => cases hc; exact parseRequest_replaceBinding h
  case stageEntry => cases hc; exact parseRequest_stageEntry h
  all_goals cases hc

/-! ## The size of a payload (R164: at most 250 bytes) -/

theorem field1_length_le (o : Option Nat) : (field1 o).length ≤ 1 := by cases o <;> simp [field1]

theorem field2_length_le (o : Option Nat) : (field2 o).length ≤ 2 := by cases o <;> simp [field2]

theorem fieldOpt2_length_le (o : Option (Option Nat)) : (fieldOpt2 o).length ≤ 2 := by cases o <;> simp [fieldOpt2]

theorem baseField_length_le (o : Option BaseLevels) : ((o.map baseBytes).getD []).length ≤ 10 := by cases o <;> simp [baseBytes]

theorem circuitFieldBytes_length_le (f : CircuitFields) : (circuitFieldBytes f).length ≤ 25 := by
  have hkind := field1_length_le f.kind
  have hfloor := field2_length_le f.floor
  have hcap := field2_length_le f.cap
  have hthreshold := field2_length_le f.threshold
  have hinverted := field1_length_le f.inverted
  have hbase := baseField_length_le f.base
  have hsafe1 := fieldOpt2_length_le f.safe1
  have hsafe2 := fieldOpt2_length_le f.safe2
  have hclear := field1_length_le f.localClear
  rw [circuitFieldBytes_eq, circuitGiven]
  simp only [List.length_append, be2_length]
  omega

theorem optionFieldBytes_length_le (f : OptionFields) : (optionFieldBytes f).length ≤ 10 := by
  have hmode := field2_length_le f.modeFade
  have hfade := field2_length_le f.defaultFade
  have hrate := field2_length_le f.defaultRate
  have hrelease := field2_length_le f.safeReleaseFade
  have hstart := field1_length_le f.startMode
  rw [optionFieldBytes_eq, optionGiven]
  simp only [List.length_append, be1_length]
  omega

theorem lineFieldBytes_length_le (f : LineFields) : (lineFieldBytes f).length ≤ 4 := by
  have henabled := field1_length_le f.enabled
  have hdivisor := field1_length_le f.divisor
  have hwindow := field1_length_le f.window
  rw [lineFieldBytes_eq, lineGiven]
  simp only [List.length_append, be1_length]
  omega

theorem inputFieldBytes_length_le (f : InputFields) : (inputFieldBytes f).length ≤ 10 := by
  have hkind := field1_length_le f.kind
  have hpull := field1_length_le f.pullUp
  have hpolarity := field1_length_le f.polarity
  have hdebounce := field1_length_le f.debounce
  have hhold := field2_length_le f.holdTime
  have hstuck := field2_length_le f.stuckTime
  have hedge := field1_length_le f.edge
  rw [inputFieldBytes_eq, inputGiven]
  simp only [List.length_append, be1_length]
  omega

/-- The lists of pairs alone come near the limit: 62 pairs after one byte, or 61 after three. -/
theorem payloadOf_length_le {i : Instr} (h : i.wellFormed = true) : (payloadOf i).length ≤ 250 := by
  cases i
  case writeGroup n l | extendScene n l =>
    have hl : l.length ≤ 62 := ((fitsPairs_iff 62 l).1 (Bool.and_eq_true_iff.1 h).2).1
    simp only [payloadOf, List.length_append, be1_length, pairBytes_length]
    omega
  case writeScene n f l | captureScene n f l =>
    have hl : l.length ≤ 61 := ((fitsPairs_iff 61 l).1 (Bool.and_eq_true_iff.1 h).2).1
    simp only [payloadOf, List.length_append, be1_length, opt2_length, pairBytes_length]
    omega
  case setCircuitConfig a b f =>
    have hf := circuitFieldBytes_length_le f
    simp only [payloadOf, List.length_append, be2_length]
    omega
  case setModeOptions f => exact (optionFieldBytes_length_le f).trans (by decide)
  case setLineConfig l f =>
    have hf := lineFieldBytes_length_le f
    simp only [payloadOf, List.length_append, be1_length]
    omega
  case setInputConfig n f =>
    have hf := inputFieldBytes_length_le f
    simp only [payloadOf, List.length_append, be1_length]
    omega
  case stageEntry n c e => cases e <;> simp [payloadOf, stageFormBytes]
  all_goals simp [payloadOf, rawKeyBytes, rawBindingBytes]

theorem requestCode_lt {i : Instr} {code : Nat} (hc : requestCode i = some code) : code < 256 := by
  cases i <;> cases hc <;> decide

/-- Settles O17: each request's payload is read by the pattern of its shape, item by item, and a presence set's bits say which of its
fields follow it. -/
theorem readingARequestUndoesWritingIt : Obligations.ReadingARequestUndoesWritingIt :=
  fun _ _ h hc => ⟨parseRequest_payloadOf h hc, payloadOf_length_le h, requestCode_lt hc⟩

end Sys2Proof.Machine

namespace Sys2Proof.Machine

/-! ## Pieces of a transaction at a port that is there (R146) -/

theorem portLives_of {s : State} (h : s.phase = .settling ∨ s.phase = .running) : s.portLives = true := decide_eq_true h

theorem exec_requestTransaction {s : State} (h : s.phase = .settling ∨ s.phase = .running) (bytes : List Byte) (bits : List Bool)
    (rises : Bool) : exec (.requestTransaction ⟨bytes, bits, rises⟩) s = .next (s.shift (spiBits bytes ++ bits) rises) :=
  congrArg Host.Outcome.next (if_pos (portLives_of h))

theorem exec_wholeBytes {s : State} (h : s.phase = .settling ∨ s.phase = .running) (bytes : List Byte) (rises : Bool) :
    exec (.requestTransaction ⟨bytes, [], rises⟩) s = .next (s.shift (spiBits bytes) rises) := by
  rw [exec_requestTransaction h, List.append_nil]

theorem exec_fetch {s : State} (h : s.phase = .settling ∨ s.phase = .running) (count bits : Nat) (rises : Bool) :
    exec (.fetch ⟨count, bits, rises⟩) s = .next (s.fetch (8 * count + bits) rises) :=
  congrArg Host.Outcome.next (if_pos (portLives_of h))

/-- SDO is driven while a transaction is in progress (R146). -/
theorem sdoDriven_of_some {s : State} {x : Transfer} (h : s.phase = .settling ∨ s.phase = .running) (hx : s.spi = some x) :
    s.sdoDriven = true := by
  rw [State.sdoDriven, portLives_of h, hx]
  rfl

/-- SDO stands at the last bit shifted out. -/
theorem sdoPin_lastBit {s : State} (h : s.phase = .settling ∨ s.phase = .running) (x : Transfer) (out : List Bool) (b : Bool) :
    State.sdoPin { s with spi := some x, sdo := out ++ [b] } = some b := by
  have hdriven : State.sdoDriven { s with spi := some x, sdo := out ++ [b] } = true := sdoDriven_of_some h rfl
  rw [State.sdoPin, if_pos hdriven, List.getLast?_concat]
  rfl

/-- SDO is at high impedance while no transaction is in progress (R146). -/
theorem sdoDriven_of_none {s : State} (h : s.spi = none) : s.sdoDriven = false := by
  rw [State.sdoDriven, h]
  rfl

theorem sdoPin_of_none {s : State} (h : s.spi = none) : s.sdoPin = none := by
  rw [State.sdoPin, sdoDriven_of_none h]
  rfl

theorem shift_rises (l : List Bool) (s : State) : s.shift l true = (s.shift l false).riseSel := rfl

theorem shift_of_some {s : State} {x : Transfer} (h : s.spi = some x) (l : List Bool) : s.shift l false = s.clockBits l := by
  rw [State.shift, fallSel_of_some h]
  rfl

/-- SEL low with nothing clocked stands where a fall of SEL brings the port (R146). -/
theorem shift_selLow {s : State} (h : s.spi = some ⟨[], none, false, none⟩) (hsdo : s.sdo = []) (l : List Bool) (rises : Bool) :
    s.shift l rises = State.shift l rises { s with spi := none } := by
  have hfall : s.fallSel = State.fallSel { s with spi := none } := by
    rw [fallSel_of_some h, fallSel_of_none rfl, ← h, ← hsdo]
  rw [State.shift, hfall]
  rfl

/-- SEL falls, and nothing is clocked. -/
theorem shift_nothing {s : State} (h : s.spi = none) : s.shift [] false = { s with spi := some ⟨[], none, false, none⟩, sdo := [] } :=
  fallSel_of_none h

/-- The first byte of a transaction: SDO carries FFh (R146). -/
theorem shift_firstByte {s : State} (h : s.spi = none) (b : Byte) :
    s.shift (msbFirst b) false = { s with spi := some ⟨[b], none, false, none⟩, sdo := spiBits [0xFF] } := by
  show s.fallSel.clockBits (msbFirst b) = _
  rw [fallSel_of_none h, clockBits_byte rfl]
  rfl

/-- The bytes after a transaction's first. -/
theorem shift_cons (b : Byte) (l : List Byte) (rises : Bool) (s : State) :
    s.shift (spiBits (b :: l)) rises = (s.shift (msbFirst b) false).shift (spiBits l) rises := by
  rw [spiBits_cons, shift_append]

/-- Further bytes of a request transaction (R146, R151). -/
theorem shift_request {s : State} {before : List Byte} {due : Option (List Byte)} {showed : Bool}
    (h : s.spi = some ⟨requestSelector :: before, due, showed, none⟩) (more : List Byte) :
    s.shift (spiBits more) false = { s with
      spi := some ⟨requestSelector :: (before ++ more), due, showed, none⟩
      sdo := s.sdo ++ spiBits (List.replicate more.length s.statusByte) } := by
  rw [shift_of_some h, clockBytes_request more before due showed s h]
  rfl

/-- A request transaction's bytes from the fall of SEL on (R146, R151). -/
theorem shift_requestFromStart {s : State} (h : s.spi = none) (rest : List Byte) :
    s.shift (spiBits (requestSelector :: rest)) false = { s with
      spi := some ⟨requestSelector :: rest, none, false, none⟩
      sdo := spiBits (0xFF :: List.replicate rest.length s.statusByte) } := by
  rw [shift_cons, shift_firstByte h, shift_request rfl]
  rfl

/-- Further bytes of a transaction that is ignored (R146). -/
theorem shift_ignored {s : State} {first : Byte} {before : List Byte} {due : Option (List Byte)} {showed : Bool}
    (hr : first ≠ requestSelector) (hf : first ≠ fetchSelector) (h : s.spi = some ⟨first :: before, due, showed, none⟩)
    (bytes : List Byte) :
    s.shift (spiBits bytes) false = { s with
      spi := some ⟨first :: (before ++ bytes), due, showed, none⟩
      sdo := s.sdo ++ spiBits (List.replicate bytes.length 0xFF) } := by
  rw [shift_of_some h, clockBytes_ignored bytes before first due showed s hr hf h]
  rfl

/-- An ignored transaction's bytes from the fall of SEL on: any first byte but the selectors, or none (R146). -/
theorem shift_ignoredFromStart {s : State} (h : s.spi = none) {bytes : List Byte} (hr : bytes.head? ≠ some requestSelector)
    (hf : bytes.head? ≠ some fetchSelector) :
    s.shift (spiBits bytes) false = { s with
      spi := some ⟨bytes, none, false, none⟩, sdo := spiBits (List.replicate bytes.length 0xFF) } := by
  cases bytes with
  | nil => exact shift_nothing h
  | cons first rest =>
    rw [shift_cons, shift_firstByte h, shift_ignored (fun e => hr (congrArg some e)) (fun e => hf (congrArg some e)) rfl]
    rfl

/-- An ignored transaction leaves nothing but what SDO carried (R146). -/
theorem riseSel_ignoredBytes {s : State} {bytes : List Byte} {due : Option (List Byte)} {showed : Bool} {current : Option ByteInProgress}
    (h : s.spi = some ⟨bytes, due, showed, current⟩) (hr : bytes.head? ≠ some requestSelector) (hf : bytes.head? ≠ some fetchSelector) :
    s.riseSel = { s with spi := none } := by
  cases bytes with
  | nil => exact riseSel_empty h
  | cons first rest => exact riseSel_ignored h (fun e => hr (congrArg some e)) (fun e => hf (congrArg some e))

/-- The bits of a byte that is not complete are discarded (R146). -/
theorem riseSel_incomplete {s : State} {before : List Byte} {due : Option (List Byte)} {showed : Bool} {current : Option ByteInProgress}
    (h : s.spi = some ⟨before, due, showed, current⟩) :
    s.riseSel = State.riseSel { s with spi := some ⟨before, due, showed, none⟩ } := by
  by_cases hr : before.head? = some requestSelector
  · obtain ⟨rest, rfl⟩ := List.head?_eq_some_iff.1 hr
    rw [riseSel_request h, riseSel_request rfl]
    congr 1
    exact (takeFrame_port _ s (some _) s.sdo).symm
  · by_cases hf : before.head? = some fetchSelector
    · obtain ⟨rest, rfl⟩ := List.head?_eq_some_iff.1 hf
      rw [riseSel_fetch h, riseSel_fetch rfl]
      rfl
    · rw [riseSel_ignoredBytes h hr hf, riseSel_ignoredBytes rfl hr hf]

end Sys2Proof.Machine

namespace Sys2Proof.Machine

/-! ## What the port makes of a judged frame (R148, R149) -/

/-- A port in start-up answers every judged frame STARTING. -/
theorem takeFrame_settling {s : State} (h : s.phase = .settling) (j : Judged) :
    ∃ code, (j = .short code ∨ j = .wrongCheck code ∨ ∃ p, j = .complete code p)
      ∧ (s.takeFrame j).port = { s.port with slot := some ⟨code, .starting, []⟩, state := .done, request := none } := by
  unfold State.takeFrame
  rw [h]
  cases j with
  | short code => exact ⟨code, .inl rfl, rfl⟩
  | wrongCheck code => exact ⟨code, .inr (.inl rfl), rfl⟩
  | complete code p => exact ⟨code, .inr (.inr ⟨p, rfl⟩), rfl⟩

/-- A Working port discards every judged frame. -/
theorem takeFrame_working {s : State} (h : s.phase = .running) (hw : s.port.state = .working) (j : Judged) :
    (s.takeFrame j).port = { s.port with overrun := true } := by
  unfold State.takeFrame
  rw [h]
  cases j <;> exact congrArg State.port (if_pos hw)

/-- A running port that is not Working answers a short frame. -/
theorem takeFrame_short {s : State} (h : s.phase = .running) (hw : s.port.state ≠ .working) (code : Byte) :
    (s.takeFrame (.short code)).port = { s.port with slot := some ⟨code, .frameFail, []⟩, state := .done, request := none } := by
  unfold State.takeFrame
  rw [h]
  exact congrArg State.port (if_neg hw)

/-- A running port that is not Working answers a frame of wrong check. -/
theorem takeFrame_wrongCheck {s : State} (h : s.phase = .running) (hw : s.port.state ≠ .working) (code : Byte) :
    (s.takeFrame (.wrongCheck code)).port = { s.port with slot := some ⟨code, .checkFail, []⟩, state := .done, request := none } := by
  unfold State.takeFrame
  rw [h]
  exact congrArg State.port (if_neg hw)

/-- A running port that is not Working makes the two checks of R149 of a complete frame. -/
theorem takeFrame_complete {s : State} (h : s.phase = .running) (hw : s.port.state ≠ .working) (code : Byte) (p : List Byte) :
    s.takeFrame (.complete code p) = s.takeRequest code p := by
  unfold State.takeFrame
  rw [h]
  exact if_neg hw

theorem takeRequest_unknown {code : Byte} {p : List Byte} (h : parseRequest code.toNat p = .unknown) (s : State) :
    (s.takeRequest code p).port = { s.port with slot := some ⟨code, .unknownRequest, []⟩, state := .done, request := none } := by
  rw [State.takeRequest, h]
  rfl

theorem takeRequest_badLength {code : Byte} {p : List Byte} (h : parseRequest code.toNat p = .badLength) (s : State) :
    (s.takeRequest code p).port = { s.port with slot := some ⟨code, .length, []⟩, state := .done, request := none } := by
  rw [State.takeRequest, h]
  rfl

theorem takeRequest_accepted {code : Byte} {p : List Byte} {i : Instr} (h : parseRequest code.toNat p = .request i) (s : State) :
    (s.takeRequest code p).port = { s.port with slot := none, state := .working, request := some i } := by
  rw [State.takeRequest, h]
  rfl

/-- The rise of SEL after the bytes of a request transaction, begun with them or before them (R147, R148). -/
theorem shift_requestEnds {s : State} {bytes rest : List Byte} {shown : List Bool}
    (h : (s.spi = none ∧ bytes = requestSelector :: rest ∧ shown = spiBits (0xFF :: List.replicate rest.length s.statusByte))
      ∨ ∃ before due showed, s.spi = some ⟨requestSelector :: before, due, showed, none⟩ ∧ rest = before ++ bytes
        ∧ shown = s.sdo ++ spiBits (List.replicate bytes.length s.statusByte)) :
    s.shift (spiBits bytes) true = { s with port := (s.takeFrame (judgeFrame rest)).port, spi := none, sdo := shown } := by
  rw [shift_rises]
  obtain ⟨hnone, rfl, rfl⟩ | ⟨before, due, showed, hsome, rfl, rfl⟩ := h
  · rw [shift_requestFromStart hnone, riseSel_request rfl, takeFrame_port]
  · rw [shift_request hsome, riseSel_request rfl, takeFrame_port]

/-! ## Single bits (R146, R151) -/

/-- What SDO carries in a byte position of a request transaction, and in the first of any. -/
theorem sdoByte_request {s : State} {before : List Byte} {due : Option (List Byte)} {showed : Bool} {out : Byte}
    (h : before = [] ∧ out = 0xFF ∨ before.head? = some requestSelector ∧ out = s.statusByte) :
    before ≠ [fetchSelector] ∧ s.sdoByte ⟨before, due, showed, none⟩ = out := by
  obtain ⟨rfl, rfl⟩ | ⟨hhead, rfl⟩ := h
  · exact ⟨nofun, rfl⟩
  · obtain ⟨rest, rfl⟩ := List.head?_eq_some_iff.1 hhead
    exact ⟨by simp [requestSelector, fetchSelector], rfl⟩

/-- One bit clocked where SEL is low. -/
theorem shift_bit {s : State} {x : Transfer} (h : s.spi = some x) (sdi : Bool) : s.shift (spiBits [] ++ [sdi]) false = s.clockBit sdi :=
  shift_of_some h [sdi]

/-- Pieces follow one another bit by bit, and the port stays there between them. -/
theorem exec_requestPieces {s : State} (h : s.phase = .settling ∨ s.phase = .running) (bits more : List Bool) (rises : Bool) :
    ∃ u, exec (.requestTransaction ⟨[], bits, false⟩) s = .next u
      ∧ exec (.requestTransaction ⟨[], bits ++ more, rises⟩) s = exec (.requestTransaction ⟨[], more, rises⟩) u := by
  refine ⟨s.shift bits false, exec_requestTransaction h [] bits false, ?_⟩
  have hu : (s.shift bits false).phase = .settling ∨ (s.shift bits false).phase = .running := by
    rw [shift_low_touches]
    exact h
  rw [exec_requestTransaction h, exec_requestTransaction hu]
  exact congrArg Host.Outcome.next (shift_append bits more rises s)

/-- Settles O19: each piece is bits clocked, whole bytes of each kind of transaction are the transfer's own lemmas, and the rise of SEL is
the judged frame taken by the port's state. -/
theorem requestTransactionsAreTakenByThePortState : Obligations.RequestTransactionsAreTakenByThePortState := by
  intro s hs
  refine ⟨?begins, ?goesOn, ?ignored, ?ignoredWhole, ?selLow, ?bytesAreBits, exec_requestPieces hs, ?firstBit, ?laterBit, ?incomplete,
    ?ends⟩
  case begins =>
    intro rest hnone
    refine ⟨_, ?_, ?_, rfl⟩
    · rw [exec_wholeBytes hs]
      exact congrArg Host.Outcome.next (shift_requestFromStart hnone rest)
    · exact sdoDriven_of_some hs rfl
  case goesOn =>
    intro before due showed more hsome
    refine ⟨_, ?_, ?_, rfl⟩
    · rw [exec_wholeBytes hs]
      exact congrArg Host.Outcome.next (shift_request hsome more)
    · exact sdoDriven_of_some hs rfl
  case ignored =>
    intro bytes first due showed before hr hf hsome
    simp only [exec_wholeBytes hs, shift_rises, shift_ignored hr hf hsome]
    exact ⟨⟨_, rfl, rfl⟩, ⟨_, rfl, riseSel_ignored rfl hr hf⟩⟩
  case ignoredWhole =>
    intro bytes hnone hr hf
    simp only [exec_wholeBytes hs, shift_rises, shift_ignoredFromStart hnone hr hf]
    refine ⟨⟨_, rfl, rfl⟩, ⟨_, rfl, ?_⟩⟩
    rw [riseSel_ignoredBytes rfl hr hf, ← hnone]
  case selLow =>
    intro bytes bits rises hlow hsdo
    rw [exec_requestTransaction hs, exec_requestTransaction (s := { s with spi := none }) hs, shift_selLow hlow hsdo]
  case bytesAreBits =>
    intro bytes bits rises
    rw [exec_requestTransaction hs, exec_requestTransaction hs]
    rfl
  case firstBit =>
    intro before due showed sdi out hsome hout
    obtain ⟨hfetch, hbyte⟩ := sdoByte_request (due := due) (showed := showed) hout
    refine ⟨_, exec_requestTransaction hs [] [sdi] false, ?_⟩
    rw [shift_bit hsome, clockBit_first hsome, if_neg hfetch, if_neg hfetch, hbyte]
    exact ⟨sdoPin_lastBit hs _ _ _, rfl⟩
  case laterBit =>
    intro before due showed out bits sdi hsome
    refine ⟨fun hshort => ⟨_, exec_requestTransaction hs [] [sdi] false, ?_⟩,
      fun b hb => ⟨_, exec_requestTransaction hs [] [sdi] false, ?_⟩⟩
    · rw [shift_bit hsome, clockBit_within hsome hshort]
      exact ⟨sdoPin_lastBit hs _ _ _, rfl⟩
    · have hlast : bits.length = 7 := by simpa using congrArg List.length hb
      rw [shift_bit hsome, clockBit_last hsome hlast, hb, ← msbFirst_eq, byteOf_msbFirst]
  case incomplete =>
    intro before due showed current hsome
    rw [exec_wholeBytes hs, exec_wholeBytes (s := { s with spi := some ⟨before, due, showed, none⟩ }) hs, shift_rises, shift_rises,
      shift_of_some hsome, shift_of_some rfl]
    exact congrArg Host.Outcome.next (riseSel_incomplete hsome)
  case ends =>
    intro bytes rest shown h
    refine ⟨_, exec_wholeBytes hs bytes true, ?_⟩
    rw [shift_requestEnds h]
    refine ⟨rfl, sdoDriven_of_none rfl, sdoPin_of_none rfl, fun hrun hw => takeFrame_working hrun hw _,
      fun hsettle => takeFrame_settling hsettle _, fun hrun hw => ⟨?_, ?_, ?_⟩⟩
    · intro code hj
      rw [hj]
      exact takeFrame_short hrun hw code
    · intro code hj
      rw [hj]
      exact takeFrame_wrongCheck hrun hw code
    · intro code p hj
      rw [hj, takeFrame_complete hrun hw]
      exact ⟨fun hp => takeRequest_unknown hp s, fun hp => takeRequest_badLength hp s, fun i hp => takeRequest_accepted hp s⟩

end Sys2Proof.Machine

namespace Sys2Proof.Machine

/-! ## A fetch as a transaction (R146, R150; log 8, log 31) -/

/-- A fetch's filler: so many whole bytes and bits in which SDI carries 0. -/
theorem fetch_filler (n bits : Nat) :
    List.replicate (8 * n + bits) false = spiBits (List.replicate n 0) ++ List.replicate bits false := by
  rw [List.replicate_add, spiBits_zeros]

/-- A fetch at a port with no transaction begins one with its selector. -/
theorem fetch_begins {s : State} (h : s.spi = none) (n bits : Nat) (rises : Bool) :
    s.fetch (8 * n + bits) rises = s.shift (spiBits (fetchSelector :: List.replicate n 0) ++ List.replicate bits false) rises := by
  rw [State.fetch, h, spiBits_cons, List.append_assoc, ← fetch_filler]

/-- A fetch begins with its selector where SEL has fallen and nothing is clocked. -/
theorem fetch_selLow {s : State} (h : s.spi = some ⟨[], none, false, none⟩) (hsdo : s.sdo = []) (bits : Nat) (rises : Bool) :
    s.fetch bits rises = State.fetch bits rises { s with spi := none } := by
  rw [State.fetch, h]
  exact shift_selLow h hsdo _ rises

/-- A fetch in progress goes on. -/
theorem fetch_goesOn {s : State} {before : List Byte} {due : Option (List Byte)} {showed : Bool} {current : Option ByteInProgress}
    (h : s.spi = some ⟨fetchSelector :: before, due, showed, current⟩) (n bits : Nat) (rises : Bool) :
    s.fetch (8 * n + bits) rises = s.shift (spiBits (List.replicate n 0) ++ List.replicate bits false) rises := by
  rw [State.fetch, h, ← fetch_filler]
  exact if_pos rfl

/-- Within another transaction a fetch brings nothing. -/
theorem fetch_elsewhere {s : State}
    (h : (∃ first before due showed current, first ≠ fetchSelector ∧ s.spi = some ⟨first :: before, due, showed, current⟩)
      ∨ ∃ due showed c, s.spi = some ⟨[], due, showed, some c⟩) (bits : Nat) (rises : Bool) : s.fetch bits rises = s := by
  obtain ⟨first, before, due, showed, current, hf, h⟩ | ⟨due, showed, c, h⟩ := h
  · rw [State.fetch, h]
    exact if_neg hf
  · rw [State.fetch, h]

/-! ### The bytes of a fetch -/

/-- What a fetch of so many bytes sends after its selector: the status byte, the reply that is due, then FFh (R150). -/
def fetchContent (status : Byte) (due : Option (List Byte)) (count : Nat) : List Byte :=
  (status :: (due.getD [] ++ List.replicate count 0xFF)).take count

theorem fetchContent_succ (status : Byte) (due : Option (List Byte)) (count : Nat) :
    fetchContent status due (count + 1) = status :: replyFrom due 0 count := by
  rw [fetchContent, List.take_succ_cons, replyFrom, List.drop_zero, List.take_append, List.take_append, List.take_replicate,
    List.take_replicate]
  congr 3
  omega

/-- The bytes of a fetch after its selector; its content is fixed at the first (R150; log 35). -/
theorem shift_fetchFromSelector {s : State} {due : Option (List Byte)} {showed : Bool}
    (h : s.spi = some ⟨[fetchSelector], due, showed, none⟩) (b : Byte) (l : List Byte) :
    s.shift (spiBits (b :: l)) false = { s with
      spi := some ⟨fetchSelector :: b :: l, s.replyDue, s.port.overrun, none⟩
      sdo := s.sdo ++ spiBits (fetchContent s.statusByte s.replyDue (b :: l).length) } := by
  rw [shift_of_some h, spiBits_cons, clockBits_append, clockBits_byte h, clockBytes_fetch l [] b _ _ _ rfl, List.length_cons,
    fetchContent_succ, spiBits_cons, ← List.append_assoc]
  rfl

/-- Further bytes of a fetch (R150). -/
theorem shift_fetch {s : State} {first : Byte} {after : List Byte} {due : Option (List Byte)} {showed : Bool}
    (h : s.spi = some ⟨fetchSelector :: first :: after, due, showed, none⟩) (l : List Byte) :
    s.shift (spiBits l) false = { s with
      spi := some ⟨fetchSelector :: first :: (after ++ l), due, showed, none⟩
      sdo := s.sdo ++ spiBits (replyFrom due after.length l.length) } := by
  rw [shift_of_some h, clockBytes_fetch l after first due showed s h]
  rfl

/-! ### The rise of SEL after a fetch (R150) -/

/-- Of the bytes a fetch received, the rise of SEL looks at their number alone. -/
theorem endFetch_length (received received' : List Byte) (hlen : received.length = received'.length) (due : Option (List Byte)) (showed : Bool)
    (s : State) : s.endFetch ⟨received, due, showed, none⟩ = s.endFetch ⟨received', due, showed, none⟩ := by
  simp only [State.endFetch, hlen]

/-- A fetch that does not shift out a whole reply leaves it. -/
theorem endFetch_short {x : Transfer} (h : ∀ f, x.due = some f → x.received.length < 2 + f.length) (s : State) :
    (s.endFetch x).port = { s.port with overrun := s.port.overrun && !(decide (2 ≤ x.received.length) && x.showed) } := by
  have hwhole : (x.due.any fun f => decide (2 + f.length ≤ x.received.length)) = false := by
    cases hd : x.due with
    | none => rfl
    | some f => exact decide_eq_false (Nat.not_le.2 (h f hd))
  by_cases hc : 2 ≤ x.received.length ∧ x.showed = true
  · obtain ⟨hlen, hshowed⟩ := hc
    simp [State.endFetch, hwhole, hlen, hshowed, State.withPort]
  · have hkeep : (decide (2 ≤ x.received.length) && x.showed) = false := by simpa using hc
    simp [State.endFetch, hwhole, hc, hkeep, State.withPort]

/-- A fetch that shifts out a reply through its check byte takes it. -/
theorem endFetch_whole {x : Transfer} {f : List Byte} (hd : x.due = some f) (hlen : 2 + f.length ≤ x.received.length) {s : State}
    (hdone : s.port.state = .done) :
    (s.endFetch x).port = { s.port with
      slot := none, state := if s.phase = .settling then .starting else .idle, overrun := s.port.overrun && !x.showed } := by
  have htwo : 2 ≤ x.received.length := by omega
  cases hshowed : x.showed <;> simp [State.endFetch, hd, hlen, hdone, htwo, hshowed, State.withPort, State.idleState]

end Sys2Proof.Machine

namespace Sys2Proof.Machine

/-! ### Whole fetches -/

theorem replyDue_notDone {s : State} (h : s.port.state ≠ .done) : s.replyDue = none := if_neg h

theorem replyDue_done {s : State} (h : s.port.state = .done) {r : Reply} (hr : s.port.slot = some r) : s.replyDue = some r.frame := by
  rw [State.replyDue, if_pos h, hr]
  rfl

/-- What the rise of SEL finds of a fetch of so many bytes after its selector: before the first of them no content is fixed. -/
structure Fetched (s : State) (count : Nat) (x : Transfer) : Prop where
  length : x.received.length = count + 1
  content : count ≠ 0 → x.due = s.replyDue ∧ x.showed = s.port.overrun

/-- The rise of SEL after a fetch whose selector alone was clocked before (R150). -/
theorem shift_fetchEnds {s : State} {due : Option (List Byte)} {showed : Bool} (h : s.spi = some ⟨[fetchSelector], due, showed, none⟩)
    (l : List Byte) : ∃ x, Fetched s l.length x ∧ s.shift (spiBits l) true = { s with
      port := (s.endFetch x).port, spi := none, sdo := s.sdo ++ spiBits (fetchContent s.statusByte s.replyDue l.length) } := by
  rw [shift_rises]
  cases l with
  | nil =>
    refine ⟨⟨[fetchSelector], due, showed, none⟩, ⟨rfl, fun hc => absurd rfl hc⟩, ?_⟩
    rw [shift_of_some h, spiBits_nil, clockBits_nil, riseSel_fetch h]
    simp [fetchContent]
  | cons b l =>
    refine ⟨⟨fetchSelector :: b :: l, s.replyDue, s.port.overrun, none⟩, ⟨rfl, fun _ => ⟨rfl, rfl⟩⟩, ?_⟩
    rw [shift_fetchFromSelector h, riseSel_fetch rfl]
    rfl

/-- A fetch shorter than its reply, or of none, leaves the slot (R150). -/
theorem Fetched.kept {s : State} {n : Nat} {x : Transfer} (h : Fetched s n x) (hn : ∀ f, s.replyDue = some f → n < 1 + f.length) :
    (s.endFetch x).port = { s.port with overrun := s.port.overrun && decide (n = 0) } := by
  obtain ⟨hlen, hcontent⟩ := h
  cases n with
  | zero =>
    rw [endFetch_short (fun f _ => by omega), hlen]
    simp
  | succ n =>
    obtain ⟨hdue, hshowed⟩ := hcontent (Nat.succ_ne_zero n)
    rw [endFetch_short (fun f hf => by have := hn f (hdue ▸ hf); omega), hlen, hshowed]
    simp

/-- A fetch through its reply's check byte takes the reply (R150). -/
theorem Fetched.taken {s : State} {n : Nat} {x : Transfer} (h : Fetched s n x) {f : List Byte} (hf : s.replyDue = some f)
    (hdone : s.port.state = .done) (hn : 1 + f.length ≤ n) :
    (s.endFetch x).port = { s.port with slot := none, state := if s.phase = .settling then .starting else .idle, overrun := false } := by
  obtain ⟨hlen, hcontent⟩ := h
  obtain ⟨hdue, hshowed⟩ := hcontent (by omega)
  rw [endFetch_whole (hdue.trans hf) (by omega) hdone, hshowed, Bool.and_not_self]

/-- The bytes after a fetch's selector, sent by the port or clocked before, come to a selector that stands alone. -/
theorem fetch_afterSelector {s : State} {sent : List Bool}
    (h : (s.spi = none ∧ sent = spiBits [0xFF])
      ∨ ∃ due showed, s.spi = some ⟨[fetchSelector], due, showed, none⟩ ∧ sent = s.sdo) :
    ∃ due showed, ∀ n rises, s.fetch (8 * n + 0) rises
      = State.shift (spiBits (List.replicate n 0)) rises { s with spi := some ⟨[fetchSelector], due, showed, none⟩, sdo := sent } := by
  obtain ⟨hnone, rfl⟩ | ⟨due, showed, hsome, rfl⟩ := h
  · refine ⟨none, false, fun n rises => ?_⟩
    rw [fetch_begins hnone, List.replicate_zero, List.append_nil, shift_cons, shift_firstByte hnone]
  · refine ⟨due, showed, fun n rises => ?_⟩
    rw [fetch_goesOn hsome, List.replicate_zero, List.append_nil, ← hsome]

/-- Of a fetch's bytes, the rise of SEL looks at their number alone (R150). -/
theorem riseSel_fetchLength {p q : List Byte} (h : p.length = q.length) (due : Option (List Byte)) (showed : Bool) (out : List Bool)
    (s : State) : State.riseSel { s with spi := some ⟨fetchSelector :: p, due, showed, none⟩, sdo := out }
      = State.riseSel { s with spi := some ⟨fetchSelector :: q, due, showed, none⟩, sdo := out } := by
  have hlen : (fetchSelector :: p).length = (fetchSelector :: q).length := congrArg Nat.succ h
  rw [riseSel_fetch rfl, riseSel_fetch rfl, endFetch_length _ _ hlen]
  rfl

/-- What SDI carries after the selector is ignored (R150). -/
theorem shift_fetchIgnoresSdi {s : State} {before : List Byte} {due : Option (List Byte)} {showed : Bool}
    (h : s.spi = some ⟨fetchSelector :: before, due, showed, none⟩) {l m : List Byte} (hlen : l.length = m.length) :
    s.shift (spiBits l) true = s.shift (spiBits m) true := by
  rw [shift_rises, shift_rises]
  cases before with
  | cons first after =>
    rw [shift_fetch h, shift_fetch h, ← hlen]
    exact riseSel_fetchLength (by simp [hlen]) _ _ _ s
  | nil =>
    cases l with
    | nil => rw [List.length_eq_zero_iff.1 hlen.symm]
    | cons b l =>
      obtain ⟨c, m, rfl⟩ := List.exists_cons_of_length_eq_add_one hlen.symm
      rw [shift_fetchFromSelector h, shift_fetchFromSelector h, ← hlen]
      exact riseSel_fetchLength hlen _ _ _ s

end Sys2Proof.Machine

namespace Sys2Proof.Machine

/-- A fetch that goes on after its status byte ends without its reply's check byte (R150). -/
theorem endFetch_goneOnShort {first : Byte} {after : List Byte} {due : Option (List Byte)} {showed : Bool}
    (h : ∀ f, due = some f → after.length < f.length) (s : State) :
    (s.endFetch ⟨fetchSelector :: first :: after, due, showed, none⟩).port = { s.port with overrun := s.port.overrun && !showed } := by
  rw [endFetch_short (fun f hf => by have := h f hf; simp only [List.length_cons]; omega)]
  simp

/-- A fetch that goes on after its status byte ends with or after its reply's check byte (R150). -/
theorem endFetch_goneOnWhole {first : Byte} {after f : List Byte} {showed : Bool} (h : f.length ≤ after.length) {s : State}
    (hdone : s.port.state = .done) :
    (s.endFetch ⟨fetchSelector :: first :: after, some f, showed, none⟩).port = { s.port with
      slot := none, state := if s.phase = .settling then .starting else .idle, overrun := s.port.overrun && !showed } :=
  endFetch_whole rfl (by simp only [List.length_cons]; omega) hdone

/-- Settles O20: a fetch is the transaction of its selector and filler, whose content is fixed at the start of its status byte, and the rise
of SEL looks at the number of its bytes alone. -/
theorem fetchesShiftTheReplyOut : Obligations.FetchesShiftTheReplyOut := by
  intro n s hs hsound
  refine ⟨?fromSelector, ?selectorAlone, ?goesOn, ?selLow, ?elsewhere, ?asRequest, ?asRequestOn, ?statusBit, ?replyBit, ?sdi⟩
  case fromSelector =>
    intro sent hstart
    obtain ⟨due, showed, hfetch⟩ := fetch_afterSelector hstart
    refine ⟨?_, fun hn => ?_⟩
    · obtain ⟨x, hx, hends⟩ := shift_fetchEnds (s := { s with spi := some ⟨[fetchSelector], due, showed, none⟩, sdo := sent }) rfl
        (List.replicate n 0)
      rw [List.length_replicate] at hx hends
      refine ⟨_, exec_fetch hs n 0 true, ?_⟩
      rw [hfetch, hends]
      refine ⟨rfl, fun hidle => ?_, fun r hdone hr => ?_⟩
      · have hdue : s.replyDue = none := replyDue_notDone hidle
        exact ⟨congrArg (fun d => sent ++ spiBits (fetchContent s.statusByte d n)) hdue, hx.kept fun f hf => nomatch hdue.symm.trans hf⟩
      · have hdue : s.replyDue = some r.frame := replyDue_done hdone hr
        refine ⟨congrArg (fun d => sent ++ spiBits (fetchContent s.statusByte d n)) hdue, fun hshort => hx.kept fun f hf => ?_,
          fun hlong => hx.taken hdue hdone hlong⟩
        obtain rfl : r.frame = f := Option.some.inj (hdue.symm.trans hf)
        exact hshort
    · obtain ⟨m, rfl⟩ : ∃ m, n = m + 1 := ⟨n - 1, by omega⟩
      refine ⟨_, exec_fetch hs (m + 1) 0 false, ?_⟩
      rw [hfetch, List.replicate_succ, shift_fetchFromSelector rfl, List.length_cons, List.length_replicate]
      refine ⟨rfl, fun hidle => ?_, fun r hdone hr => ?_⟩
      · exact congrArg (fun d => sent ++ spiBits (fetchContent s.statusByte d (m + 1))) (replyDue_notDone hidle)
      · exact congrArg (fun d => sent ++ spiBits (fetchContent s.statusByte d (m + 1))) (replyDue_done hdone hr)
  case selectorAlone =>
    intro hnone
    refine ⟨_, exec_fetch hs 0 0 false, ?_⟩
    rw [fetch_begins hnone]
    exact shift_firstByte hnone fetchSelector
  case goesOn =>
    intro first after due showed shown hsome hshown
    have hlow := shift_fetch hsome (List.replicate n 0)
    rw [List.length_replicate] at hlow
    have hfetch (rises : Bool) : s.fetch (8 * n + 0) rises = s.shift (spiBits (List.replicate n 0)) rises := by
      rw [fetch_goesOn hsome, List.replicate_zero, List.append_nil]
    have hlen : (after ++ List.replicate n (0 : Byte)).length = after.length + n := by simp
    refine ⟨⟨_, exec_fetch hs n 0 false, ?_⟩, ⟨_, exec_fetch hs n 0 true, ?_⟩⟩
    · rw [hfetch, hlow, hshown]
      rfl
    · rw [hfetch, shift_rises, hlow, riseSel_fetch rfl, hshown]
      refine ⟨rfl, fun hdue => ?_, fun f hdue => ⟨fun hshort => ?_, fun hlong => ?_⟩⟩
      · exact endFetch_goneOnShort (fun f hf => nomatch hdue.symm.trans hf) _
      · refine endFetch_goneOnShort (fun g hg => ?_) _
        obtain rfl : f = g := Option.some.inj (hdue.symm.trans hg)
        rw [hlen]
        exact hshort
      · have hdone : s.port.state = .done := (((portSound_iff s).1 hsound).transfer _ hsome).due f hdue |>.1
        subst hdue
        exact endFetch_goneOnWhole (hlen ▸ hlong) hdone
  case selLow =>
    intro bits rises hlow hsdo
    rw [exec_fetch hs, exec_fetch (s := { s with spi := none }) hs, fetch_selLow hlow hsdo]
  case elsewhere =>
    intro bits rises hother
    rw [exec_fetch hs, fetch_elsewhere hother]
  case asRequest =>
    intro bits rises hnone
    rw [exec_fetch hs, exec_requestTransaction hs, fetch_begins hnone]
    rfl
  case asRequestOn =>
    intro bits rises before due showed current hsome
    rw [exec_fetch hs, exec_requestTransaction hs, fetch_goesOn hsome]
  case statusBit =>
    intro sdi due showed hsome
    refine ⟨_, exec_requestTransaction hs [] [sdi] false, ?_⟩
    rw [shift_bit hsome, clockBit_first hsome]
    rfl
  case replyBit =>
    intro sdi first after due showed out hsome hout
    refine ⟨_, exec_requestTransaction hs [] [sdi] false, ?_⟩
    rw [shift_bit hsome, clockBit_first hsome, hout]
    rfl
  case sdi =>
    intro bytes hbytes
    have hlen : bytes.length = (List.replicate n (0 : Byte)).length := by rw [hbytes, List.length_replicate]
    refine ⟨fun hnone => ?_, fun before due showed hsome => ?_⟩
    · have hselector : (s.shift (msbFirst fetchSelector) false).spi = some ⟨[fetchSelector], none, false, none⟩ := by
        rw [shift_firstByte hnone]
      rw [exec_wholeBytes hs, exec_fetch hs, fetch_begins hnone, List.replicate_zero, List.append_nil, shift_cons, shift_cons]
      exact congrArg Host.Outcome.next (shift_fetchIgnoresSdi hselector hlen)
    · rw [exec_wholeBytes hs, exec_fetch hs, fetch_goesOn hsome, List.replicate_zero, List.append_nil, shift_fetchIgnoresSdi hsome hlen]

end Sys2Proof.Machine

namespace Sys2Proof.Machine

/-! ## The settings store (R156 to R158, R167) -/

/-- SAVE on a store that is Ready (R157). -/
theorem save_ready {s : State} (h : s.store.state = .ready) : s.save = (s.withStore ⟨.saving, false, [], some s.stored⟩).done [] :=
  if_neg (by simp [State.storeBusy, h])

/-- ERASE STORE on a store that is Ready (R158). -/
theorem eraseStore_ready {s : State} (h : s.store.state = .ready) : s.eraseStore = (s.withStore ⟨.erasing, false, [], none⟩).done [] :=
  if_neg (by simp [State.storeBusy, h])

/-- The verification of a SAVE succeeds (R157). -/
theorem endSave_verified {s : State} (h : s.store.state = .saving) {tables : Stored} (hcopy : s.store.copy = some tables) :
    s.endSave true = (s.withStore ⟨.ready, true, imageFile tables, none⟩).raise .storeDone := by
  rw [State.endSave, if_neg (not_not.2 h), if_pos rfl, hcopy]
  rfl

/-- The verification of a SAVE fails (R157). -/
theorem endSave_failed {s : State} (h : s.store.state = .saving) :
    s.endSave false = (s.withStore ⟨.ready, false, [], none⟩).raise .storeFail := if_neg (not_not.2 h)

theorem endErase_erasing {s : State} (h : s.store.state = .erasing) :
    s.endErase = (s.withStore ⟨.ready, false, [], none⟩).raise .storeDone := if_neg (not_not.2 h)

/-- A 4-byte item holds a number below 2³², high byte first (R165). -/
theorem be4_value {n : Nat} (h : n < 2 ^ 32) : (((BitVec.ofNat 8 (n / 16777216)).toNat * 256 + (BitVec.ofNat 8 (n / 65536)).toNat) * 256
    + (BitVec.ofNat 8 (n / 256)).toNat) * 256 + (BitVec.ofNat 8 n).toNat = n := by
  simp only [BitVec.toNat_ofNat]
  omega

/-- Settles O60: each request by the state of the store, each end by its outcome, and an image by its tables, which are read back from what they
are written as, and the four bytes of its check. -/
theorem theStoreSavesAndErases : Obligations.TheStoreSavesAndErases := by
  intro s
  have hbusy {i : Instr} (hi : writesImage i = true) (hserves : s.Serves i) (h : s.store.state ≠ .ready) : s.Refuses i .storeBusy :=
    (writesAreRefusedWhileTheStoreIsBusy i s hserves h).1 hi
  refine ⟨fun hserves hready => ⟨_, completes_done hserves rfl (save_ready hready) rfl, rfl⟩, hbusy rfl,
    fun hserves hready => ⟨_, completes_done hserves rfl (eraseStore_ready hready) rfl, rfl⟩, hbusy rfl,
    fun hrun hsaving => ⟨fun tables hcopy => ⟨_, ?_, rfl, image_of_file _ _ tables _⟩, _, ?_, rfl, image_of_erased _ _ _⟩,
    fun hrun herasing => ⟨_, ?_, rfl, image_of_erased _ _ _⟩,
    fun tables => ⟨Codec.tables.write tables, _, _, _, _, rfl, be4_value (crc32 _).isLt, fun after u hmemory => ?_,
      fun check after u hlength hcheck hmemory => ?_⟩⟩
  · exact congrArg Host.Outcome.next ((whenRunning_running hrun _).trans (endSave_verified hsaving hcopy))
  · exact congrArg Host.Outcome.next ((whenRunning_running hrun _).trans (endSave_failed hsaving))
  · exact congrArg Host.Outcome.next ((whenRunning_running hrun _).trans (endErase_erasing herasing))
  · rw [Store.image, hmemory]
    exact readImage_imageFile tables after
  · rw [Store.image, hmemory]
    exact readImage_of_wrong_check tables check after hlength hcheck

end Sys2Proof.Machine

namespace Sys2Proof.Machine

/-! ## What every command leaves: the queue (log 21) -/

theorem pending_of_background {s t : State} (h : t.background = s.background) : t.pending = s.pending := congrArg Background.pending h

/-! ### Stages, cues and samples -/

@[simp] theorem withStage_pending (i : StageId) (x : Stage) (s : State) : (s.withStage i x).pending = s.pending := by cases i <;> rfl

@[simp] theorem transfer_pending (i : StageId) (s : State) : (s.transfer i).pending = s.pending := by rw [transfer_frame i s]

@[simp] theorem cueArrives_pending (c : CueLine) (s : State) : (s.cueArrives c).pending = s.pending := by rw [cueArrives_frame c s]

theorem cueHappens_pending (c : CueLine) (s : State) : (s.cueHappens c).pending = s.pending :=
  (cueArrives_pending c _).trans (pending_of_background (withCue_background c _ s))

theorem sampleCue_pending (c : CueLine) (level : Bool) (s : State) : (s.sampleCue c level).pending = s.pending := by
  have hcue (x : CueInput) := pending_of_background (withCue_background c x s)
  unfold State.sampleCue
  dsimp only
  split
  · rw [cueArrives_pending, hcue]
  · exact hcue _

theorem sampleInput_pending (pins : BitVec 28) (s : State) (n : Nat) : (s.sampleInput pins n).pending = s.pending := by
  unfold State.sampleInput
  dsimp only
  split
  · exact pending_of_background (sampleSafe_background .safe1 _ s)
  · split
    · exact pending_of_background (sampleSafe_background .safe2 _ s)
    · split
      · exact sampleCue_pending .cue1 _ s
      · split
        · exact sampleCue_pending .cue2 _ s
        · exact pending_of_background (sampleContact_background n _ s)

/-- A sample of the pins (R116, R122). -/
theorem contactSample_pending (pins : BitVec 28) (order : List Nat) (s : State) : (s.contactSample pins order).pending = s.pending := by
  unfold State.contactSample
  split
  · exact pending_of_background (settleSample_background pins s)
  · exact List.foldlRecOn (motive := fun t : State => t.pending = s.pending) _ _ rfl fun u hu n _ => (sampleInput_pending pins u n).trans hu
  · rfl
  · rfl

/-! ### Rack link, store, supply and start-up -/

theorem reachNextStart_pending (s : State) : s.reachNextStart.pending = s.pending := by
  unfold State.reachNextStart
  repeat' split
  all_goals rfl

theorem endFrame_pending (s : State) : s.endFrame.pending = s.pending := by
  unfold State.endFrame
  repeat' split
  all_goals rfl

theorem endSave_pending (verified : Bool) (s : State) : (s.endSave verified).pending = s.pending := by
  unfold State.endSave
  repeat' split
  all_goals rfl

theorem endErase_pending (s : State) : s.endErase.pending = s.pending := by unfold State.endErase; split <;> rfl

theorem stop_pending (p : Phase) (s : State) : (s.stop p).pending = s.pending := by rw [stop_eq]

theorem startUp_pending (cause : StartCause) (s : State) : (s.startUp cause).pending = s.pending := by rw [startUp_eq cause s _ rfl]

theorem endSettling_pending (s : State) : s.endSettling.pending = s.pending := by rw [endSettling_eq, adoptInputs_eq]

/-! ### Requests that write more than the background -/

theorem addBinding_pending (r : RawBinding) (s : State) : (s.addBinding r).state.pending = s.pending := by
  unfold State.addBinding
  repeat' split
  all_goals rfl

theorem replaceBinding_pending (n : Nat) (r : RawBinding) (s : State) : (s.replaceBinding n r).state.pending = s.pending := by
  unfold State.replaceBinding
  repeat' split
  all_goals rfl

theorem RetireFrame.pending {s t : State} (h : RetireFrame s t) : t.pending = s.pending := by rw [h]

theorem retireBinding_pending (n : Nat) (s : State) : (s.retireBinding n).state.pending = s.pending := by
  unfold State.retireBinding
  repeat' split
  · rfl
  · rfl
  · exact (retire_frame n s).pending

theorem retireSource_pending (k : RawKey) (s : State) : (s.retireSource k).state.pending = s.pending := by
  unfold State.retireSource
  split
  · rfl
  · exact (retireAll_frame _ s).pending

theorem disable_pending (n : Nat) (s : State) : (s.disable n).state.pending = s.pending := by
  unfold State.disable
  repeat' split
  all_goals rfl

theorem enable_pending (n : Nat) (s : State) : (s.enable n).state.pending = s.pending := by
  unfold State.enable
  repeat' split
  all_goals rfl

theorem writeGroup_pending (g : Nat) (ranges : List (Nat × Nat)) (s : State) : (s.writeGroup g ranges).state.pending = s.pending := by
  rw [writeGroup_eq]
  repeat' split
  all_goals rfl

theorem deleteGroup_pending (g : Nat) (s : State) : (s.deleteGroup g).state.pending = s.pending := by
  rw [deleteGroup_eq]
  repeat' split
  all_goals rfl

theorem placeScene_pending (n : Nat) (sc : Scene) (s : State) : (s.placeScene n sc).state.pending = s.pending := by
  unfold State.placeScene; split <;> rfl

theorem writeScene_pending (n : Nat) (fade : Option Nat) (entries : List (Nat × Nat)) (s : State) :
    (s.writeScene n fade entries).state.pending = s.pending := by
  rw [writeScene_eq]
  split
  · exact placeScene_pending n _ s
  · rfl

theorem extendScene_pending (n : Nat) (entries : List (Nat × Nat)) (s : State) : (s.extendScene n entries).state.pending = s.pending := by
  rw [extendScene_eq]
  split
  · cases sceneAt s.scenes n with
    | none => rfl
    | some sc => exact placeScene_pending n _ s
  · rfl

theorem captureScene_pending (n : Nat) (fade : Option Nat) (ranges : List (Nat × Nat)) (s : State) :
    (s.captureScene n fade ranges).state.pending = s.pending := by
  rw [captureScene_eq]
  split
  · exact placeScene_pending n _ s
  · rfl

theorem deleteScene_pending (n : Nat) (s : State) : (s.deleteScene n).state.pending = s.pending := by
  rw [deleteScene_eq]
  repeat' split
  all_goals rfl

theorem setModeOptions_pending (f : OptionFields) (s : State) : (s.setModeOptions f).state.pending = s.pending := by
  unfold State.setModeOptions; split <;> rfl

theorem setLinkConfig_pending (period : Nat) (s : State) : (s.setLinkConfig period).state.pending = s.pending := by
  unfold State.setLinkConfig; split <;> rfl

theorem stageEntry_pending (stage circuit : Nat) (e : StageForm) (s : State) : (s.stageEntry stage circuit e).state.pending = s.pending := by
  unfold State.stageEntry
  repeat' split
  all_goals simp

theorem stageClear_pending (stage : Nat) (s : State) : (s.stageClear stage).state.pending = s.pending := by
  unfold State.stageClear
  repeat' split
  all_goals simp

theorem setStageTrigger_pending (stage trigger : Nat) (s : State) : (s.setStageTrigger stage trigger).state.pending = s.pending := by
  unfold State.setStageTrigger
  repeat' split
  all_goals simp

theorem standby_pending (stage : Nat) (s : State) : (s.standby stage).state.pending = s.pending := by
  unfold State.standby
  repeat' split
  all_goals simp

theorem unstandby_pending (stage : Nat) (s : State) : (s.unstandby stage).state.pending = s.pending := by
  unfold State.unstandby
  repeat' split
  all_goals simp

theorem go_pending (stage : Nat) (s : State) : (s.go stage).state.pending = s.pending := by
  unfold State.go
  repeat' split
  all_goals simp

/-! ### Every command -/

/-- A request whose owner leaves the queue (R149). -/
theorem complete_pending {i : Instr} {owner : State → Carried} (howner : ∀ s, (owner s).state.pending = s.pending) (s : State) :
    (s.complete i owner).pending = s.pending :=
  complete_keeps (P := fun t => t.pending = s.pending) (fun _ _ ht => ht) (fun t ht => (howner t).trans ht) rfl

/-- A write of a stored table, refused while the store is busy (R157). -/
theorem write_pending {i : Instr} {owner : State → Carried} (howner : ∀ s, (owner s).state.pending = s.pending) (s : State) :
    (s.complete i (State.storedWrite owner)).pending = s.pending :=
  complete_pending (fun u => by
    unfold State.storedWrite
    split
    · rfl
    · exact howner u) s

/-- A request that leaves the background. -/
theorem request_pending {i : Instr} {owner : State → Carried} (howner : ∀ s, (owner s).state.background = s.background) (s : State) :
    (s.complete i owner).pending = s.pending := complete_pending (fun u => pending_of_background (howner u)) s

/-- A write of a stored table that leaves the background. -/
theorem backgroundWrite_pending {i : Instr} {owner : State → Carried} (howner : ∀ s, (owner s).state.background = s.background) (s : State) :
    (s.complete i (State.storedWrite owner)).pending = s.pending := write_pending (fun u => pending_of_background (howner u)) s

/-- A request that reads. -/
theorem read_pending {i : Instr} {owner : State → Carried} (howner : ∀ s, (owner s).state = s) (s : State) :
    (s.complete i owner).pending = s.pending := complete_pending (fun u => by rw [howner]) s

theorem exec_request_pending {i : Instr} {s t : State} (he : exec i s = .next t) (hi : (requestCode i).isSome = true) :
    t.pending = s.pending := by
  cases i <;> first | (cases hi; done) | cases he
  case restart =>
    refine requestStep_keeps (P := fun t => t.pending = s.pending) (fun _ _ ht => ht) (fun u hu => ?_) rfl
    split
    · exact hu
    · exact (startUp_pending .restart u).trans hu
  case readIdentity | readAttention | readMode | readRackLink | readStoreState => exact read_pending (fun _ => rfl) s
  case readCircuitConfig first count => exact read_pending (readCircuitConfig_state first count) s
  case readCircuitState first count => exact read_pending (readCircuitState_state first count) s
  case readBinding n => exact read_pending (readBinding_state n) s
  case findBindings k kind => exact read_pending (findBindings_state k kind) s
  case readGroup g first count => exact read_pending (readGroup_state g first count) s
  case readScene n first count => exact read_pending (readScene_state n first count) s
  case readStation line a => exact read_pending (readStation_state line a) s
  case readLine line => exact read_pending (readLine_state line) s
  case censusRead line => exact read_pending (censusRead_state line) s
  case readInput n => exact read_pending (readInput_state n) s
  case readStage stage first count => exact read_pending (readStage_state stage first count) s
  case clearAttention flags => exact request_pending (clearAttention_background flags) s
  case claimLevel n code v fade => exact request_pending (claimLevel_background n code v fade) s
  case releaseLayer n code fade => exact request_pending (releaseLayer_background n code fade) s
  case injectEvent k kind => exact request_pending (injectEvent_background k kind) s
  case setMode m fade => exact request_pending (setMode_background m fade) s
  case censusStart line => exact request_pending (censusStart_background line) s
  case setAttentionMask mask => exact backgroundWrite_pending (setAttentionMask_background mask) s
  case setCircuitConfig first last f => exact backgroundWrite_pending (setCircuitConfig_background first last f) s
  case setLineConfig line f => exact backgroundWrite_pending (setLineConfig_background line f) s
  case enrolStation line a buttons indicators => exact backgroundWrite_pending (enrolStation_background line a buttons indicators) s
  case unenrolStation line a => exact backgroundWrite_pending (unenrolStation_background line a) s
  case setInputConfig n f => exact backgroundWrite_pending (setInputConfig_background n f) s
  case addBinding r => exact write_pending (addBinding_pending r) s
  case replaceBinding n r => exact write_pending (replaceBinding_pending n r) s
  case retireBinding n => exact write_pending (retireBinding_pending n) s
  case retireSource k => exact write_pending (retireSource_pending k) s
  case disable n => exact write_pending (disable_pending n) s
  case enable n => exact write_pending (enable_pending n) s
  case writeGroup g ranges => exact write_pending (writeGroup_pending g ranges) s
  case deleteGroup g => exact write_pending (deleteGroup_pending g) s
  case writeScene n fade entries => exact write_pending (writeScene_pending n fade entries) s
  case extendScene n entries => exact write_pending (extendScene_pending n entries) s
  case captureScene n fade ranges => exact write_pending (captureScene_pending n fade ranges) s
  case deleteScene n => exact write_pending (deleteScene_pending n) s
  case setModeOptions f => exact write_pending (setModeOptions_pending f) s
  case setLinkConfig period => exact write_pending (setLinkConfig_pending period) s
  case stageEntry stage circuit e => exact complete_pending (stageEntry_pending stage circuit e) s
  case stageClear stage => exact complete_pending (stageClear_pending stage) s
  case setStageTrigger stage trigger => exact complete_pending (setStageTrigger_pending stage trigger) s
  case standby stage => exact complete_pending (standby_pending stage) s
  case unstandby stage => exact complete_pending (unstandby_pending stage) s
  case go stage => exact complete_pending (go_pending stage) s
  case save => exact complete_pending (fun u => by rw [save_touches]) s
  case eraseStore => exact complete_pending (fun u => by rw [eraseStore_touches]) s

/-- An arrival that only a running part takes. -/
theorem whenRunning_pending {f : State → State} (hf : ∀ s, (f s).pending = s.pending) (s : State) : (s.whenRunning f).pending = s.pending := by
  unfold State.whenRunning
  split
  · exact hf s
  · rfl

/-- An arrival that leaves the background. -/
theorem arrival_pending {f : State → State} (hf : ∀ s, (f s).background = s.background) (s : State) :
    (s.whenRunning f).pending = s.pending := whenRunning_pending (fun u => pending_of_background (hf u)) s

theorem exec_event_pending {i : Instr} {s t : State} (he : exec i s = .next t) (hi : requestCode i = none) : t.pending = s.pending := by
  cases i <;> first | (cases hi; done) | cases he
  case powerOn =>
    split
    · exact stop_pending _ s
    · exact startUp_pending .powerOn _
  case resetPinLow =>
    split
    · rfl
    · exact stop_pending .held s
  case resetPinRelease =>
    split
    · rfl
    · exact startUp_pending .pin _
  case inputSettlingEnd =>
    split
    · exact endSettling_pending s
    · rfl
  case supplyLost => exact stop_pending _ s
  case requestTransaction piece =>
    split
    · exact pending_of_background (shift_background _ _ s)
    · rfl
  case fetch piece =>
    split
    · exact pending_of_background (fetch_background _ _ s)
    · rfl
  case contactSample pins order => exact contactSample_pending pins order s
  case saveOperationEnd verified => exact whenRunning_pending (endSave_pending verified) s
  case eraseOperationEnd => exact whenRunning_pending endErase_pending s
  case fadeTick => exact arrival_pending (fun u => mapCircuits_background u _) s
  case fadeComplete n l => exact arrival_pending (onCircuit_background n _) s
  case handoverEnd n => exact arrival_pending (onCircuit_background n _) s
  case nextExchange l => exact arrival_pending (chooseExchange_background l) s
  case exchangeSent l => exact arrival_pending (fun u => withLine_background l _ u) s
  case collision l => exact arrival_pending (collide_background l) s
  case reply l chars => exact arrival_pending (endReply_background l (some chars)) s
  case replyWindowEnd l => exact arrival_pending (endReply_background l none) s
  case lineBreak l => exact arrival_pending (breakLine_background l) s
  case faultRecovery l => exact arrival_pending (recoverLine_background l) s
  case roundWaitEnd l => exact arrival_pending (endWait_background l) s
  case acceptedClose n => exact arrival_pending (onContact_background n _ fun _ u => contactClosed_background n _ u) s
  case holdTimeReached n => exact arrival_pending (onContact_background n _ fun _ u => contactHeld_background n _ u) s
  case stuckTimeReached n => exact arrival_pending (onContact_background n _ fun _ u => contactStuck_background n _ u) s
  case acceptedOpen n => exact arrival_pending (onContact_background n _ fun _ u => contactOpened_background n _ u) s
  case maintainedChange n closed => exact arrival_pending (onContact_background n _ fun _ u => contactTurned_background n _ u) s
  case safeAssert i => exact arrival_pending (fun u => by split <;> simp) s
  case safeDeassert i => exact arrival_pending (fun u => by split <;> simp) s
  case cueEvent c => exact whenRunning_pending (cueHappens_pending c) s
  case frameStart => exact whenRunning_pending reachNextStart_pending s
  case frameEnd => exact whenRunning_pending endFrame_pending s

theorem exec_pending {i : Instr} {s t : State} (he : exec i s = .next t) : t.pending = s.pending := by
  cases hcode : requestCode i with
  | some code => exact exec_request_pending he (by rw [hcode]; rfl)
  | none => exact exec_event_pending he hcode

/-- No command has a fault or a refusal (log 8). -/
theorem exec_answers (i : Instr) (s : State) : ∃ t, exec i s = .next t := by cases i <;> exact ⟨_, rfl⟩

/-- Settles O2: requests and events by what carries them out, which leaves the background or writes other parts of it than the queue. -/
theorem everyCommandAnswersANextState : Obligations.EveryCommandAnswersANextState := by
  intro c s
  obtain ⟨t, he⟩ := exec_answers c s
  exact ⟨t, he, exec_pending he⟩

/-! ## One step (log 21) -/

/-- Settles O1, by the two forms of the queue. -/
theorem stepRunsTheFrontCommand : Obligations.StepRunsTheFrontCommand :=
  ⟨fun _ _ _ => rfl, fun s hempty => by rw [step, hempty]⟩

end Sys2Proof.Machine
